-- ==== Sys2Proof/Word.lean ====
section
/-!
DEFINITION. The word types of the XN6420 and their plainest readings.

Registers are 32-bit words (R545), the native word is 40 bits (R11), device time is a 64-bit count of
7.8125 ps (R57) and the meridian tick count has 40 bits (R27).
-/

namespace Sys2Proof

/-- A register word (R545). -/
abbrev Word := BitVec 32

/-- A byte of a record, a mailbox or record memory. -/
abbrev Byte := BitVec 8

/-- The native word (R11). -/
abbrev Native := BitVec 40

/-- Device time, units of 2⁻⁷ ns, modulo 2⁶⁴ (R57). -/
abbrev Time := BitVec 64

/-- One of the two sensing lanes, L0 or L1 (R1). -/
abbrev Lane := Fin 2

/-- A slot of a constellation (R1). -/
abbrev Slot := Fin 8

/-- A zone core, ZC00 to ZC63. -/
abbrev Core := Fin 64

/-- A DMA channel (R408). -/
abbrev Chan := Fin 64

/-- A PCIe function: 0 the physical function, 1 to 31 the virtual functions (R20). -/
abbrev Func := Fin 32

/-- Device-time units in one nanosecond (R57). -/
def duPerNs : Nat := 128

end Sys2Proof
end

