-- ==== Sys2Proof/Syntax.lean ====
section
/-!
DEFINITION. The commands of the XN6420: one constructor of `Instr` for every row of spec/opcode_table.json.

A command is a bus access, an event on a pin, a scheduled event of one of the device's own engines, or the issue of
one zone-core instruction. The operands are what the spec's rule lets the sender, the pin or the analogue world decide;
everything else comes from the state. `t` is the device time at which the command falls, given where a rule uses it.
-/

namespace Sys2Proof

/-- Who makes a register access (R18), in the order in which accesses of one clock are applied. -/
inductive Requester
  | s0 | s1
  | pcie (f : Func)
  | smbus | twin
  deriving DecidableEq, Repr

/-- The ball events that move the gate function of R21 (R109). -/
inductive GateBall
  | emitEn | peerActIn | actOut
  deriving DecidableEq, Repr

/-- SHOT or PHZ, the two blocks that discard a slot shot for lateness (R38). -/
inductive LateBlock
  | shot | phz
  deriving DecidableEq, Repr

/-- One of the drive-output checks of R107 with what was measured. `mv` is the pin voltage in mV, `pct` the DC current
of a modulator leg in percent of nominal, `gateMv` the voltage of PCm_G and `sense` the sense-voltage code. -/
inductive DriveCheck
  | gateOff (n : Lane) (mv : Nat)
  | gateOn (n : Lane) (mv : Nat)
  | ldOff (l : Lane) (mv : Nat)
  | ldOn (l : Lane) (mv : Nat)
  | modI (n : Lane) (pct : Nat)
  | modQ (n : Lane) (pct : Nat)
  | pump (m : Fin 4) (gateMv : Nat) (sense : Nat)
  deriving DecidableEq, Repr

/-- The three legal field codes of a multiplier operand (R290). -/
inductive FieldSel
  | h | m | l
  deriving DecidableEq, Repr

/-- The three sign modes of the multiplier that R290 defines. -/
inductive SignMode
  | ss | uu | su
  deriving DecidableEq, Repr

/-- The pointer updates of R299: 0, +1, −1, +2. -/
inductive Upd
  | none | inc | dec | inc2
  deriving DecidableEq, Repr

/-- The condition codes of R301. -/
inductive Cond
  | always | eq | ne | lt | ge | gt | le | lo | hs | vs | avs | evq | segbusy
  deriving DecidableEq, Repr

/-- The fields of a parallel word other than its operation (R299). -/
structure ParOps where
  acc : Fin 2
  sa : Fin 8
  fa : FieldSel
  sb : Fin 8
  fb : FieldSel
  sgn : SignMode
  xe : Bool
  xp : Fin 4
  xu : Upd
  xd : Fin 4
  ye : Bool
  yp : Fin 4
  yu : Upd
  yd : Fin 4
  deriving DecidableEq, Repr

/-- What a block met in the SRAM words that it read: how many errors it corrected, and whether one was uncorrectable (R15). -/
structure Sram where
  corrected : Nat
  lost : Bool
  deriving DecidableEq, Repr

/-- An error in a BL8 burst as it is read (R361): the nibble at byte-lane position `pos` of a beat differs in `bits`. -/
structure BurstError where
  beat : Fin 8
  pos : Fin 18
  bits : BitVec 4
  deriving DecidableEq, Repr

/-- The requesters of record memory whose reaction to an uncorrectable word R364 states. -/
inductive MemReader
  | slow | capt | cmpSegment | zcCopy | transport | codecCtx | trace | mirror | bar2 | scrub | merge | steward
  deriving DecidableEq, Repr

/-- A selection of a SUBSCRIBE body (R378). -/
structure Selection where
  product : Nat
  lane : Nat
  first : Nat
  count : Nat
  frames : Nat
  src : Nat
  deriving DecidableEq, Repr

/-- How a control message or mailbox command arrives (R381, R388). -/
inductive Path
  | eth (p : Fin 2) (addr : Nat) (port : Nat)
  | mailbox (f : Func)
  deriving DecidableEq, Repr

/-- The header fields of a control message that its meaning reads (R388): the token, the XID, and the key of a message with
AUTH = 1 (R391). -/
structure Ctl where
  path : Path
  token : Word
  xid : Word
  auth : Option (Fin 4)
  deriving DecidableEq, Repr

/-- The body of a SUBSCRIBE (R390). -/
structure SubBody where
  leaseS : Nat
  delivery : Nat
  dataPort : Nat
  fragBytes : Nat
  group : Nat
  sels : List Selection
  deriving DecidableEq, Repr

/-- A frame received by an Ethernet port, by the protocols R397 names. `udp` holds a datagram to UDP port 47310 at a
bound address, with its source and payload. -/
inductive RxFrame
  | arp | ndp | dhcp | routerAdv | icmpEcho
  /-- A PTP message over UDP/IPv4, or (`l2`) IEEE 802.3. -/
  | ptp (l2 : Bool)
  | udp (addr : Nat) (port : Nat) (payload : List Byte)
  | pause
  | badFcs
  | fecUncorr
  | other
  deriving DecidableEq, Repr

/-- The PTP event messages of R402 and the other messages of the default profile. -/
inductive PtpMsg
  | sync | delayReq | announce | followUp | delayResp
  deriving DecidableEq, Repr

/-- A PCIe reset that reaches every function (R411). -/
inductive PcieResetKind
  | hot | linkDown | perst
  deriving DecidableEq, Repr

/-- How a host-memory read completes (R407, R425). -/
inductive Completion
  | ok (bytes : List Byte)
  | poisoned
  | failed
  deriving DecidableEq, Repr

/-- The body of a twin heartbeat (R499); `none` for one that is not received or fails its check. -/
structure Heartbeat where
  role : Nat
  health : Word
  mapSec : Nat
  mapSubs : Nat
  eventSeq : Word
  alive : Bool
  relinquish : Bool
  deriving DecidableEq, Repr

/-- An Ethernet entry of the mirrored subscriber table (R502): its token and path, selections, remaining lease, last
accepted XID, and the STREAM_ID of each selection. -/
structure MirrorEntry where
  ctl : Ctl
  body : SubBody
  leaseS : Nat
  sids : List Nat
  deriving DecidableEq, Repr

/-- The mirror items of R502. -/
inductive MirrorItem
  | calibration (u : List (Nat × Word))
  | commitState (page : Nat) (shadow : List (Nat × Word)) (window : List (Nat × Word))
  | subscribers (entries : List MirrorEntry) (keys : List (Nat × List Byte))
  | codecContext (slot : Nat) (streamId : Nat) (lastSeq : Word) (header : List Byte)
  | zcImage (mask : BitVec 64) (image : List Byte)
  | addresses (port : Fin 2) (mac : Nat) (v4 : Word) (v6 : Nat)
  deriving DecidableEq, Repr

/-- A measured item of a calibration run: its index, and the results of run 1 and run 2 (R477). -/
structure CalPair where
  item : Nat
  run1 : Int
  run2 : Int
  deriving DecidableEq, Repr

/-- The quality figures that a procedure or check yields (R485): interleave spur and image rejection by lane, and the TDC's
nonlinearity. -/
structure CalFigures where
  spur0 : Int
  spur1 : Int
  image0 : Nat
  image1 : Nat
  dnl : Nat
  deriving DecidableEq, Repr

/-- The monitored rails (R561). -/
inductive Rail
  | core | ddr | ahi
  deriving DecidableEq, Repr

/-- The levels of the strap balls (R565). -/
structure Straps where
  side : Bool
  compat : Bool
  bootSel : Fin 4
  deriving DecidableEq, Repr

/-- What the analogue and DRAM world answers during start-up steps 4 to 6 (R567): whether REFCLK is present, for each
channel the narrowest read and write eye of each of its nine byte lanes in picoseconds and the step and lane where its training failed (step 0: at none of
steps 1 to 3), whether a dip outlasts the
100 ms that step 5 waits (R564), the measured pairs of step 6 and whether a repeated run of it met a dip again, and the
time from reset release to step 7 in microseconds. -/
structure StartEnv where
  refPresent : Bool
  eyes0 : List (Nat × Nat)
  eyes1 : List (Nat × Nat)
  fail0 : Nat × Nat := (0, 0)
  fail1 : Nat × Nat := (0, 0)
  dipTimeout : Bool
  pairs : List CalPair
  fig : CalFigures
  calDip : Bool
  startTimeUs : Nat
  deriving DecidableEq, Repr

/-- The commands (spec/opcode_table.json), in the table's order. -/
inductive Instr
  -- ticks, commits, shots
  /-- R27: the next source tick falls. `t` is the instant of the first one; the others fall where R25 and R42 place them. -/
  | meridianTick (t : Time)
  /-- R33: a write of PAGE_COMMIT of a page. -/
  | pageCommit (q : Requester) (t : Time) (page : Nat) (check : Word)
  /-- R36: a write of MERID_APPLY_CTRL.HOLD. -/
  | applyHoldWrite (q : Requester) (t : Time) (hold : Bool)
  /-- R36: the write of MERID_APPLY_TICK_LO that commits the pair. -/
  | applyTickWrite (q : Requester) (t : Time) (lo : Word)
  /-- R100: the command instant of slot `k` of lane `n`, which has come by `t`; in the modes with one gate pulse `k` is 0. -/
  | slotLaunch (n : Lane) (k : Slot) (t : Time)
  /-- R144: the oldest unprocessed shot of slot `k` has been digitised; `codes` holds the converter codes of the four
  channels from the command instant on, `combUe` the points, counted from point −N_ref, whose combiner state word was uncorrectable (R159). -/
  | shotProcess (n : Lane) (k : Slot) (codes : List (List Int)) (combUe : List Nat) (e : Sram := ⟨0, false⟩)
  /-- R175: PHZ takes the gauge values of the lane's oldest shot of slot `k`; `stateUe` names the points whose state
  word was uncorrectable (R15). -/
  | phzProcess (n : Lane) (k : Slot) (stateUe : List Nat) (e : Sram := ⟨0, false⟩)
  /-- R38: SHOT or PHZ misses the deadline of slot `k` of the lane's oldest unprocessed shot. -/
  | overrun (n : Lane) (k : Slot) (b : LateBlock)
  /-- R41: MERID_OUT gives its pulse 1,000 ns before a source tick. -/
  | meridOutPulse (t : Time)
  /-- R42: a rising edge on MERID_IN, with the width of its pulse in ns. -/
  | meridInEdge (t : Time) (widthNs : Nat)
  /-- R43: no MERID_IN edge within T_M + 1 µs. -/
  | inLost (t : Time)
  -- modes
  /-- R49: a write of SYS_MODE.DEV = 0x3. -/
  | modeRun (q : Requester) (t : Time)
  /-- R50: a write of SYS_MODE.DEV = 0x1. -/
  | modeConfig (q : Requester) (t : Time)
  /-- R495: a write of SYS_MODE.DEV = 0x2. -/
  | modeStandby (q : Requester) (t : Time)
  /-- R478: a write of SYS_MODE.DEV = 0x4. -/
  | modeCalibrate (q : Requester) (t : Time)
  /-- R527: a write of SYS_MODE.DEV = 0x5. -/
  | modeB50 (q : Requester) (t : Time)
  /-- R50: one lane period after draining began. -/
  | laneDrainEnd (n : Lane) (t : Time)
  /-- R51: a write of 1 to SYS_LANE_CTRL.RESTART_Ln. -/
  | restartLane (q : Requester) (t : Time) (n : Lane)
  /-- R52: a write of 1 to SYS_LANE_CTRL.STOP_Ln. -/
  | stopLane (q : Requester) (t : Time) (n : Lane)
  -- reference, time, PPS
  /-- R64: a 100 µs window ends; `err` is its frequency error in 0.01 ppm. -/
  | refWindow (t : Time) (err : Int)
  /-- R65: REFCLK shows no edge for 400 ns. -/
  | refLost (t : Time)
  /-- R65: the clocks are on crystal holdover. -/
  | holdoverChangeover (t : Time)
  /-- R67: slew-back completes. -/
  | refBack (t : Time)
  /-- R69: a write of 1 to TBASE_CFG.FORCE_HOLD. -/
  | forceHoldSet (q : Requester) (t : Time)
  /-- R69: FORCE_HOLD is cleared. -/
  | forceHoldClear (q : Requester) (t : Time)
  /-- R61: a write of TBASE_EPOCH_SUBS_LO. -/
  | epochSet (q : Requester) (t : Time) (lo : Word)
  /-- R62: a write of TBASE_ADJ. -/
  | tbaseAdj (q : Requester) (t : Time) (adj : Word)
  /-- R62: the remaining adjustment reaches 0. -/
  | adjDone (t : Time)
  /-- R63: device time wraps. -/
  | epochWrap
  /-- R71: a rising edge on PPS_IN, at the ball. -/
  | ppsInEdge (stamp : Time)
  /-- R70: no PPS_IN edge within 1 s + 100 µs. -/
  | ppsLost (t : Time)
  /-- R72: a whole second of mapped time plus the trim, at `t`. -/
  | ppsOutRise (t : Time)
  /-- R72: WIDTH_MS has elapsed. -/
  | ppsOutFall (t : Time)
  -- interval unit
  /-- R73, R76: an edge on source `src` (R75): the converter clock's count as the edge comes, and its phase and tap within it. -/
  | tdcEdge (src : Fin 32) (count : BitVec 57) (fine : BitVec 7) (rising : Bool)
  /-- R79: start + W passes in nearest mode for the oldest start of engine `m`. -/
  | ivWindowEnd (m : Fin 4) (t : Time)
  /-- R77: a read of TDC_QDATA_LO. -/
  | qdataPop (q : Requester) (t : Time := 0)
  /-- R82: a read of TDC_IVm_MEAN_LO. -/
  | ivResultRead (q : Requester) (m : Fin 4)
  /-- R59: a read of TBASE_TIME_LO (`pps = false`) or of TBASE_PPS_STAMP_LO. -/
  | timeSnapshotRead (q : Requester) (t : Time) (pps : Bool)
  /-- R85: the launch window of the lane's oldest waiting gate pulse ends. -/
  | launchWindowEnd (n : Lane) (t : Time)
  /-- R74: a delay line loses lock. -/
  | dlUnlock (t : Time)
  -- light
  /-- R109: a ball event makes the gate function false. -/
  | gateClosed (ball : GateBall) (t : Time)
  /-- R109: a ball event makes the gate function true. -/
  | gateOpen (ball : GateBall) (t : Time)
  /-- R106: the update instant of loop `i`; `samples` holds the six photocurrents in nA, every microsecond since the last update of any loop. -/
  | loopUpdate (idx : Fin 8) (samples : List (List Nat))
  /-- R106: loop `i` has stayed at LO or HI for SAT_MS. -/
  | loopSat (idx : Fin 8)
  /-- R103: the sense voltage of pump `m`. -/
  | overcurrent (m : Fin 4) (sense : Nat)
  /-- R103: a pump's setpoint ramp completes. -/
  | rampDone (m : Fin 4) (t : Time := 0)
  /-- R107: a drive-output check runs. -/
  | outputCheck (c : DriveCheck)
  /-- R108: a W1C write of SYNn_FAULT or LDRV_FAULT. -/
  | faultClear (q : Requester) (page : Nat) (bits : Word)
  -- receive front end
  /-- R127: ARC's decision before tick f + 1, with the codes of the four channels from the command instant on, for each shot launched in the
  frame (R126). -/
  | arcDecision (n : Lane) (shots : List (List (List Int)))
  /-- R130: the range change due at the lane's next tick is switched, 400 ns before it. -/
  | rangeChange (n : Lane) (t : Time)
  /-- R124: the DC servo of channel `c` comes to a current, in 0.1 µA; it goes no further than ±1.0 mA. -/
  | servoSat (n : Lane) (c : Fin 4) (current : Int)
  /-- R120: the Ln_PDB current, in µA. -/
  | pdbLimit (n : Lane) (ua : Nat)
  /-- R137: 200 ns after the last return of the frame ends, which has come by `t`. -/
  | duskInjection (n : Lane) (t : Time)
  /-- R152: a write of SHOTn_MF_DATA. -/
  | mfDataWrite (q : Requester) (n : Lane) (w : Word)
  /-- R164: the raw codes of one lane frame, four channels from the tick on. -/
  | traceFrame (n : Lane) (codes : List (List Int))
  -- slow time, zones, capture
  /-- R192: SLOW reads the next part of a block. -/
  | slowPart (n : Lane) (e : Sram := ⟨0, false⟩)
  /-- R200: a write of SLOWn_COEF_DATA. -/
  | coefWrite (q : Requester) (n : Lane) (w : Word)
  /-- R276: the last sample of segment `seg` is written. -/
  | segmentClose (seg : Nat)
  /-- R274: zone `z` re-arms. -/
  | rearm (z : Nat)
  /-- R277: the throttle's dwell ends. -/
  | throttle
  /-- R276: a write of CAPT_RELEASE. -/
  | captRelease (q : Requester) (segId : Word)
  /-- R276: segment `seg` has been held longer than CAPT_HOLD_TIMEOUT. -/
  | holdExpired (seg : Nat)
  /-- R276: the hold mask of closed segment `seg` is empty. -/
  | segmentFree (seg : Nat)
  /-- R281: the open EVENT record closes. -/
  | evtFlush (t : Time := 0)
  /-- R257: a write of ZONE_DATA. -/
  | zoneDataWrite (q : Requester) (w : Word)
  -- Raman
  /-- R219: a Raman tick's command instant, which has come by `t`. -/
  | ramanLaunch (t : Time)
  /-- R224: the samples of one Raman shot of lane `n`: anti-Stokes and Stokes positions from −PRE on, and the baselines. -/
  | ramanReturn (n : Lane) (x y baseX baseY : List Int) (err : Sram := ⟨0, false⟩)
  /-- R225: an averaging period's count of Raman ticks ends, at a tick that has come by `t`. -/
  | dtsPeriodEnd (n : Lane) (t : Time)
  /-- R228: read-out of the lane's ended period completes. -/
  | profile (n : Lane)
  -- auxiliary converter
  /-- R241: a write of AUX_SRCs. -/
  | auxSrcWrite (q : Requester) (t : Time) (s : Fin 4) (w : Word)
  /-- R242: the settle timer of source `s` expires. -/
  | settleEnd (s : Fin 4)
  /-- R249: a write of AUX_CFG with EN = 1. -/
  | auxEnable (q : Requester) (t : Time) (w : Word)
  /-- R249: a write of AUX_CFG with EN = 0. -/
  | auxDisable (q : Requester) (t : Time) (w : Word)
  /-- R247: a rising edge at AUX_START. -/
  | auxStartEdge (t : Time)
  /-- R247: a write of AUX_REQ. -/
  | auxReq (q : Requester) (t : Time) (w : Word)
  /-- R248: the converter is free and starts the next conversion. -/
  | auxConversionStart (t : Time)
  /-- R244: an integration window ends; the phase's voltages in units of 1 nV, and the sources at compliance. -/
  | integrationEnd (t : Time) (vin vref : Int) (comply : BitVec 4)
  /-- R245: the reversal dwell ends. -/
  | dwellEnd (t : Time)
  /-- R252: residue read-out ends. -/
  | result (t : Time)
  /-- R249: the scan interval ends. -/
  | scanGapEnd (t : Time)
  /-- R252: a read of AUX_RESr_VALUE. -/
  | auxResultRead (q : Requester) (r : Fin 8)
  -- zone-core instructions: parallel
  /-- R299. -/
  | mpy (n : Core) (p : ParOps)
  /-- R299. -/
  | mac (n : Core) (p : ParOps)
  /-- R299. -/
  | msu (n : Core) (p : ParOps)
  /-- R299. -/
  | move (n : Core) (p : ParOps)
  -- zone-core instructions: register format (R300)
  | add (n : Core) (d s t : Fin 8)
  | sub (n : Core) (d s t : Fin 8)
  | and (n : Core) (d s t : Fin 8)
  | or (n : Core) (d s t : Fin 8)
  | xor (n : Core) (d s t : Fin 8)
  | asr (n : Core) (d s : Fin 8) (sh : Fin 64)
  | lsr (n : Core) (d s : Fin 8) (sh : Fin 64)
  | lsl (n : Core) (d s : Fin 8) (sh : Fin 64)
  | addi (n : Core) (d s : Fin 8) (imm : BitVec 15)
  | cmp (n : Core) (s t : Fin 8)
  | cmpi (n : Core) (s : Fin 8) (imm : BitVec 15)
  | abs (n : Core) (d s : Fin 8)
  | neg (n : Core) (d s : Fin 8)
  | min (n : Core) (d s t : Fin 8)
  | max (n : Core) (d s t : Fin 8)
  /-- R292. -/
  | minx (n : Core) (d s t : Fin 8)
  | maxx (n : Core) (d s t : Fin 8)
  | minxu (n : Core) (d s t : Fin 8)
  | maxxu (n : Core) (d s t : Fin 8)
  | movi (n : Core) (d : Fin 8) (imm : BitVec 15)
  | orsh (n : Core) (d s : Fin 8) (imm : BitVec 15)
  | mov (n : Core) (d s : Fin 8)
  | extu (n : Core) (d s : Fin 8) (bit width : Fin 64)
  | exts (n : Core) (d s : Fin 8) (bit width : Fin 64)
  | mova (n : Core) (d : Fin 8) (a : Fin 2) (sh : Fin 64)
  | movta (n : Core) (a : Fin 2) (s : Fin 8)
  | adda (n : Core) (a : Fin 2) (s : Fin 8)
  | clra (n : Core) (a : Fin 2)
  | sha (n : Core) (a : Fin 2) (sh : BitVec 6)
  | movp (n : Core) (d s : Fin 8)
  | movb (n : Core) (d s : Fin 8)
  | movl (n : Core) (d s : Fin 8)
  | ldpi (n : Core) (d : Fin 8) (imm : BitVec 12)
  | ldbi (n : Core) (d : Fin 8) (imm : BitVec 12)
  | ldli (n : Core) (d : Fin 8) (imm : BitVec 12)
  /-- R288. -/
  | addp (n : Core) (d : Fin 8) (imm : BitVec 12)
  | rdp (n : Core) (d s : Fin 8)
  | rdb (n : Core) (d s : Fin 8)
  | rdl (n : Core) (d s : Fin 8)
  | ld (n : Core) (d s : Fin 8) (u : Upd) (e : Sram := ⟨0, false⟩)
  | st (n : Core) (d s : Fin 8) (u : Upd)
  | ldo (n : Core) (d s : Fin 8) (off : BitVec 12)
  | sto (n : Core) (d s : Fin 8) (off : BitVec 12)
  | lda (n : Core) (a : Fin 2) (s : Fin 8) (u : Upd)
  | sta (n : Core) (a : Fin 2) (s : Fin 8) (u : Upd)
  | ldd (n : Core) (d : Fin 8) (y : Bool) (addr : BitVec 12)
  | std (n : Core) (d : Fin 8) (y : Bool) (addr : BitVec 12)
  /-- R306. -/
  | inp (n : Core) (d : Fin 8) (port : BitVec 8)
  | out (n : Core) (d : Fin 8) (port : BitVec 8)
  | movs (n : Core) (d : Fin 8) (x : Fin 11)
  | movsr (n : Core) (d : Fin 8) (x : Fin 11)
  -- zone-core instructions: control format (R301)
  | nop (n : Core)
  | br (n : Core) (c : Cond) (addr : BitVec 13)
  | call (n : Core) (addr : BitVec 13)
  | ret (n : Core) (c : Cond)
  | jmpr (n : Core) (s : Fin 8)
  | loopi (n : Core) (count : BitVec 13) (le : BitVec 13)
  | loopr (n : Core) (s : Fin 8) (le : BitVec 13)
  | brklp (n : Core)
  | rti (n : Core)
  | wait (n : Core)
  | halt (n : Core)
  | setie (n : Core) (v : Bool)
  | clrv (n : Core)
  -- zone-core events
  /-- R302. -/
  | zcInterrupt (n : Core)
  /-- R313. -/
  | bkptHit (n : Core)
  /-- R306: a write to port EVQ_POP. -/
  | evqPop (n : Core)
  /-- R309: a write to port SEG_GO. -/
  | segGo (n : Core) (w : Word)
  /-- R309: the copy of core `n` ends; `ue` if a source word was uncorrectable (R364). -/
  | segCopyDone (n : Core) (ue : Bool)
  /-- R310: a write to port SEG_REL. -/
  | segRel (n : Core) (segId : Word)
  /-- R311: a write to port VD_POST. -/
  | vdPost (n : Core) (t : Time)
  /-- R312: a write to port TMR_LO. -/
  | tmrCommit (n : Core) (t : Time) (lo : Word)
  /-- R312: device time reaches the compare value. -/
  | zcTimer (n : Core) (t : Time)
  /-- R313: a write of ZCn_CTRL.START. -/
  | zcStart (q : Requester) (n : Core)
  /-- R313: a write of ZCn_CTRL.HALT_REQ. -/
  | haltReq (q : Requester) (n : Core)
  /-- R313: a write of ZCn_CTRL.STEP. -/
  | zcStep (q : Requester) (n : Core)
  /-- R313: a write of ZCn_CTRL.CLR_FAULT. -/
  | clrFault (q : Requester) (n : Core)
  /-- R315: a write of ZCn_MEM_DATA_LO. -/
  | zcMemWrite (q : Requester) (n : Core) (w : Word)
  -- codec
  /-- R335: engine `e` takes the oldest ready record. -/
  | cmpTake (e : Fin 6)
  /-- R335: the context of engine `e` is loaded; `ctxUe` if a word of it was uncorrectable (R332). -/
  | cmpRestoreDone (e : Fin 6) (ctxUe : Bool)
  /-- R320: engine `e` has coded its record. -/
  | cmpCodeDone (e : Fin 6) (err : Sram := ⟨0, false⟩)
  /-- R335: engine `e` has saved its context. -/
  | cmpSaveDone (e : Fin 6)
  /-- R337: a link becomes available to the paused stream of slot `c`. -/
  | chainLinkAvailable (c : Nat)
  /-- R338: no link within CMP_CHAIN_TIMEOUT for the stream of slot `c`. -/
  | abandoned (c : Nat)
  /-- R337: a record of the paused stream of slot `c` becomes ready. -/
  | pauseDrop (c : Nat)
  /-- R332: a write of CMP_CTXc_CTRL.RESET. -/
  | ctxReset (q : Requester) (w : Word)
  /-- R331: a write of CMP_CTXc_CFG. -/
  | ctxCfgWrite (q : Requester) (w : Word)
  /-- R339: a write of DCMP_Ee_CTRL.GO. -/
  | dcmpGo (q : Requester) (e : Fin 2)
  /-- R340: engine `e` finishes a record; `src` holds the source bytes from its next unread byte on. -/
  | dcmpRecord (e : Fin 2) (src : List Byte)
  /-- R342: a write of DCMP_Ee_CTRL.ABORT. -/
  | dcmpAbort (q : Requester) (e : Fin 2)
  /-- R342: a write of DCMP_Ee_CTRL.CLEAR. -/
  | dcmpClear (q : Requester) (e : Fin 2)
  -- record memory
  /-- R350: a write of MEMCn_CTRL.TRAIN. -/
  | memcTrain (q : Requester) (ch : Fin 2)
  /-- R348: training ends, with the eye widths of the nine byte lanes and the step that failed, if one did. -/
  | trainDone (ch : Fin 2) (eyes : List (Nat × Nat)) (failStep : Nat) (failLane : Nat)
  /-- R349: the zero fill completes. -/
  | ready (ch : Fin 2)
  /-- R353: a write of REGION_BASE (`size = false`) or REGION_SIZE. -/
  | regionWrite (q : Requester) (size : Bool) (w : Word)
  /-- R355: a request of 64 bytes enters the queue of its channel; `data` are the bytes of a write, fewer than 16 of a
  code word making it a partial write (R365). -/
  | memcRequest (t : Time) (rd : MemReader) (write : Bool) (ra : Nat) (data : List Byte)
  /-- R355: the channel issues its next command. -/
  | memcIssue (ch : Fin 2) (t : Time)
  /-- R355: a request older than AGE_LIMIT is promoted. -/
  | agePromote (ch : Fin 2) (t : Time)
  /-- R361, R362: the burst of the channel's oldest issued read returns, with its errors. -/
  | readData (ch : Fin 2) (errs : List BurstError)
  /-- R359: tREFI of a rank elapses. -/
  | refreshDue (ch : Fin 2) (rank : Fin 2)
  /-- R366: patrol scrub schedules its next read. -/
  | scrubRead (ch : Fin 2) (t : Time)
  /-- R366: a waiting scrub read becomes urgent. -/
  | scrubUrgent (ch : Fin 2) (t : Time)
  /-- R350: ZQ short calibration. -/
  | zqShort (ch : Fin 2)
  -- subscribers
  /-- R389. -/
  | hello (t : Time) (c : Ctl)
  /-- R385. -/
  | subscribe (t : Time) (c : Ctl) (b : SubBody)
  /-- R383. -/
  | renew (t : Time) (c : Ctl) (leaseS : Nat)
  /-- R382. -/
  | unsubscribe (t : Time) (c : Ctl)
  /-- R389. -/
  | status (t : Time) (c : Ctl)
  /-- R383: the 10 ms scan finds entry `i` expired. -/
  | leaseExpiry (t : Time) (idx : Nat)
  /-- R382: the records of CLOSING entry `i` are complete. -/
  | entryFree (idx : Nat)
  /-- R380: the join holdoff of stream `sid` ends. -/
  | joinHoldoffEnd (t : Time) (sid : Nat)
  /-- R393: the next record of the flow of entry `i` is sent. -/
  | data (idx : Nat) (e : Sram := ⟨0, false⟩)
  -- Ethernet and PTP
  /-- R399: port `p` sends its next frame. -/
  | ethTxFrame (p : Fin 2) (t : Time)
  /-- R397: port `p` receives a frame. -/
  | ethRxFrame (p : Fin 2) (t : Time) (f : RxFrame)
  /-- R395. -/
  | linkUp (p : Fin 2)
  /-- R398. -/
  | linkDown (p : Fin 2)
  /-- R396: an address of the IPv4 (`v6 = false`) or IPv6 family is bound or lost. -/
  | addrBound (p : Fin 2) (v6 : Bool) (bound : Bool)
  /-- R404: a write to an ETH register at `off`. -/
  | ethCfgWrite (q : Requester) (p : Fin 2) (off : Nat) (w : Word)
  /-- R402: an event message is stamped; the servo's offset from master and path delay in 2⁻⁸ ns. -/
  | ptpEventMessage (m : PtpMsg) (stamp : Time) (offset : Int) (delay : Int)
  /-- R401: the clock sends a message. -/
  | ptpMessageSend (m : PtpMsg) (t : Time)
  /-- R401. -/
  | announceTimeout
  -- PCIe and DMA
  /-- R410: a BAR2 access of function 0 at window offset `x`. -/
  | bar2Access (write : Bool) (x : Nat) (len : Nat) (bytes : List Byte)
  /-- R411: a function-level reset of `f`, or (`bme`) a clear of its Bus Master Enable. -/
  | flr (f : Func) (bme : Bool)
  /-- R411. -/
  | pcieReset (k : PcieResetKind)
  /-- R414. -/
  | dmaGo (q : Requester) (ch : Chan)
  /-- R431. -/
  | dmaAbort (q : Requester) (ch : Chan)
  /-- R431: the burst in progress ends. -/
  | abortDone (ch : Chan)
  /-- R422. -/
  | db (q : Requester) (ch : Chan)
  /-- R417. -/
  | rpWrite (q : Requester) (ch : Chan) (w : Word)
  /-- R415: a write of CFG, BASE, WB, MOD or COPY_RA at `off`. -/
  | dmaCfgWrite (q : Requester) (ch : Chan) (off : Nat) (w : Word)
  /-- R416: the channel writes bytes of its next ready record, as far as there is space. -/
  | dmaRecordWrite (ch : Chan) (t : Time) (e : Sram := ⟨0, false⟩)
  /-- R424: a descriptor read completes. -/
  | descFetch (ch : Chan) (c : Completion)
  /-- R423: the current COPY descriptor's bytes move; `c` carries the host bytes of DIR = 1. -/
  | copyTransfer (ch : Chan) (c : Completion)
  /-- R430: the oldest held completion reaches TIME. -/
  | modTimeout (ch : Chan)
  /-- R432: a held item of function `f` reaches the wake age. -/
  | pme (f : Func)
  /-- R432: function `f` returns to D0. -/
  | d0Return (f : Func)
  /-- R433: the link enters L2 by PME_Turn_Off. -/
  | l2Entry
  /-- R427: the 50 µs poll, with the descriptor's 16 bytes. -/
  | b50DescPoll (c : Completion)
  -- interrupt controller and stewards
  /-- R446: a claim by target `tg`. -/
  | icuClaim (tg : Fin 66)
  /-- R447: a completion written by target `tg`, or (`none`) to the page of `page` by another requester. -/
  | icuComplete (tg : Option (Fin 66)) (page : Fin 66) (value : BitVec 11)
  /-- R439: a write of ICU_SW_SET. -/
  | icuSwSet (q : Requester) (w : Word)
  /-- R440: a write of ICUTt_SW_SET. -/
  | privSwSet (q : Requester) (tg : Fin 66) (w : Word)
  /-- R449: a write of ICU_SRC_CFG. -/
  | srcCfgWrite (q : Requester) (w : Word)
  /-- R451: shared source `s` has been pending at an offline target for ICU_STRAND_TIME. -/
  | stranded (s : Fin 1024)
  /-- R457: the timer compare of a steward is reached. -/
  | stewardTimer (c : Fin 2) (t : Time)
  /-- R459: a write of ICUTt_WDT_SERVICE. -/
  | wdtService (q : Requester) (c : Fin 2) (t : Time)
  /-- R459: half the watchdog timeout passes. -/
  | wdtWarning (c : Fin 2)
  /-- R459: the watchdog expires. -/
  | wdt (c : Fin 2)
  /-- R458: a steward takes a machine check. -/
  | mcheck (c : Fin 2)
  /-- R458: a restarted steward core resumes. -/
  | stewardRestartDone (c : Fin 2)
  /-- R455: a 1 s window ends, with each core's load in 0.1 %. -/
  | loadWindow (load0 load1 : Nat)
  /-- R460: a write of MBOX_DOORBELL.GO; `none` is the SMBus mailbox. -/
  | mboxGo (f : Option Func) (t : Time)
  /-- R460: the steward writes the reply. -/
  | mboxDone (f : Option Func)
  /-- R462. -/
  | getInfo (f : Option Func)
  /-- R316: load the image at `ra` into the cores of `mask`. -/
  | zcLoad (f : Option Func) (mask : BitVec 64) (ra : Nat)
  /-- R467. -/
  | fwChunk (f : Option Func) (off : Nat) (bytes : List Byte)
  /-- R467. -/
  | fwInstall (f : Option Func) (fromRa : Bool) (ra len : Nat)
  /-- R467. -/
  | fwSelect (f : Option Func) (slot : Fin 2)
  /-- R467. -/
  | fwCommitSvn (f : Option Func) (svn : Nat)
  /-- R466: the resident section reads the whole code again from the flash slot it runs. -/
  | codeCopy (code : List Byte)
  -- calibration
  /-- R476. -/
  | calAdcIlv (f : Option Func) (lanes : Fin 4) (path : Nat)
  /-- R476. -/
  | calIq (f : Option Func) (lanes : Fin 4) (path : Nat)
  /-- R479. -/
  | calRange (f : Option Func) (lanes : Fin 4) (path : Nat) (t : Time)
  /-- R476. -/
  | calTdc (f : Option Func) (path : Nat)
  /-- R476. -/
  | calAux (f : Option Func) (path : Nat) (r : Nat)
  /-- R484. -/
  | calDtsBath (f : Option Func) (step : Nat) (lane : Lane) (j : Fin 2) (path : Nat)
  /-- R479: run 2 begins, 90 ms after run 1. -/
  | calRun2Start (t : Time)
  /-- R477: the runs complete, with their results and the quality figure the runs give (R485). -/
  | calDone (pairs : List CalPair) (fig : CalFigures)
  /-- R480: the dusk window or sacrificed frame of lane `n` integrates one range, up to its end, which has come by `t`. -/
  | squeezeWindow (n : Lane) (t : Time)
  /-- R482. -/
  | squeezeTimeout
  /-- R482: a write of ALM_CAL_CTRL.ABORT. -/
  | calAbort (q : Requester)
  /-- R483: a background cycle ends, with the items it measured. -/
  | bgCheck (began : Time) (t : Time) (pairs : List CalPair) (fig : CalFigures)
  /-- R482: a write of ALM_USER. -/
  | almUserWrite (q : Requester) (w : Word)
  -- twin
  /-- R496: PEER_ACT_IN has been low for 20 µs. -/
  | claimAssert (t : Time)
  /-- R496: the 20 µs hold ends. -/
  | claimHoldEnd (t : Time)
  /-- R497: side B sees PEER_ACT_IN high during its hold. -/
  | backoff (t : Time)
  /-- R498: no claim within TWIN_CLAIM_WAIT. -/
  | takeoverFail (t : Time)
  /-- R498: PEER_ACT_IN rises after a completed claim. -/
  | peerClaim (t : Time)
  /-- R499. -/
  | heartbeatSend (t : Time)
  /-- R499: a heartbeat arrives, or (`none`) is not received or fails its check. -/
  | heartbeatReceive (t : Time) (hb : Option Heartbeat)
  /-- R499: a write of TWIN_ALIVE. -/
  | twinAlive (q : Requester) (t : Time)
  /-- R500. -/
  | peerLost (t : Time)
  /-- R500. -/
  | selfDemote (t : Time)
  /-- R508: a trigger of R501 starts a takeover (0 heartbeat, 1 relinquish, 2 command). -/
  | takeoverTrigger (cause : Fin 3) (t : Time)
  /-- R501: a failed takeover is retried. -/
  | takeoverRetry (t : Time)
  /-- R510: one announcement of the adopted addresses. -/
  | addrAnnounce (t : Time)
  /-- R502. -/
  | mirrorSend (t : Time) (item : MirrorItem)
  /-- R502. -/
  | mirrorReceive (t : Time) (seq : Nat) (item : MirrorItem)
  /-- R503: message `seq` is unacknowledged after 1 ms. -/
  | mirrorResend (t : Time) (seq : Nat)
  /-- R503. -/
  | outOfStep
  /-- R513. -/
  | twinLinkDown
  /-- R511. -/
  | twinStatusOp (f : Option Func)
  /-- R508. -/
  | handover (f : Option Func) (t : Time)
  /-- R501. -/
  | takeover (f : Option Func) (t : Time)
  /-- R511. -/
  | resync (f : Option Func) (t : Time)
  /-- R505: test `i` ends a run; `chain` names the chain of test 0. -/
  | nwTest (idx : Fin 6) (pass : Bool) (chain : Fin 8)
  /-- R506. -/
  | healthWord (t : Time)
  -- B50
  /-- R534. -/
  | b50Run (q : Requester) (t : Time)
  /-- R534. -/
  | b50Stop (q : Requester) (t : Time)
  /-- R540. -/
  | b50SoftReset (q : Requester)
  /-- R536: the L0_XI codes of the oldest B50 shot, from its command instant on. -/
  | b50Shot (codes : List Int)
  /-- R538. -/
  | b50DmaEn (q : Requester)
  /-- R538. -/
  | b50DmaAbort (q : Requester)
  /-- R427: the doorbell, with the descriptor the device then fetches. -/
  | b50Doorbell (q : Requester) (c : Completion)
  /-- R539: a W1C write of B50_IRQ_STATUS; `sets` are the bits hardware sets in the same clock. -/
  | b50IrqClear (q : Requester) (bits sets : Word)
  -- register pages
  /-- R448: a W1C write of PAGE_IRQ_STATUS; `sets` are the bits hardware sets in the same clock (R5). -/
  | irqStatusClear (q : Requester) (page : Nat) (bits sets : Word)
  /-- R518: a read of an RC register; `missed` counts the events not yet in its sample. -/
  | rcRead (q : Requester) (page off : Nat) (missed : Nat)
  /-- R548: a write of the HI word of a 40-bit register. -/
  | pairHiWrite (q : Requester) (page off : Nat) (w : Word)
  /-- R548: a write of the LO word of a 40-bit register. -/
  | pairLoWrite (q : Requester) (t : Time) (page off : Nat) (w : Word)
  /-- R548: a read of the LO word of a register pair. -/
  | pairLoRead (q : Requester) (page off : Nat)
  /-- R549: an access to a window word with no row of its own: a write of `some w`, or a read. -/
  | windowAccess (q : Requester) (page off : Nat) (w : Option Word)
  /-- R546: a write of a register with no row of its own. -/
  | registerWrite (q : Requester) (t : Time) (page off : Nat) (w : Word)
  /-- R552. -/
  | pageSoftReset (q : Requester) (page : Nat)
  /-- R551. -/
  | sysSoftReset (q : Requester)
  -- resets, supplies, temperature
  /-- R560. -/
  | por (s : Straps)
  /-- R560. -/
  | resetN (s : Straps)
  /-- R567. -/
  | startUp (env : StartEnv)
  /-- R561: a rail is below its reset level. -/
  | supplyReset (r : Rail)
  /-- R562: a rail falls below warning, to `mv`. -/
  | dip (r : Rail) (mv : Nat) (t : Time)
  /-- R562: rail `r` has been back above warning for 200 ns. -/
  | recover (r : Rail) (t : Time)
  /-- R563: every rail above warning for 100 µs. -/
  | lightHoldEnd (t : Time)
  /-- R571: the readings of the four sensors in mK, before the corrections of R570. -/
  | thermWarn (temps : List Int)
  /-- R571. -/
  | thermTrip (temps : List Int)
  -- rows added at the table's end
  /-- R298: core `n` issues a word whose encoding is reserved. -/
  | illegalInstruction (n : Core) (w : Word)
  /-- R471: pin `p` shows an edge. -/
  | gpioEdge (p : Fin 16) (rising : Bool)
  /-- R439. -/
  | uartReceive (b : Byte)
  /-- R439. -/
  | twinLinkCommand
  /-- R495. -/
  | twinLinkUp
  /-- R569: link training completes or changes rate or width. -/
  | pcieLinkUp (speed : Nat) (width : Nat)
  /-- R432. -/
  | perstNRelease
  /-- R432. -/
  | d3hotEntry (f : Func)
  /-- R74. -/
  | dlLock (t : Time)
  /-- R571. -/
  | thermHoldEnd (temps : List Int)
  /-- R425: a host read of channel `ch` gets no completion. -/
  | completionTimeout (ch : Chan)
  /-- R412: vector `e` of function `f` is unmasked. -/
  | msixUnmask (f : Func) (e : Fin 64)
  /-- R253. -/
  | auxRecordFlush
  deriving DecidableEq, Repr

end Sys2Proof
end

