-- ==== Sys2Proof/Decode.lean ====
section
/-!
DEFINITION. Words: the command table gives no row any bits, so no word spells a command of the block
(`decodeTableWord`). The one encoding that the spec gives is that of zone-core instructions (R298 to R301): `zcDecode`
reads a program-memory word, `zcEncode` writes one.
-/

namespace Sys2Proof

/-- The command that a word of the command table spells: no row of the table has bits. -/
def decodeTableWord (_nbits _w : Nat) : Option Instr := none

/-! ### zone-core words -/

/-- Bits `lo` to `lo + n − 1` of a word. -/
def zcBits (w lo n : Nat) : Nat := w / 2 ^ lo % 2 ^ n

/-- A data register or pointer number. -/
def zcR (w lo : Nat) : Fin 8 := Fin.ofNat 8 (zcBits w lo 3)

/-- The pointer update codes (R299). -/
def zcUpd (v : Nat) : Upd := match v with | 0 => .none | 1 => .inc | 2 => .dec | _ => .inc2
def updCode (u : Upd) : Nat := match u with | .none => 0 | .inc => 1 | .dec => 2 | .inc2 => 3

/-- The field codes (R290); 3 is reserved. -/
def zcField (v : Nat) : Option FieldSel := match v with | 0 => some .h | 1 => some .m | 2 => some .l | _ => none
def fieldCode (f : FieldSel) : Nat := match f with | .h => 0 | .m => 1 | .l => 2

/-- The sign modes (R290); 3 is reserved. -/
def zcSign (v : Nat) : Option SignMode := match v with | 0 => some .ss | 1 => some .uu | 2 => some .su | _ => none
def signCode (m : SignMode) : Nat := match m with | .ss => 0 | .uu => 1 | .su => 2

/-- The condition codes (R301); 13 to 15 are reserved. -/
def zcCond (v : Nat) : Option Cond :=
  match v with
  | 0 => some .always | 1 => some .eq | 2 => some .ne | 3 => some .lt | 4 => some .ge | 5 => some .gt | 6 => some .le
  | 7 => some .lo | 8 => some .hs | 9 => some .vs | 10 => some .avs | 11 => some .evq | 12 => some .segbusy | _ => none
def condCode (c : Cond) : Nat :=
  match c with
  | .always => 0 | .eq => 1 | .ne => 2 | .lt => 3 | .ge => 4 | .gt => 5 | .le => 6
  | .lo => 7 | .hs => 8 | .vs => 9 | .avs => 10 | .evq => 11 | .segbusy => 12

/-- The fields of a parallel word (R299), its operand fields given. -/
def zcPar (w : Nat) (fa fb : FieldSel) (sgn : SignMode) : ParOps := {
  acc := Fin.ofNat 2 (zcBits w 26 1), sa := zcR w 23, fa := fa, sb := zcR w 18, fb := fb, sgn := sgn
  xe := zcBits w 13 1 == 1, xp := Fin.ofNat 4 (zcBits w 11 2), xu := zcUpd (zcBits w 9 2), xd := Fin.ofNat 4 (zcBits w 7 2)
  ye := zcBits w 6 1 == 1, yp := Fin.ofNat 4 (zcBits w 4 2), yu := zcUpd (zcBits w 2 2), yd := Fin.ofNat 4 (zcBits w 0 2) }

/-- The parallel format (R299). MOVE uses no operand field, so no code of one is refused there (R298). -/
def zcDecodePar (n : Core) (w : Nat) : Option Instr :=
  let fa := zcField (zcBits w 21 2)
  let fb := zcField (zcBits w 16 2)
  let sg := zcSign (zcBits w 14 2)
  match zcBits w 27 3 with
  | 3 => some (.move n (zcPar w (fa.getD .h) (fb.getD .h) (sg.getD .ss)))
  | op =>
    match fa, fb, sg with
    | some a, some b, some g =>
      match op with
      | 0 => some (.mpy n (zcPar w a b g))
      | 1 => some (.mac n (zcPar w a b g))
      | 2 => some (.msu n (zcPar w a b g))
      | _ => none
    | _, _, _ => none

/-- The register format (R300). -/
def zcDecodeReg (n : Core) (w : Nat) : Option Instr :=
  let d := zcR w 21
  let s := zcR w 18
  let t := zcR w 15
  let imm : BitVec 15 := BitVec.ofNat 15 (zcBits w 0 15)
  let i12 : BitVec 12 := BitVec.ofNat 12 (zcBits w 0 12)
  let sh : Fin 64 := Fin.ofNat 64 (zcBits w 0 6)
  let a : Fin 2 := Fin.ofNat 2 (zcBits w 21 1)
  let u := zcUpd (zcBits w 0 2)
  match zcBits w 24 6 with
  | 0x00 => some (.add n d s t)
  | 0x01 => some (.sub n d s t)
  | 0x02 => some (.and n d s t)
  | 0x03 => some (.or n d s t)
  | 0x04 => some (.xor n d s t)
  | 0x05 => some (.asr n d s sh)
  | 0x06 => some (.lsr n d s sh)
  | 0x07 => some (.lsl n d s sh)
  | 0x08 => some (.addi n d s imm)
  | 0x09 => some (.cmp n s t)
  | 0x0A => some (.cmpi n s imm)
  | 0x0B => some (.abs n d s)
  | 0x0C => some (.neg n d s)
  | 0x0D => some (.min n d s t)
  | 0x0E => some (.max n d s t)
  | 0x0F => some (.minx n d s t)
  | 0x10 => some (.maxx n d s t)
  | 0x11 => some (.minxu n d s t)
  | 0x12 => some (.maxxu n d s t)
  | 0x13 => some (.movi n d imm)
  | 0x14 => some (.orsh n d s imm)
  | 0x15 => some (.mov n d s)
  | 0x16 => some (.extu n d s sh (Fin.ofNat 64 (zcBits w 6 6)))
  | 0x17 => some (.exts n d s sh (Fin.ofNat 64 (zcBits w 6 6)))
  | 0x18 => some (.mova n d (Fin.ofNat 2 (zcBits w 18 1)) sh)
  | 0x19 => some (.movta n a s)
  | 0x1A => some (.adda n a s)
  | 0x1B => some (.clra n a)
  | 0x1C => some (.sha n a (BitVec.ofNat 6 (zcBits w 0 6)))
  | 0x20 => some (.movp n d s)
  | 0x21 => some (.movb n d s)
  | 0x22 => some (.movl n d s)
  | 0x23 => some (.ldpi n d i12)
  | 0x24 => some (.ldbi n d i12)
  | 0x25 => some (.ldli n d i12)
  | 0x26 => some (.addp n d i12)
  | 0x27 => some (.rdp n d s)
  | 0x28 => some (.rdb n d s)
  | 0x29 => some (.rdl n d s)
  | 0x30 => some (.ld n d s u ⟨0, false⟩)
  | 0x31 => some (.ldo n d s i12)
  | 0x32 => some (.st n d s u)
  | 0x33 => some (.sto n d s i12)
  | 0x34 => some (.lda n a s u)
  | 0x35 => some (.sta n a s u)
  | 0x36 => some (.ldd n d (zcBits w 12 1 == 1) i12)
  | 0x37 => some (.std n d (zcBits w 12 1 == 1) i12)
  | 0x38 => some (.inp n d (BitVec.ofNat 8 (zcBits w 0 8)))
  | 0x39 => some (.out n d (BitVec.ofNat 8 (zcBits w 0 8)))
  | 0x3A => if h : zcBits w 0 5 < 11 then some (.movs n d ⟨zcBits w 0 5, h⟩) else none
  | 0x3B => if h : zcBits w 0 5 < 11 then some (.movsr n d ⟨zcBits w 0 5, h⟩) else none
  | _ => none

/-- The control format (R301). -/
def zcDecodeCtl (n : Core) (w : Nat) : Option Instr :=
  let addr : BitVec 13 := BitVec.ofNat 13 (zcBits w 0 13)
  let cond := zcCond (zcBits w 22 4)
  match zcBits w 26 4 with
  | 0x0 => some (.nop n)
  | 0x1 => cond.map fun c => .br n c addr
  | 0x2 => some (.call n addr)
  | 0x3 => cond.map fun c => .ret n c
  | 0x4 => some (.jmpr n (zcR w 18))
  | 0x5 => some (.loopi n (BitVec.ofNat 13 (zcBits w 13 13)) addr)
  | 0x6 => some (.loopr n (zcR w 18) addr)
  | 0x7 => some (.brklp n)
  | 0x8 => some (.rti n)
  | 0x9 => some (.wait n)
  | 0xA => some (.halt n)
  | 0xB => some (.setie n (zcBits w 0 1 == 1))
  | 0xC => some (.clrv n)
  | _ => none

/-- The instruction that core `n` reads from a program-memory word; none where the word is reserved (R298). [DESIGN CHOICE: log 54] -/
def zcDecode (n : Core) (w : Nat) : Option Instr :=
  match zcBits w 30 2 with
  | 0 => zcDecodeCtl n w
  | 2 => zcDecodeReg n w
  | 3 => zcDecodePar n w
  | _ => none

/-- A register-format word. -/
def zcReg (op d s t imm : Nat) : Nat := 2147483648 + op * 16777216 + d * 2097152 + s * 262144 + t * 32768 + imm

/-- A control-format word: its operation, bits [25:13] and [12:0]. -/
def zcCtl (op mid low : Nat) : Nat := op * 67108864 + mid * 8192 + low

/-- A parallel word. -/
def zcParWord (op : Nat) (p : ParOps) : Nat :=
  3221225472 + op * 134217728 + p.acc.val * 67108864 + p.sa.val * 8388608 + fieldCode p.fa * 2097152 +
  p.sb.val * 262144 + fieldCode p.fb * 65536 + signCode p.sgn * 16384 +
  (if p.xe then 8192 else 0) + p.xp.val * 2048 + updCode p.xu * 512 + p.xd.val * 128 +
  (if p.ye then 64 else 0) + p.yp.val * 16 + updCode p.yu * 4 + p.yd.val

/-- The core and the word of a zone-core instruction; none for any other command. -/
def zcEncode (i : Instr) : Option (Core × Nat) :=
  match i with
  | .mpy n p => some (n, zcParWord 0 p)
  | .mac n p => some (n, zcParWord 1 p)
  | .msu n p => some (n, zcParWord 2 p)
  | .move n p => some (n, zcParWord 3 p)
  | .add n d s t => some (n, zcReg 0x00 d s t 0)
  | .sub n d s t => some (n, zcReg 0x01 d s t 0)
  | .and n d s t => some (n, zcReg 0x02 d s t 0)
  | .or n d s t => some (n, zcReg 0x03 d s t 0)
  | .xor n d s t => some (n, zcReg 0x04 d s t 0)
  | .asr n d s sh => some (n, zcReg 0x05 d s 0 sh)
  | .lsr n d s sh => some (n, zcReg 0x06 d s 0 sh)
  | .lsl n d s sh => some (n, zcReg 0x07 d s 0 sh)
  | .addi n d s imm => some (n, zcReg 0x08 d s 0 imm.toNat)
  | .cmp n s t => some (n, zcReg 0x09 0 s t 0)
  | .cmpi n s imm => some (n, zcReg 0x0A 0 s 0 imm.toNat)
  | .abs n d s => some (n, zcReg 0x0B d s 0 0)
  | .neg n d s => some (n, zcReg 0x0C d s 0 0)
  | .min n d s t => some (n, zcReg 0x0D d s t 0)
  | .max n d s t => some (n, zcReg 0x0E d s t 0)
  | .minx n d s t => some (n, zcReg 0x0F d s t 0)
  | .maxx n d s t => some (n, zcReg 0x10 d s t 0)
  | .minxu n d s t => some (n, zcReg 0x11 d s t 0)
  | .maxxu n d s t => some (n, zcReg 0x12 d s t 0)
  | .movi n d imm => some (n, zcReg 0x13 d 0 0 imm.toNat)
  | .orsh n d s imm => some (n, zcReg 0x14 d s 0 imm.toNat)
  | .mov n d s => some (n, zcReg 0x15 d s 0 0)
  | .extu n d s b w => some (n, zcReg 0x16 d s 0 (b.val + 64 * w.val))
  | .exts n d s b w => some (n, zcReg 0x17 d s 0 (b.val + 64 * w.val))
  | .mova n d a sh => some (n, zcReg 0x18 d a 0 sh)
  | .movta n a s => some (n, zcReg 0x19 a s 0 0)
  | .adda n a s => some (n, zcReg 0x1A a s 0 0)
  | .clra n a => some (n, zcReg 0x1B a 0 0 0)
  | .sha n a sh => some (n, zcReg 0x1C a 0 0 sh.toNat)
  | .movp n d s => some (n, zcReg 0x20 d s 0 0)
  | .movb n d s => some (n, zcReg 0x21 d s 0 0)
  | .movl n d s => some (n, zcReg 0x22 d s 0 0)
  | .ldpi n d imm => some (n, zcReg 0x23 d 0 0 imm.toNat)
  | .ldbi n d imm => some (n, zcReg 0x24 d 0 0 imm.toNat)
  | .ldli n d imm => some (n, zcReg 0x25 d 0 0 imm.toNat)
  | .addp n d imm => some (n, zcReg 0x26 d 0 0 imm.toNat)
  | .rdp n d s => some (n, zcReg 0x27 d s 0 0)
  | .rdb n d s => some (n, zcReg 0x28 d s 0 0)
  | .rdl n d s => some (n, zcReg 0x29 d s 0 0)
  | .ld n d s u _ => some (n, zcReg 0x30 d s 0 (updCode u))
  | .ldo n d s off => some (n, zcReg 0x31 d s 0 off.toNat)
  | .st n d s u => some (n, zcReg 0x32 d s 0 (updCode u))
  | .sto n d s off => some (n, zcReg 0x33 d s 0 off.toNat)
  | .lda n a s u => some (n, zcReg 0x34 a s 0 (updCode u))
  | .sta n a s u => some (n, zcReg 0x35 a s 0 (updCode u))
  | .ldd n d y addr => some (n, zcReg 0x36 d 0 0 ((if y then 4096 else 0) + addr.toNat))
  | .std n d y addr => some (n, zcReg 0x37 d 0 0 ((if y then 4096 else 0) + addr.toNat))
  | .inp n d port => some (n, zcReg 0x38 d 0 0 port.toNat)
  | .out n d port => some (n, zcReg 0x39 d 0 0 port.toNat)
  | .movs n d x => some (n, zcReg 0x3A d 0 0 x)
  | .movsr n d x => some (n, zcReg 0x3B d 0 0 x)
  | .nop n => some (n, zcCtl 0x0 0 0)
  | .br n c addr => some (n, zcCtl 0x1 (condCode c * 512) addr.toNat)
  | .call n addr => some (n, zcCtl 0x2 0 addr.toNat)
  | .ret n c => some (n, zcCtl 0x3 (condCode c * 512) 0)
  | .jmpr n s => some (n, zcCtl 0x4 (s.val * 32) 0)
  | .loopi n count le => some (n, zcCtl 0x5 count.toNat le.toNat)
  | .loopr n s le => some (n, zcCtl 0x6 (s.val * 32) le.toNat)
  | .brklp n => some (n, zcCtl 0x7 0 0)
  | .rti n => some (n, zcCtl 0x8 0 0)
  | .wait n => some (n, zcCtl 0x9 0 0)
  | .halt n => some (n, zcCtl 0xA 0 0)
  | .setie n v => some (n, zcCtl 0xB 0 (if v then 1 else 0))
  | .clrv n => some (n, zcCtl 0xC 0 0)
  | _ => none

end Sys2Proof
end

