-- ==== Sys2Proof/Config.lean ====
section
/-!
DEFINITION. What the spec leaves open: values that the device produces and the spec does not state. Each is an opaque
constant, so nothing can be proved about it; a `Nat` argument named `c` is the model's counter of free values.
-/

namespace Sys2Proof.Config

/-- The first 14 taps of the pre-emphasis filter of R96, in units of 2⁻¹⁶ / 10; they are not stated. [DEDUCED: log 26] -/
opaque sincTap : Nat → Int

/-- What a 16-bit corrected sample holds where the corrected value falls outside it (R145). [DESIGN CHOICE: log 33] -/
opaque frontOverflow : Int → Int

/-- The taps of the 16-tap fractional-delay filter of R145 in 2⁻²⁰, for a skew in fs; they are not stated. [DEDUCED: log 32] -/
opaque skewTap : Int → Nat → Int

/-- Half the length of the low-pass filter of R148, for a bandwidth in MHz, and its taps by their distance from the middle one, in 2⁻²⁰; they
are not stated. [DEDUCED: log 32] -/
opaque sepHalf : Nat → Nat
opaque sepTap : Nat → Nat → Int

/-- The same of the low-pass filter of R536, by width code. [DEDUCED: log 32, 96] -/
opaque b50Half : Nat → Nat
opaque b50Tap : Nat → Nat → Int

/-- The fractional part of the delay of R155, in device units of a slot sample of so many units, on a branch; the filter's
frequency grid is not stated. [DEDUCED: log 32] -/
opaque fracDelay : Nat → Nat → List (Int × Int) → List (Int × Int)

/-- The argument of 0 in 2π/2²⁴, by the use: 0 the gauge phase (R169), 1 the reference step (R180), 2 a branch's phase at
initialisation, 3 its error (R158). [DESIGN CHOICE: log 108] -/
opaque argOfZero : Nat → BitVec 24

/-- What a phase-engine state word holds after an uncorrectable error: Φ in bits [55:16], A in [15:10], c in [9:0] (R15,
R173, R177). [DEDUCED: log 37] -/
opaque lostWord : Nat → BitVec 56

/-- The resampler's prototype (R204): coefficient k of phase μ, and its fraction bits; their values are not stated. [DEDUCED: log 32] -/
opaque resampleTap : Nat → Nat → BitVec 16
opaque resampleBits : BitVec 4

/-- A chain output of a part that an uncorrectable SRAM error has discarded (R15). [DEDUCED: log 32] -/
opaque lostOutput : Nat → BitVec 40

/-- How far BAND departs from its expression (R261), from LO, HI and the window: a number taken modulo the width of the
tolerance. [DEDUCED: log 48] -/
opaque bandError : Nat → Nat → List Int → Nat

/-- A feature sample under a definition whose STAT, AGG, WIN or band the spec does not define (R259 to R262), from the
definition's two words and the points' windows. [DESIGN CHOICE: log 49] -/
opaque featureUnstated : Nat → Nat → List (List Int) → BitVec 40

/-- COND_MASK, PRIMARY, THROTTLE and EFLAGS, a byte each, of a verdict posted with an empty event window (R311). [DESIGN CHOICE: log 52] -/
opaque verdictBlank : Nat → BitVec 32

/-- A zone-core shift by 40 or more, or a field outside bits 39 to 0 (R300): by operation code, operand and immediate. [DESIGN CHOICE: log 54] -/
opaque zcUnstated : Nat → BitVec 40 → Nat → BitVec 40

/-- A word of an empty event window (R306). [DESIGN CHOICE: log 52] -/
opaque emptyWindow : Nat → BitVec 32

/-- STREAM_ID and SEQ of a record held in the trace-capture region (R166). [DEDUCED: log 36] -/
opaque traceStreamId : Nat → BitVec 16
opaque traceSeq : Nat → BitVec 32

/-- The temperature computed for a bin (R228): how far the integer taken lies above the exact value's floor less 1 mK. [DEDUCED: log 43] -/
opaque dtsError : Nat → BitVec 2

/-- ln C in 2⁻²⁴ and Δα in 10⁻⁹ /m under TRACE.MODE 3, or with a reference temperature of 0, which R230 does not define. [DEDUCED: log 44] -/
opaque traceUnstated : Nat → BitVec 64

/-- RESIDUAL of a section that reaches beyond the valid bins of the profile (R232). [DEDUCED: log 44] -/
opaque residualUnstated : Nat → BitVec 32

/-- A phase code with GAIN code 3 or a reference that is not positive (R244), a VALUE under a curve code above 7, or of
LINEAR beyond 32 bits, or of an excitation that R250 does not define. [DEDUCED: log 46] -/
opaque auxCode : Nat → BitVec 24
opaque auxValue : Nat → BitVec 32

/-- How far VALUE lies above the floor of the standard's value less the tolerance of R250 (1 mK or 10 mK). [PRESUMED: log 45] -/
opaque auxError : Nat → Nat

/-- The die sensor's reading in mK (R250). [DESIGN CHOICE: log 7; PRESUMED: log 45] -/
opaque dieTemp : Nat → BitVec 24

/-- The draw of a channel's random generator (R360). [DEDUCED: log 63] -/
opaque nrrDraw : Nat → Bool

/-- Budget use of a block (R37); its timing is not modelled. [DESIGN CHOICE: log 7, 106] -/
opaque budgetUse : Nat → BitVec 16

/-- Rates that R386 takes from the configuration although it does not fix them (entry products, segments), in bytes per
second: by product and numbers of the selection. [DEDUCED: log 65] -/
opaque entryRate : Nat → Nat → Nat → Nat

/-- How far RETRY_AFTER lies above its least value, before it is brought into range (R387). [DEDUCED: log 66] -/
opaque retryDraw : Nat → Nat

/-- The correction unit logged with an uncorrectable error (R364). [DEDUCED: log 62] -/
opaque ueUnit : Nat → BitVec 5

/-- Whether errors beyond the bounds of R362 are detected, and the bytes of a code word that they miscorrect. [DEDUCED: log 62] -/
opaque eccDetects : Nat → Bool
opaque eccByte : Nat → BitVec 8

/-- What the PTP servo writes to TBASE_ADJ for an offset below 1 ms (R402). [PRESUMED: log 70] -/
opaque ptpSteer : Nat → BitVec 32

/-- The choice of the best-master-clock algorithm among the states that the role allows, and the grandmaster (R401). [PRESUMED: log 70] -/
opaque ptpChoice : Nat → Nat
opaque ptpGrandmaster : Nat → BitVec 64

/-- A byte of the steward area (R16): what stands where in it is the firmware's. [DEDUCED: log 80] -/
opaque stewardArea : Nat → BitVec 8

/-- The expected duration of a calibration in ms (R478). [DEDUCED: log 83] -/
opaque calDuration : Nat → BitVec 32

/-- The delay of the twin link as the device has measured it, in device units (R504). [DESIGN CHOICE: log 91] -/
opaque twinDelay : Nat → BitVec 16

/-- Why a mailbox turns away a request that names nothing. [DEDUCED: log 78] -/
opaque mailRefusal : Nat → Nat

/-- The code of the max payload size as the host has set it (R407): 128 bytes times a power of two. [PRESUMED: log 73] -/
opaque payloadCode : Nat

/-- A measured rate that a register reports (CMP_LOAD of R336, the traffic of R370 and R435), by register address. [DEDUCED: log 100; DESIGN CHOICE: log 106] -/
opaque measured : Nat → Nat → BitVec 16

end Sys2Proof.Config
end

