-- ==== Sys2Proof/Machine/Field.lean ====
section
/-!
DEFINITION. Register fields: where a field stands, its type (R4), its effect point (R7) and its reset value; and the
sparse register file that holds field values.
-/

namespace Sys2Proof.Machine

/-- The access types of R4. -/
inductive Ty
  | rw | ro | wo | w1c | w1s | rc
  deriving DecidableEq, Repr

/-- The effect points of R7. -/
inductive Eff
  | now | tick | commit | restart | none
  deriving DecidableEq, Repr

/-- A register field, or an array of like fields: `pages` consecutive pages hold it, `count` entries stand `stride`
bytes apart, and `count2` by `stride2` inside an entry. `resets`, where not empty, gives the reset value per entry. -/
structure Fld where
  page : Nat
  pages : Nat := 1
  off : Nat
  stride : Nat := 0
  count : Nat := 1
  stride2 : Nat := 0
  count2 : Nat := 1
  lo : Nat
  width : Nat
  ty : Ty
  eff : Eff
  reset : Nat
  resets : List Nat := []
  deriving DecidableEq, Repr

/-- A field by its table row. -/
def fld (page pages off lo width : Nat) (ty : Ty) (eff : Eff) (reset : Nat) : Fld :=
  { page := page, pages := pages, off := off, lo := lo, width := width, ty := ty, eff := eff, reset := reset }

/-- The row's offset carries an index. -/
def Fld.arr (f : Fld) (stride count : Nat) : Fld := { f with stride := stride, count := count }

/-- The row's offset carries a second index. -/
def Fld.arr2 (f : Fld) (stride count : Nat) : Fld := { f with stride2 := stride, count2 := count }

/-- The row's reset value depends on its index. -/
def Fld.resetsTo (f : Fld) (l : List Nat) : Fld := { f with resets := l }

/-- The field on the `n`-th page of its block. -/
def Fld.pg (f : Fld) (n : Nat) : Fld := { f with page := f.page + n, pages := 1 }

/-- Entry `i` of a field array. -/
def Fld.ix (f : Fld) (i : Nat) : Fld :=
  { f with off := f.off + f.stride * i, stride := 0, count := 1, reset := f.resets.getD i f.reset, resets := [] }

/-- Entry `j` of the second index. -/
def Fld.ix2 (f : Fld) (j : Nat) : Fld := { f with off := f.off + f.stride2 * j, stride2 := 0, count2 := 1 }

/-- The key under which the register file holds a field: its page, offset and lowest bit. -/
def Fld.key (f : Fld) : Nat := (f.page * 4096 + f.off) * 32 + f.lo

/-- The field of the array `f` whose word stands at offset `o` of page `p`, if one does. -/
def Fld.at? (f : Fld) (p o : Nat) : Option Fld :=
  if f.page ≤ p ∧ p < f.page + f.pages ∧ f.off ≤ o then
    (List.range f.count2).findSome? fun j =>
      let d := o - f.off
      if d < f.stride2 * j then none else
        let e := d - f.stride2 * j
        if f.stride = 0 then (if e = 0 then some ((f.pg (p - f.page)).ix2 j) else none)
        else if e % f.stride = 0 ∧ e / f.stride < f.count then
          some (((f.pg (p - f.page)).ix (e / f.stride)).ix2 j)
        else none
  else none

/-- Values by key, keys strictly rising; a key that is not listed holds the default its reader names. -/
abbrev Amap (α : Type) := List (Nat × α)

/-- The value under a key. -/
def Amap.find {α : Type} (k : Nat) : Amap α → Option α
  | [] => none
  | (a, v) :: r => if a = k then some v else Amap.find k r

/-- The map with a value under a key. -/
def Amap.put {α : Type} (k : Nat) (v : α) : Amap α → Amap α
  | [] => [(k, v)]
  | (a, w) :: r =>
    if k < a then (k, v) :: (a, w) :: r else if a = k then (k, v) :: r else (a, w) :: Amap.put k v r

/-- The value under a key, `d` where none is listed. -/
def Amap.get {α : Type} (m : Amap α) (k : Nat) (d : α) : α := (Amap.find k m).getD d

/-- The map without the keys that `p` selects. -/
def Amap.drop {α : Type} (p : Nat → Bool) (m : Amap α) : Amap α := m.filter fun e => !p e.1

/-- The map without one key. -/
def Amap.del {α : Type} (m : Amap α) (k : Nat) : Amap α := Amap.drop (fun a => a == k) m

/-- The map with a value changed, `d` standing for one that is not listed. -/
def Amap.upd {α : Type} (m : Amap α) (k : Nat) (d : α) (f : α → α) : Amap α := Amap.put k (f (Amap.get m k d)) m

/-- Field values by field key (`Fld.key`). -/
abbrev RegFile := Amap Word

/-- The value of a field. -/
def RegFile.get (r : RegFile) (f : Fld) : Nat := (Amap.find f.key r).elim f.reset BitVec.toNat

/-- The file with a field's value, narrowed to the field's width. -/
def RegFile.set (r : RegFile) (f : Fld) (v : Nat) : RegFile := Amap.put f.key (BitVec.ofNat 32 (v % 2 ^ f.width)) r

end Sys2Proof.Machine
end

