-- ==== Sys2Proof/Machine/RegTable.lean ====
section
/-!
DEFINITION. Every register field of the device, with its place, type, reset value and effect point, as the register
tables of spec/ give them (R54, R55, R73, R86, R113 to R118, R139, R167, R189, R214, R233 to R236, R254, R282, R283, R317,
R343, R344, R370, R403, R404, R405, R435, R436, R461, R469 to R471, R492, R512, R542, R574). Field names are the manual's.
-/

namespace Sys2Proof.Machine.Reg

/-! ### page 0x000 -/

def B50_ID : Fld := fld 0x000 1 0x000 0 32 .ro .none 0xb500104
def B50_CTRL_RUN : Fld := fld 0x000 1 0x004 0 1 .rw .now 0
def B50_CTRL_SOFT_RESET : Fld := fld 0x000 1 0x004 1 1 .wo .now 0
def B50_CTRL_IRQ_SEL : Fld := fld 0x000 1 0x004 2 1 .rw .now 0
def B50_CTRL_JIT_EN : Fld := fld 0x000 1 0x004 3 1 .rw .restart 0
def B50_CTRL_REF_EN : Fld := fld 0x000 1 0x004 4 1 .rw .restart 0
def B50_STATUS_STATE : Fld := fld 0x000 1 0x008 0 2 .ro .none 0
def B50_STATUS_REJECT : Fld := fld 0x000 1 0x008 4 3 .ro .none 0
def B50_STATUS_EMIT : Fld := fld 0x000 1 0x008 8 1 .ro .none 0
def B50_STATUS_REF_LOST : Fld := fld 0x000 1 0x008 9 1 .ro .none 0
def B50_IRQ_STATUS : Fld := fld 0x000 1 0x00C 0 8 .w1c .now 0
def B50_IRQ_ENABLE : Fld := fld 0x000 1 0x010 0 8 .rw .now 0
def B50_PERIOD : Fld := fld 0x000 1 0x020 0 21 .rw .restart 0xf4240
def B50_PULSE : Fld := fld 0x000 1 0x024 0 10 .rw .restart 0x64
def B50_GATE_POL : Fld := fld 0x000 1 0x028 0 1 .rw .restart 1
def B50_IF : Fld := fld 0x000 1 0x02C 0 18 .rw .restart 0x13880
def B50_RX_RANGE : Fld := fld 0x000 1 0x030 0 2 .rw .tick 1
def B50_RX_BW : Fld := fld 0x000 1 0x030 4 2 .rw .restart 1
def B50_TAU0 : Fld := fld 0x000 1 0x034 0 16 .rw .restart 0x271
def B50_SPACING : Fld := fld 0x000 1 0x038 0 8 .rw .restart 4
def B50_POINTS : Fld := fld 0x000 1 0x03C 0 16 .rw .restart 0x2000
def B50_GAUGE : Fld := fld 0x000 1 0x040 0 7 .rw .restart 8
def B50_REC_FRAMES : Fld := fld 0x000 1 0x044 0 9 .rw .restart 0x10
def B50_REF_POINTS : Fld := fld 0x000 1 0x048 0 11 .rw .restart 0
def B50_LD_SET : Fld := fld 0x000 1 0x050 0 16 .rw .tick 0
def B50_LD_EN : Fld := fld 0x000 1 0x050 16 1 .rw .now 0
def B50_LD_LIMIT : Fld := fld 0x000 1 0x054 0 16 .rw .now 0
def B50_PUMP_SET : Fld := fld 0x000 1 0x058 0 16 .rw .tick 0
def B50_PUMP_EN : Fld := fld 0x000 1 0x058 16 1 .rw .now 0
def B50_PUMP_LIMIT : Fld := fld 0x000 1 0x05C 0 16 .rw .now 0
def B50_TEC_SET : Fld := fld 0x000 1 0x060 0 16 .rw .tick 0
def B50_RING_LO : Fld := fld 0x000 1 0x080 0 32 .rw .now 0
def B50_RING_HI : Fld := fld 0x000 1 0x084 0 32 .rw .now 0
def B50_DOORBELL : Fld := fld 0x000 1 0x088 0 1 .wo .now 0
def B50_DMA_CTRL_EN : Fld := fld 0x000 1 0x08C 0 1 .rw .now 0
def B50_DMA_CTRL_ABORT : Fld := fld 0x000 1 0x08C 1 1 .wo .now 0
def B50_DMA_STATUS_STATE : Fld := fld 0x000 1 0x090 0 2 .ro .none 0
def B50_DMA_STATUS_INDEX : Fld := fld 0x000 1 0x090 16 16 .ro .none 0
def B50_IRQ_MOD_COUNT : Fld := fld 0x000 1 0x094 0 11 .rw .now 1
def B50_IRQ_MOD_TIME : Fld := fld 0x000 1 0x094 16 16 .rw .now 0
def B50_FRAMES : Fld := fld 0x000 1 0x0A0 0 32 .ro .none 0
def B50_DROPS : Fld := fld 0x000 1 0x0A4 0 32 .rc .none 0
def B50_OVL_SAMPLES : Fld := fld 0x000 1 0x0A8 0 32 .rc .none 0
def B50_DARK_FRAMES : Fld := fld 0x000 1 0x0AC 0 32 .rc .none 0
def B50_SLIPS : Fld := fld 0x000 1 0x0B0 0 32 .rc .none 0
def B50_TIME_LO : Fld := fld 0x000 1 0x0B4 0 32 .ro .none 0
def B50_TIME_HI : Fld := fld 0x000 1 0x0B8 0 32 .ro .none 0
def B50_HOST_ID : Fld := fld 0x000 1 0x3FC 0 32 .ro .none 0x642000b0

def fields000_0 : List Fld :=
  [B50_ID, B50_CTRL_RUN, B50_CTRL_SOFT_RESET, B50_CTRL_IRQ_SEL, B50_CTRL_JIT_EN, B50_CTRL_REF_EN, B50_STATUS_STATE, B50_STATUS_REJECT, B50_STATUS_EMIT, B50_STATUS_REF_LOST, B50_IRQ_STATUS, B50_IRQ_ENABLE, B50_PERIOD, B50_PULSE, B50_GATE_POL, B50_IF, B50_RX_RANGE, B50_RX_BW, B50_TAU0, B50_SPACING, B50_POINTS, B50_GAUGE, B50_REC_FRAMES, B50_REF_POINTS]

def fields000_1 : List Fld :=
  [B50_LD_SET, B50_LD_EN, B50_LD_LIMIT, B50_PUMP_SET, B50_PUMP_EN, B50_PUMP_LIMIT, B50_TEC_SET, B50_RING_LO, B50_RING_HI, B50_DOORBELL, B50_DMA_CTRL_EN, B50_DMA_CTRL_ABORT, B50_DMA_STATUS_STATE, B50_DMA_STATUS_INDEX, B50_IRQ_MOD_COUNT, B50_IRQ_MOD_TIME, B50_FRAMES, B50_DROPS, B50_OVL_SAMPLES, B50_DARK_FRAMES, B50_SLIPS, B50_TIME_LO, B50_TIME_HI, B50_HOST_ID]

def fields000 : List Fld := fields000_0 ++ fields000_1

/-! ### page 0x010 -/

def SYS_MODE_DEV : Fld := fld 0x010 1 0x040 0 4 .rw .now 1
def SYS_LANE_MODE_L0 : Fld := fld 0x010 1 0x044 0 4 .rw .restart 0
def SYS_LANE_MODE_L1 : Fld := fld 0x010 1 0x044 4 4 .rw .restart 0
def SYS_LANE_DAS_SUB_L0 : Fld := fld 0x010 1 0x048 0 4 .rw .restart 1
def SYS_LANE_DAS_SUB_L1 : Fld := fld 0x010 1 0x048 4 4 .rw .restart 1
def SYS_LANE_CTRL_RESTART_L0 : Fld := fld 0x010 1 0x04C 0 1 .w1s .tick 0
def SYS_LANE_CTRL_RESTART_L1 : Fld := fld 0x010 1 0x04C 1 1 .w1s .tick 0
def SYS_LANE_CTRL_STOP_L0 : Fld := fld 0x010 1 0x04C 2 1 .w1s .tick 0
def SYS_LANE_CTRL_STOP_L1 : Fld := fld 0x010 1 0x04C 3 1 .w1s .tick 0
def SYS_MODE_STATUS_CUR : Fld := fld 0x010 1 0x800 0 4 .ro .none 0
def SYS_MODE_STATUS_L0_STATE : Fld := fld 0x010 1 0x800 4 2 .ro .none 0
def SYS_MODE_STATUS_L1_STATE : Fld := fld 0x010 1 0x800 6 2 .ro .none 0
def SYS_MODE_STATUS_REJECT : Fld := fld 0x010 1 0x800 8 8 .ro .none 0
def SYS_MODE_STATUS_REJECT_DETAIL : Fld := fld 0x010 1 0x800 16 8 .ro .none 0
def SYS_MODE_STATUS_RUN_SINCE_RESET : Fld := fld 0x010 1 0x800 24 1 .ro .none 0
def SYS_STEWARD_LOAD_S0 : Fld := fld 0x010 1 0x840 0 10 .ro .none 0
def SYS_STEWARD_LOAD_S1 : Fld := fld 0x010 1 0x840 16 10 .ro .none 0
def SYS_STEWARD_LOAD_SHEDDING : Fld := fld 0x010 1 0x840 26 1 .ro .none 0
def SYS_STEWARD_LOAD_S0_UP : Fld := fld 0x010 1 0x840 27 1 .ro .none 0
def SYS_STEWARD_LOAD_S1_UP : Fld := fld 0x010 1 0x840 28 1 .ro .none 0
def SYS_SUPPLY_LIGHT_HOLD : Fld := fld 0x010 1 0x050 0 1 .rw .now 0
def SYS_SUPPLY_DIP : Fld := fld 0x010 1 0x050 8 1 .ro .none 0
def SYS_SUPPLY_HOLDING : Fld := fld 0x010 1 0x050 9 1 .ro .none 0
def SYS_SUPPLY_BELOW : Fld := fld 0x010 1 0x050 10 3 .ro .none 0
def SYS_THERM_WARN : Fld := fld 0x010 1 0x054 0 8 .rw .now 0x64
def SYS_RESET_CAUSE_CAUSE : Fld := fld 0x010 1 0x804 0 4 .ro .none 0
def SYS_RESET_CAUSE_RAIL : Fld := fld 0x010 1 0x804 4 2 .ro .none 0
def SYS_START_STEP : Fld := fld 0x010 1 0x808 0 3 .ro .none 0
def SYS_START_TRAIN_OK : Fld := fld 0x010 1 0x808 8 1 .ro .none 0
def SYS_START_CAL_OK : Fld := fld 0x010 1 0x808 9 1 .ro .none 0
def SYS_START_REF_AT_START : Fld := fld 0x010 1 0x808 10 1 .ro .none 0
def SYS_START_TIME : Fld := fld 0x010 1 0x80C 0 20 .ro .none 0
def SYS_STRAPS_SIDE : Fld := fld 0x010 1 0x810 0 1 .ro .none 0
def SYS_STRAPS_COMPAT : Fld := fld 0x010 1 0x810 1 1 .ro .none 0
def SYS_STRAPS_BOOT_SEL : Fld := fld 0x010 1 0x810 2 2 .ro .none 0
def SYS_DIP_CORE : Fld := fld 0x010 1 0x814 0 32 .rc .none 0
def SYS_DIP_DDR : Fld := fld 0x010 1 0x818 0 32 .rc .none 0
def SYS_DIP_AHI : Fld := fld 0x010 1 0x81C 0 32 .rc .none 0
def SYS_SUPPLY_MINj : Fld := (fld 0x010 1 0x820 0 12 .rc .none 0xfff).arr 0x4 3
def SYS_TEMPk : Fld := (fld 0x010 1 0x82C 0 16 .ro .none 0).arr 0x4 4
def SYS_THERM_STATUS_TRIP : Fld := fld 0x010 1 0x83C 0 1 .w1c .now 0
def SYS_SRAM_CE : Fld := fld 0x010 1 0x844 0 32 .rc .none 0
def SYS_SRAM_UE : Fld := fld 0x010 1 0x848 0 32 .rc .none 0

def fields010_0 : List Fld :=
  [SYS_MODE_DEV, SYS_LANE_MODE_L0, SYS_LANE_MODE_L1, SYS_LANE_DAS_SUB_L0, SYS_LANE_DAS_SUB_L1, SYS_LANE_CTRL_RESTART_L0, SYS_LANE_CTRL_RESTART_L1, SYS_LANE_CTRL_STOP_L0, SYS_LANE_CTRL_STOP_L1, SYS_MODE_STATUS_CUR, SYS_MODE_STATUS_L0_STATE, SYS_MODE_STATUS_L1_STATE, SYS_MODE_STATUS_REJECT, SYS_MODE_STATUS_REJECT_DETAIL, SYS_MODE_STATUS_RUN_SINCE_RESET, SYS_STEWARD_LOAD_S0, SYS_STEWARD_LOAD_S1, SYS_STEWARD_LOAD_SHEDDING, SYS_STEWARD_LOAD_S0_UP, SYS_STEWARD_LOAD_S1_UP, SYS_SUPPLY_LIGHT_HOLD, SYS_SUPPLY_DIP, SYS_SUPPLY_HOLDING, SYS_SUPPLY_BELOW]

def fields010_1 : List Fld :=
  [SYS_THERM_WARN, SYS_RESET_CAUSE_CAUSE, SYS_RESET_CAUSE_RAIL, SYS_START_STEP, SYS_START_TRAIN_OK, SYS_START_CAL_OK, SYS_START_REF_AT_START, SYS_START_TIME, SYS_STRAPS_SIDE, SYS_STRAPS_COMPAT, SYS_STRAPS_BOOT_SEL, SYS_DIP_CORE, SYS_DIP_DDR, SYS_DIP_AHI, SYS_SUPPLY_MINj, SYS_TEMPk, SYS_THERM_STATUS_TRIP, SYS_SRAM_CE, SYS_SRAM_UE]

def fields010 : List Fld := fields010_0 ++ fields010_1

/-! ### page 0x011 -/

def MERID_CFG_SRC : Fld := fld 0x011 1 0x040 0 1 .rw .restart 0
def MERID_CFG_FOLLOW : Fld := fld 0x011 1 0x040 1 1 .rw .restart 0
def MERID_CFG_OUT_EN : Fld := fld 0x011 1 0x040 2 1 .rw .restart 0
def MERID_PERIOD_PERIOD_NS : Fld := fld 0x011 1 0x044 0 21 .rw .restart 0xf4240
def MERID_DIV_N : Fld := fld 0x011 1 0x048 0 8 .rw .restart 1
def MERID_GUARD_GUARD_NS : Fld := fld 0x011 1 0x04C 0 16 .rw .restart 0x3e8
def MERID_IN_TRIM_TRIM_NS : Fld := fld 0x011 1 0x050 0 10 .rw .restart 0
def MERID_APPLY_CTRL_HOLD : Fld := fld 0x011 1 0x054 0 1 .rw .now 0
def MERID_APPLY_TICK_LO : Fld := fld 0x011 1 0x058 0 32 .rw .now 0
def MERID_APPLY_TICK_HI : Fld := fld 0x011 1 0x05C 0 8 .rw .now 0
def MERID_TICK_HIGH_HIGH : Fld := fld 0x011 1 0x060 0 28 .rw .tick 0
def MERID_TICK_COUNT_LO : Fld := fld 0x011 1 0x800 0 32 .ro .none 0
def MERID_TICK_COUNT_HI : Fld := fld 0x011 1 0x804 0 8 .ro .none 0
def MERID_STATUS_RUNNING : Fld := fld 0x011 1 0x808 0 1 .ro .none 0
def MERID_STATUS_IN_PRESENT : Fld := fld 0x011 1 0x808 1 1 .ro .none 0
def MERID_STATUS_IN_LOST : Fld := fld 0x011 1 0x808 2 1 .ro .none 0
def MERID_STATUS_SYNC_ERR : Fld := fld 0x011 1 0x808 3 1 .ro .none 0
def MERID_STATUS_APPLY_PENDING : Fld := fld 0x011 1 0x808 4 1 .ro .none 0
def MERID_OVERRUN : Fld := fld 0x011 1 0x80C 0 32 .rc .none 0
def MERID_OVERRUN_LAST_FRAME : Fld := fld 0x011 1 0x810 0 16 .ro .none 0
def MERID_OVERRUN_LAST_SLOT : Fld := fld 0x011 1 0x810 16 3 .ro .none 0
def MERID_OVERRUN_LAST_LANE : Fld := fld 0x011 1 0x810 19 1 .ro .none 0
def MERID_OVERRUN_LAST_BLOCK : Fld := fld 0x011 1 0x810 20 4 .ro .none 0
def MERID_DUSK_L0 : Fld := fld 0x011 1 0x814 0 32 .ro .none 0
def MERID_DUSK_L1 : Fld := fld 0x011 1 0x818 0 32 .ro .none 0
def MERID_SYNC_ERRS : Fld := fld 0x011 1 0x81C 0 32 .rc .none 0
def MERID_BUDGET_INDEX : Fld := fld 0x011 1 0xC00 0 4 .rw .now 0
def MERID_BUDGET_LAST : Fld := fld 0x011 1 0xC04 0 16 .ro .none 0
def MERID_BUDGET_PEAK : Fld := fld 0x011 1 0xC08 0 16 .rc .none 0

def fields011_0 : List Fld :=
  [MERID_CFG_SRC, MERID_CFG_FOLLOW, MERID_CFG_OUT_EN, MERID_PERIOD_PERIOD_NS, MERID_DIV_N, MERID_GUARD_GUARD_NS, MERID_IN_TRIM_TRIM_NS, MERID_APPLY_CTRL_HOLD, MERID_APPLY_TICK_LO, MERID_APPLY_TICK_HI, MERID_TICK_HIGH_HIGH, MERID_TICK_COUNT_LO, MERID_TICK_COUNT_HI, MERID_STATUS_RUNNING, MERID_STATUS_IN_PRESENT, MERID_STATUS_IN_LOST, MERID_STATUS_SYNC_ERR, MERID_STATUS_APPLY_PENDING, MERID_OVERRUN, MERID_OVERRUN_LAST_FRAME, MERID_OVERRUN_LAST_SLOT, MERID_OVERRUN_LAST_LANE, MERID_OVERRUN_LAST_BLOCK, MERID_DUSK_L0]

def fields011_1 : List Fld :=
  [MERID_DUSK_L1, MERID_SYNC_ERRS, MERID_BUDGET_INDEX, MERID_BUDGET_LAST, MERID_BUDGET_PEAK]

def fields011 : List Fld := fields011_0 ++ fields011_1

/-! ### page 0x012 -/

def TBASE_CFG_SCALE : Fld := fld 0x012 1 0x040 0 1 .rw .now 0
def TBASE_CFG_ADJ_PPM : Fld := fld 0x012 1 0x040 1 7 .rw .now 0xa
def TBASE_CFG_FORCE_HOLD : Fld := fld 0x012 1 0x040 8 1 .rw .now 0
def TBASE_UTC_OFFSET : Fld := fld 0x012 1 0x044 0 16 .rw .now 0
def TBASE_EPOCH_SEC_LO : Fld := fld 0x012 1 0x048 0 32 .rw .now 0
def TBASE_EPOCH_SEC_HI : Fld := fld 0x012 1 0x04C 0 16 .rw .now 0
def TBASE_EPOCH_SUBS_LO : Fld := fld 0x012 1 0x050 0 32 .rw .now 0
def TBASE_EPOCH_SUBS_HI : Fld := fld 0x012 1 0x054 0 5 .rw .now 0
def TBASE_ADJ : Fld := fld 0x012 1 0x058 0 32 .wo .now 0
def TBASE_PPS_OUT_EN : Fld := fld 0x012 1 0x05C 0 1 .rw .tick 0
def TBASE_PPS_OUT_WIDTH_MS : Fld := fld 0x012 1 0x05C 1 9 .rw .tick 0x64
def TBASE_PPS_OUT_TRIM : Fld := fld 0x012 1 0x060 0 16 .rw .tick 0
def TBASE_TIME_LO : Fld := fld 0x012 1 0x800 0 32 .ro .none 0
def TBASE_TIME_HI : Fld := fld 0x012 1 0x804 0 32 .ro .none 0
def TBASE_MAP_SUBS_LO : Fld := fld 0x012 1 0x808 0 32 .ro .none 0
def TBASE_MAP_SUBS_HI : Fld := fld 0x012 1 0x80C 0 5 .ro .none 0
def TBASE_MAP_SEC_LO : Fld := fld 0x012 1 0x810 0 32 .ro .none 0
def TBASE_MAP_SEC_HI : Fld := fld 0x012 1 0x814 0 16 .ro .none 0
def TBASE_STATUS_REF_PRESENT : Fld := fld 0x012 1 0x818 0 1 .ro .none 0
def TBASE_STATUS_REF_LOST : Fld := fld 0x012 1 0x818 1 1 .ro .none 0
def TBASE_STATUS_HOLDOVER : Fld := fld 0x012 1 0x818 2 1 .ro .none 0
def TBASE_STATUS_SLEWING : Fld := fld 0x012 1 0x818 3 1 .ro .none 0
def TBASE_STATUS_PPS_PRESENT : Fld := fld 0x012 1 0x818 4 1 .ro .none 0
def TBASE_STATUS_ADJ_BUSY : Fld := fld 0x012 1 0x818 5 1 .ro .none 0
def TBASE_STATUS_PLL_LOCK : Fld := fld 0x012 1 0x818 6 1 .ro .none 0
def TBASE_STATUS_XTAL_CAL : Fld := fld 0x012 1 0x818 7 1 .ro .none 0
def TBASE_ADJ_LEFT : Fld := fld 0x012 1 0x81C 0 32 .ro .none 0
def TBASE_REF_FREQ_ERR : Fld := fld 0x012 1 0x820 0 16 .ro .none 0
def TBASE_PPS_STAMP_LO : Fld := fld 0x012 1 0x824 0 32 .ro .none 0
def TBASE_PPS_STAMP_HI : Fld := fld 0x012 1 0x828 0 32 .ro .none 0
def TBASE_PPS_ERR_LO : Fld := fld 0x012 1 0x82C 0 32 .ro .none 0
def TBASE_PPS_ERR_HI : Fld := fld 0x012 1 0x830 0 8 .ro .none 0
def TBASE_REF_LOSSES : Fld := fld 0x012 1 0x834 0 32 .rc .none 0
def TBASE_PPS_LOSSES : Fld := fld 0x012 1 0x838 0 32 .rc .none 0
def TBASE_PPS_BAD : Fld := fld 0x012 1 0x83C 0 32 .rc .none 0
def TBASE_EPOCH_SETS : Fld := fld 0x012 1 0x840 0 32 .rc .none 0
def TBASE_PPS_OUT_SUPPRESSED : Fld := fld 0x012 1 0x844 0 32 .rc .none 0

def fields012_0 : List Fld :=
  [TBASE_CFG_SCALE, TBASE_CFG_ADJ_PPM, TBASE_CFG_FORCE_HOLD, TBASE_UTC_OFFSET, TBASE_EPOCH_SEC_LO, TBASE_EPOCH_SEC_HI, TBASE_EPOCH_SUBS_LO, TBASE_EPOCH_SUBS_HI, TBASE_ADJ, TBASE_PPS_OUT_EN, TBASE_PPS_OUT_WIDTH_MS, TBASE_PPS_OUT_TRIM, TBASE_TIME_LO, TBASE_TIME_HI, TBASE_MAP_SUBS_LO, TBASE_MAP_SUBS_HI, TBASE_MAP_SEC_LO, TBASE_MAP_SEC_HI, TBASE_STATUS_REF_PRESENT, TBASE_STATUS_REF_LOST, TBASE_STATUS_HOLDOVER, TBASE_STATUS_SLEWING, TBASE_STATUS_PPS_PRESENT, TBASE_STATUS_ADJ_BUSY]

def fields012_1 : List Fld :=
  [TBASE_STATUS_PLL_LOCK, TBASE_STATUS_XTAL_CAL, TBASE_ADJ_LEFT, TBASE_REF_FREQ_ERR, TBASE_PPS_STAMP_LO, TBASE_PPS_STAMP_HI, TBASE_PPS_ERR_LO, TBASE_PPS_ERR_HI, TBASE_REF_LOSSES, TBASE_PPS_LOSSES, TBASE_PPS_BAD, TBASE_EPOCH_SETS, TBASE_PPS_OUT_SUPPRESSED]

def fields012 : List Fld := fields012_0 ++ fields012_1

/-! ### page 0x013 -/

def TDC_CHn_CFG_SRC : Fld := ((fld 0x013 1 0x040 0 5 .rw .commit 0).arr 0x4 8).resetsTo [0, 1, 2, 3, 4, 5, 6, 7]
def TDC_CHn_CFG_EDGE : Fld := (fld 0x013 1 0x040 5 2 .rw .commit 1).arr 0x4 8
def TDC_CHn_CFG_QUEUE_EN : Fld := (fld 0x013 1 0x040 7 1 .rw .commit 0).arr 0x4 8
def TDC_CHn_CFG_STREAM_EN : Fld := (fld 0x013 1 0x040 8 1 .rw .commit 0).arr 0x4 8
def TDC_IVm_CFG_START : Fld := (fld 0x013 1 0x080 0 3 .rw .commit 0).arr 0x10 4
def TDC_IVm_CFG_STOP : Fld := (fld 0x013 1 0x080 3 3 .rw .commit 1).arr 0x10 4
def TDC_IVm_CFG_PERIOD : Fld := (fld 0x013 1 0x080 6 1 .rw .commit 0).arr 0x10 4
def TDC_IVm_CFG_NEAREST : Fld := (fld 0x013 1 0x080 7 1 .rw .commit 0).arr 0x10 4
def TDC_IVm_CFG_CONT : Fld := (fld 0x013 1 0x080 8 1 .rw .commit 0).arr 0x10 4
def TDC_IVm_CFG_EN : Fld := (fld 0x013 1 0x080 9 1 .rw .commit 0).arr 0x10 4
def TDC_IVm_WIN : Fld := (fld 0x013 1 0x084 0 31 .rw .commit 0x3e8).arr 0x10 4
def TDC_IVm_N : Fld := (fld 0x013 1 0x088 0 17 .rw .commit 0x400).arr 0x10 4
def TDC_LAUNCHn_CFG_EN : Fld := (fld 0x013 1 0x0C0 0 1 .rw .restart 0).arr 0x8 2
def TDC_LAUNCHn_CFG_CH : Fld := ((fld 0x013 1 0x0C0 1 3 .rw .restart 0).arr 0x8 2).resetsTo [0, 1]
def TDC_LAUNCHn_CFG_WIN : Fld := (fld 0x013 1 0x0C0 4 16 .rw .restart 0xa00).arr 0x8 2
def TDC_LAUNCHn_NOM : Fld := (fld 0x013 1 0x0C4 0 20 .rw .restart 0).arr 0x8 2
def TDC_STATUS_DL_LOCK : Fld := fld 0x013 1 0x800 0 1 .ro .none 0
def TDC_STATUS_NONEMPTY : Fld := fld 0x013 1 0x800 8 8 .ro .none 0
def TDC_CHn_COUNT : Fld := (fld 0x013 1 0x810 0 11 .ro .none 0).arr 0x10 8
def TDC_CHn_OVERFLOW : Fld := (fld 0x013 1 0x814 0 32 .rc .none 0).arr 0x10 8
def TDC_CHn_DEAD : Fld := (fld 0x013 1 0x818 0 32 .rc .none 0).arr 0x10 8
def TDC_CHn_STAGE_DROPS : Fld := (fld 0x013 1 0x81C 0 32 .rc .none 0).arr 0x10 8
def TDC_IVm_STATUS_COLLECTED : Fld := (fld 0x013 1 0x900 0 17 .ro .none 0).arr 0x40 4
def TDC_IVm_STATUS_DONE : Fld := (fld 0x013 1 0x900 17 1 .ro .none 0).arr 0x40 4
def TDC_IVm_MEAN_LO : Fld := (fld 0x013 1 0x904 0 32 .ro .none 0).arr 0x40 4
def TDC_IVm_MEAN_HI : Fld := (fld 0x013 1 0x908 0 24 .ro .none 0).arr 0x40 4
def TDC_IVm_STD : Fld := (fld 0x013 1 0x90C 0 32 .ro .none 0).arr 0x40 4
def TDC_IVm_MIN_LO : Fld := (fld 0x013 1 0x910 0 32 .ro .none 0).arr 0x40 4
def TDC_IVm_MIN_HI : Fld := (fld 0x013 1 0x914 0 16 .ro .none 0).arr 0x40 4
def TDC_IVm_MAX_LO : Fld := (fld 0x013 1 0x918 0 32 .ro .none 0).arr 0x40 4
def TDC_IVm_MAX_HI : Fld := (fld 0x013 1 0x91C 0 16 .ro .none 0).arr 0x40 4
def TDC_IVm_TIE : Fld := (fld 0x013 1 0x920 0 32 .rc .none 0).arr 0x40 4
def TDC_IVm_REVERSED : Fld := (fld 0x013 1 0x924 0 32 .rc .none 0).arr 0x40 4
def TDC_IVm_ORPHAN : Fld := (fld 0x013 1 0x928 0 32 .rc .none 0).arr 0x40 4
def TDC_IVm_UNPAIRED : Fld := (fld 0x013 1 0x92C 0 32 .rc .none 0).arr 0x40 4
def TDC_IVm_OVERWRITE : Fld := (fld 0x013 1 0x930 0 32 .rc .none 0).arr 0x40 4
def TDC_LAUNCHn_LAST : Fld := (fld 0x013 1 0xA00 0 32 .ro .none 0).arr 0x10 2
def TDC_LAUNCHn_MEAN : Fld := (fld 0x013 1 0xA04 0 32 .ro .none 0).arr 0x10 2
def TDC_LAUNCHn_MISS : Fld := (fld 0x013 1 0xA08 0 32 .rc .none 0).arr 0x10 2
def TDC_QINDEX : Fld := fld 0x013 1 0xC00 0 3 .rw .now 0
def TDC_QDATA_LO : Fld := fld 0x013 1 0xC04 0 32 .ro .none 0
def TDC_QDATA_HI : Fld := fld 0x013 1 0xC08 0 32 .ro .none 0
def TDC_QMETA : Fld := fld 0x013 1 0xC0C 0 32 .ro .none 0

def fields013_0 : List Fld :=
  [TDC_CHn_CFG_SRC, TDC_CHn_CFG_EDGE, TDC_CHn_CFG_QUEUE_EN, TDC_CHn_CFG_STREAM_EN, TDC_IVm_CFG_START, TDC_IVm_CFG_STOP, TDC_IVm_CFG_PERIOD, TDC_IVm_CFG_NEAREST, TDC_IVm_CFG_CONT, TDC_IVm_CFG_EN, TDC_IVm_WIN, TDC_IVm_N, TDC_LAUNCHn_CFG_EN, TDC_LAUNCHn_CFG_CH, TDC_LAUNCHn_CFG_WIN, TDC_LAUNCHn_NOM, TDC_STATUS_DL_LOCK, TDC_STATUS_NONEMPTY, TDC_CHn_COUNT, TDC_CHn_OVERFLOW, TDC_CHn_DEAD, TDC_CHn_STAGE_DROPS, TDC_IVm_STATUS_COLLECTED, TDC_IVm_STATUS_DONE]

def fields013_1 : List Fld :=
  [TDC_IVm_MEAN_LO, TDC_IVm_MEAN_HI, TDC_IVm_STD, TDC_IVm_MIN_LO, TDC_IVm_MIN_HI, TDC_IVm_MAX_LO, TDC_IVm_MAX_HI, TDC_IVm_TIE, TDC_IVm_REVERSED, TDC_IVm_ORPHAN, TDC_IVm_UNPAIRED, TDC_IVm_OVERWRITE, TDC_LAUNCHn_LAST, TDC_LAUNCHn_MEAN, TDC_LAUNCHn_MISS, TDC_QINDEX, TDC_QDATA_LO, TDC_QDATA_HI, TDC_QMETA]

def fields013 : List Fld := fields013_0 ++ fields013_1

/-! ### page 0x014 -/

def ALM_CAL_REQ_LANES : Fld := fld 0x014 1 0x040 0 2 .rw .now 0
def ALM_BG_CFG_EN : Fld := fld 0x014 1 0x044 0 1 .rw .commit 1
def ALM_BG_CFG_PERIOD : Fld := fld 0x014 1 0x044 8 8 .rw .commit 0xa
def ALM_SQZ_LIMIT : Fld := fld 0x014 1 0x048 0 16 .rw .commit 0x78
def ALM_CAL_CTRL_ABORT : Fld := fld 0x014 1 0x04C 0 1 .wo .now 0
def ALM_TOLp_VAL : Fld := (fld 0x014 1 0x064 0 16 .rw .commit 0x40).arr 0x4 6
def ALM_TOLp_PHASE : Fld := (fld 0x014 1 0x064 16 16 .rw .commit 0x20).arr 0x4 6
def ALM_STATUS_CAL_STATE : Fld := fld 0x014 1 0x800 0 1 .ro .none 0
def ALM_STATUS_CAL_BUSY : Fld := fld 0x014 1 0x800 1 1 .ro .none 0
def ALM_STATUS_PROC : Fld := fld 0x014 1 0x800 4 4 .ro .none 0
def ALM_STATUS_LANE : Fld := fld 0x014 1 0x800 8 1 .ro .none 0
def ALM_STATUS_STEP1_HELD : Fld := fld 0x014 1 0x800 9 1 .ro .none 0
def ALM_STATUS_SUSPECT_CAUSE : Fld := fld 0x014 1 0x800 12 2 .ro .none 0
def ALM_CAL_RESULT_OUTCOME : Fld := fld 0x014 1 0x804 0 3 .ro .none 0
def ALM_CAL_RESULT_CAUSE : Fld := fld 0x014 1 0x804 4 4 .ro .none 0
def ALM_CAL_RESULT_PROC : Fld := fld 0x014 1 0x804 8 4 .ro .none 0
def ALM_CAL_PROGRESS : Fld := fld 0x014 1 0x808 0 10 .ro .none 0
def ALM_DISAGREES : Fld := fld 0x014 1 0x80C 0 32 .rc .none 0
def ALM_REJECTS : Fld := fld 0x014 1 0x810 0 32 .rc .none 0
def ALM_SUSPECT_ENTRIES : Fld := fld 0x014 1 0x814 0 32 .rc .none 0
def ALM_SATURATIONS : Fld := fld 0x014 1 0x818 0 32 .rc .none 0
def ALM_Q_SPUR_Ln : Fld := (fld 0x014 1 0x820 0 16 .ro .none 0).arr 0x10 2
def ALM_Q_IMAGE_Ln : Fld := (fld 0x014 1 0x824 0 16 .ro .none 0).arr 0x10 2
def ALM_Q_RANGE_PH_Ln : Fld := (fld 0x014 1 0x828 0 16 .ro .none 0).arr 0x10 2
def ALM_Q_TDC_DNL : Fld := fld 0x014 1 0x840 0 16 .ro .none 0
def ALM_INDEX : Fld := fld 0x014 1 0xC00 0 12 .rw .now 0
def ALM_FACTORY : Fld := fld 0x014 1 0xC04 0 32 .ro .none 0
def ALM_USER : Fld := fld 0x014 1 0xC08 0 32 .rw .commit 0
def ALM_EFFECTIVE : Fld := fld 0x014 1 0xC0C 0 32 .ro .none 0

def fields014_0 : List Fld :=
  [ALM_CAL_REQ_LANES, ALM_BG_CFG_EN, ALM_BG_CFG_PERIOD, ALM_SQZ_LIMIT, ALM_CAL_CTRL_ABORT, ALM_TOLp_VAL, ALM_TOLp_PHASE, ALM_STATUS_CAL_STATE, ALM_STATUS_CAL_BUSY, ALM_STATUS_PROC, ALM_STATUS_LANE, ALM_STATUS_STEP1_HELD, ALM_STATUS_SUSPECT_CAUSE, ALM_CAL_RESULT_OUTCOME, ALM_CAL_RESULT_CAUSE, ALM_CAL_RESULT_PROC, ALM_CAL_PROGRESS, ALM_DISAGREES, ALM_REJECTS, ALM_SUSPECT_ENTRIES, ALM_SATURATIONS, ALM_Q_SPUR_Ln, ALM_Q_IMAGE_Ln, ALM_Q_RANGE_PH_Ln]

def fields014_1 : List Fld :=
  [ALM_Q_TDC_DNL, ALM_INDEX, ALM_FACTORY, ALM_USER, ALM_EFFECTIVE]

def fields014 : List Fld := fields014_0 ++ fields014_1

/-! ### page 0x015 -/

def CFGI_STATUS_ABSENT : Fld := fld 0x015 1 0x800 0 1 .ro .none 0
def CFGI_STATUS_HDR_FAIL : Fld := fld 0x015 1 0x800 1 1 .w1c .now 0
def CFGI_STATUS_LOADED : Fld := fld 0x015 1 0x800 16 10 .ro .none 0
def CFGI_DEFAULTED_COUNT : Fld := fld 0x015 1 0x804 0 10 .ro .none 0
def CFGI_IMAGE_VERSION : Fld := fld 0x015 1 0x808 0 32 .ro .none 0
def CFGI_DEF_INDEX : Fld := fld 0x015 1 0xC00 0 5 .rw .now 0
def CFGI_DEFAULTED : Fld := fld 0x015 1 0xC04 0 32 .w1c .now 0

def fields015_0 : List Fld :=
  [CFGI_STATUS_ABSENT, CFGI_STATUS_HDR_FAIL, CFGI_STATUS_LOADED, CFGI_DEFAULTED_COUNT, CFGI_IMAGE_VERSION, CFGI_DEF_INDEX, CFGI_DEFAULTED]

def fields015 : List Fld := fields015_0

/-! ### page 0x018 -/

def LDRV_LDn_CFG_EN : Fld := (fld 0x018 1 0x040 0 1 .rw .now 0).arr 0x10 2
def LDRV_LDn_CFG_MODE : Fld := (fld 0x018 1 0x040 1 1 .rw .commit 0).arr 0x10 2
def LDRV_LDn_CFG_MPD : Fld := ((fld 0x018 1 0x040 2 3 .rw .commit 0).arr 0x10 2).resetsTo [0, 2]
def LDRV_LDn_SET : Fld := (fld 0x018 1 0x044 0 16 .rw .commit 0).arr 0x10 2
def LDRV_LDn_LIMIT : Fld := (fld 0x018 1 0x048 0 16 .rw .now 0).arr 0x10 2
def LDRV_LDn_TARGET : Fld := (fld 0x018 1 0x04C 0 16 .rw .commit 0).arr 0x10 2
def LDRV_PCm_CFG_EN : Fld := (fld 0x018 1 0x060 0 1 .rw .now 0).arr 0x10 4
def LDRV_PCm_CFG_MODE : Fld := (fld 0x018 1 0x060 1 1 .rw .commit 0).arr 0x10 4
def LDRV_PCm_CFG_MPD : Fld := ((fld 0x018 1 0x060 2 3 .rw .commit 0).arr 0x10 4).resetsTo [4, 4, 5, 5]
def LDRV_PCm_CFG_RAMP : Fld := (fld 0x018 1 0x060 8 8 .rw .commit 0x14).arr 0x10 4
def LDRV_PCm_SET : Fld := (fld 0x018 1 0x064 0 16 .rw .commit 0).arr 0x10 4
def LDRV_PCm_LIMIT : Fld := (fld 0x018 1 0x068 0 16 .rw .now 0).arr 0x10 4
def LDRV_PCm_TARGET : Fld := (fld 0x018 1 0x06C 0 16 .rw .commit 0).arr 0x10 4
def LDRV_WLw_CFG_EN : Fld := (fld 0x018 1 0x0A0 0 1 .rw .now 0).arr 0x10 2
def LDRV_WLw_CFG_NUM : Fld := ((fld 0x018 1 0x0A0 1 3 .rw .commit 0).arr 0x10 2).resetsTo [1, 3]
def LDRV_WLw_CFG_DEN : Fld := ((fld 0x018 1 0x0A0 4 3 .rw .commit 0).arr 0x10 2).resetsTo [0, 2]
def LDRV_WLw_CFG_SET : Fld := ((fld 0x018 1 0x0A0 7 2 .rw .commit 0).arr 0x10 2).resetsTo [0, 1]
def LDRV_WLw_CFG_POLARITY : Fld := (fld 0x018 1 0x0A0 9 1 .rw .commit 0).arr 0x10 2
def LDRV_WLw_TARGET : Fld := (fld 0x018 1 0x0A4 0 18 .rw .commit 0x8000).arr 0x10 2
def LDRV_SETn : Fld := (fld 0x018 1 0x0C0 0 16 .rw .commit 0).arr 0x4 4
def LDRV_MPD_RANGE : Fld := fld 0x018 1 0x0E0 0 12 .rw .commit 0x555
def LDRV_MPDj : Fld := (fld 0x018 1 0x800 0 16 .ro .none 0).arr 0x4 6
def LDRV_LOOP_OUT : Fld := (fld 0x018 1 0x820 0 16 .ro .none 0).arr 0x4 8
def LDRV_FAULT_LD_OPEN_GND : Fld := fld 0x018 1 0x840 0 2 .w1c .now 0
def LDRV_FAULT_LD_LOAD_SHORT : Fld := fld 0x018 1 0x840 2 2 .w1c .now 0
def LDRV_FAULT_PUMP_OPEN : Fld := fld 0x018 1 0x840 4 4 .w1c .now 0
def LDRV_FAULT_OVERCURRENT : Fld := fld 0x018 1 0x840 8 4 .w1c .now 0
def LDRV_GATE_STATUS_EMIT_EN : Fld := fld 0x018 1 0x844 0 1 .ro .none 0
def LDRV_GATE_STATUS_ACT_OUT : Fld := fld 0x018 1 0x844 1 1 .ro .none 0
def LDRV_GATE_STATUS_PEER_ACT_IN : Fld := fld 0x018 1 0x844 2 1 .ro .none 1
def LDRV_GATE_STATUS_GATE : Fld := fld 0x018 1 0x844 3 1 .ro .none 0
def LDRV_GATE_STATUS_RAMPING : Fld := fld 0x018 1 0x844 4 4 .ro .none 0
def LDRV_GATE_STATUS_LOW_LIGHT : Fld := fld 0x018 1 0x844 8 2 .ro .none 0
def LDRV_GATE_CLOSURES : Fld := fld 0x018 1 0x848 0 32 .rc .none 0
def LDRV_LOOP_INDEX : Fld := fld 0x018 1 0xC00 0 3 .rw .now 0
def LDRV_LOOP_KP : Fld := fld 0x018 1 0xC04 0 16 .rw .now 0
def LDRV_LOOP_KI : Fld := fld 0x018 1 0xC08 0 16 .rw .now 0
def LDRV_LOOP_LO : Fld := fld 0x018 1 0xC0C 0 16 .rw .now 0
def LDRV_LOOP_HI : Fld := fld 0x018 1 0xC10 0 16 .rw .now 0xffff
def LDRV_LOOP_SAT_MS : Fld := fld 0x018 1 0xC14 0 16 .rw .now 0x64

def fields018_0 : List Fld :=
  [LDRV_LDn_CFG_EN, LDRV_LDn_CFG_MODE, LDRV_LDn_CFG_MPD, LDRV_LDn_SET, LDRV_LDn_LIMIT, LDRV_LDn_TARGET, LDRV_PCm_CFG_EN, LDRV_PCm_CFG_MODE, LDRV_PCm_CFG_MPD, LDRV_PCm_CFG_RAMP, LDRV_PCm_SET, LDRV_PCm_LIMIT, LDRV_PCm_TARGET, LDRV_WLw_CFG_EN, LDRV_WLw_CFG_NUM, LDRV_WLw_CFG_DEN, LDRV_WLw_CFG_SET, LDRV_WLw_CFG_POLARITY, LDRV_WLw_TARGET, LDRV_SETn, LDRV_MPD_RANGE, LDRV_MPDj, LDRV_LOOP_OUT, LDRV_FAULT_LD_OPEN_GND]

def fields018_1 : List Fld :=
  [LDRV_FAULT_LD_LOAD_SHORT, LDRV_FAULT_PUMP_OPEN, LDRV_FAULT_OVERCURRENT, LDRV_GATE_STATUS_EMIT_EN, LDRV_GATE_STATUS_ACT_OUT, LDRV_GATE_STATUS_PEER_ACT_IN, LDRV_GATE_STATUS_GATE, LDRV_GATE_STATUS_RAMPING, LDRV_GATE_STATUS_LOW_LIGHT, LDRV_GATE_CLOSURES, LDRV_LOOP_INDEX, LDRV_LOOP_KP, LDRV_LOOP_KI, LDRV_LOOP_LO, LDRV_LOOP_HI, LDRV_LOOP_SAT_MS]

def fields018 : List Fld := fields018_0 ++ fields018_1

/-! ### page 0x01A -/

def SYNn_CFG_SINC_COMP : Fld := fld 0x01A 2 0x040 0 1 .rw .restart 0
def SYNn_GATE_AMP : Fld := fld 0x01A 2 0x044 0 11 .rw .commit 0
def SYNn_GATE_TIME_LEAD : Fld := fld 0x01A 2 0x048 0 8 .rw .commit 0xa
def SYNn_GATE_TIME_TAIL : Fld := fld 0x01A 2 0x048 8 8 .rw .commit 0xa
def SYNn_BIAS_I_TRIM : Fld := fld 0x01A 2 0x04C 0 16 .rw .commit 0
def SYNn_BIAS_Q_TRIM : Fld := fld 0x01A 2 0x04C 16 16 .rw .commit 0
def SYNn_SLOTk_CFG_EN : Fld := (fld 0x01A 2 0x100 0 1 .rw .restart 0).arr 0x20 8
def SYNn_SLOTk_CFG_SHAPE : Fld := (fld 0x01A 2 0x100 1 2 .rw .restart 0).arr 0x20 8
def SYNn_SLOTk_CFG_DIR : Fld := (fld 0x01A 2 0x100 3 1 .rw .restart 0).arr 0x20 8
def SYNn_SLOTk_CFG_BW : Fld := (fld 0x01A 2 0x100 4 3 .rw .restart 3).arr 0x20 8
def SYNn_SLOTk_CFG_TAPER : Fld := (fld 0x01A 2 0x100 8 4 .rw .commit 4).arr 0x20 8
def SYNn_SLOTk_CFG_EDGE : Fld := (fld 0x01A 2 0x100 12 6 .rw .commit 2).arr 0x20 8
def SYNn_SLOTk_FREQ : Fld := (fld 0x01A 2 0x104 0 32 .rw .restart 0).arr 0x20 8
def SYNn_SLOTk_LEN : Fld := (fld 0x01A 2 0x108 0 15 .rw .restart 0x3e8).arr 0x20 8
def SYNn_SLOTk_AMP : Fld := (fld 0x01A 2 0x10C 0 13 .rw .commit 0).arr 0x20 8
def SYNn_SLOTk_PHASE : Fld := (fld 0x01A 2 0x10C 16 16 .rw .commit 0).arr 0x20 8
def SYNn_STATUS_EMIT : Fld := fld 0x01A 2 0x800 0 1 .ro .none 0
def SYNn_STATUS_DARK : Fld := fld 0x01A 2 0x800 1 1 .ro .none 0
def SYNn_DARK_SHOTS : Fld := fld 0x01A 2 0x804 0 32 .rc .none 0
def SYNn_CLIP_SAMPLES : Fld := fld 0x01A 2 0x808 0 32 .rc .none 0
def SYNn_FAULT_GATE_OPEN_GND : Fld := fld 0x01A 2 0x80C 0 1 .w1c .now 0
def SYNn_FAULT_GATE_LOAD_SHORT : Fld := fld 0x01A 2 0x80C 1 1 .w1c .now 0
def SYNn_FAULT_MOD_I_OPEN : Fld := fld 0x01A 2 0x80C 2 1 .w1c .now 0
def SYNn_FAULT_MOD_Q_OPEN : Fld := fld 0x01A 2 0x80C 3 1 .w1c .now 0
def SYNn_SLOTk_CHIRP_RATE : Fld := (fld 0x01A 2 0x840 0 32 .ro .none 0).arr 0x4 8

def fields01A_0 : List Fld :=
  [SYNn_CFG_SINC_COMP, SYNn_GATE_AMP, SYNn_GATE_TIME_LEAD, SYNn_GATE_TIME_TAIL, SYNn_BIAS_I_TRIM, SYNn_BIAS_Q_TRIM, SYNn_SLOTk_CFG_EN, SYNn_SLOTk_CFG_SHAPE, SYNn_SLOTk_CFG_DIR, SYNn_SLOTk_CFG_BW, SYNn_SLOTk_CFG_TAPER, SYNn_SLOTk_CFG_EDGE, SYNn_SLOTk_FREQ, SYNn_SLOTk_LEN, SYNn_SLOTk_AMP, SYNn_SLOTk_PHASE, SYNn_STATUS_EMIT, SYNn_STATUS_DARK, SYNn_DARK_SHOTS, SYNn_CLIP_SAMPLES, SYNn_FAULT_GATE_OPEN_GND, SYNn_FAULT_GATE_LOAD_SHORT, SYNn_FAULT_MOD_I_OPEN, SYNn_FAULT_MOD_Q_OPEN]

def fields01A_1 : List Fld :=
  [SYNn_SLOTk_CHIRP_RATE]

def fields01A : List Fld := fields01A_0 ++ fields01A_1

/-! ### page 0x020 -/

def RXFn_CFG_RANGE : Fld := fld 0x020 2 0x040 0 2 .rw .commit 1
def RXFn_CFG_ARC_EN : Fld := fld 0x020 2 0x040 2 1 .rw .commit 0
def RXFn_ARC_HI : Fld := fld 0x020 2 0x044 0 11 .rw .commit 0x733
def RXFn_ARC_LO : Fld := fld 0x020 2 0x048 0 11 .rw .commit 0x333
def RXFn_ARC_LIMITS_MIN_RANGE : Fld := fld 0x020 2 0x04C 0 2 .rw .commit 0
def RXFn_ARC_LIMITS_MAX_RANGE : Fld := fld 0x020 2 0x04C 2 2 .rw .commit 3
def RXFn_SERVO_CFG_EN : Fld := fld 0x020 2 0x050 0 1 .rw .commit 1
def RXFn_INJ_CFG_MODE : Fld := fld 0x020 2 0x060 0 2 .rw .tick 0
def RXFn_INJ_CFG_SRC : Fld := fld 0x020 2 0x060 2 2 .rw .tick 0
def RXFn_INJ_CFG_SLOT : Fld := fld 0x020 2 0x060 4 3 .rw .tick 0
def RXFn_INJ_CFG_CH : Fld := fld 0x020 2 0x060 8 4 .rw .tick 0xf
def RXFn_INJ_CFG_ISOLATE : Fld := fld 0x020 2 0x060 12 1 .rw .tick 0
def RXFn_INJ_FREQ : Fld := fld 0x020 2 0x064 0 32 .rw .tick 0
def RXFn_INJ_AMP : Fld := fld 0x020 2 0x068 0 10 .rw .tick 0
def RXFn_STATUS_RANGE_CUR : Fld := fld 0x020 2 0x800 0 2 .ro .none 1
def RXFn_STATUS_ARC_DWELL : Fld := fld 0x020 2 0x800 2 1 .ro .none 0
def RXFn_STATUS_ARC_LO_CLAMPED : Fld := fld 0x020 2 0x800 3 1 .ro .none 0
def RXFn_STATUS_INJ_ACTIVE : Fld := fld 0x020 2 0x800 4 1 .ro .none 0
def RXFn_STATUS_SERVO_SAT : Fld := fld 0x020 2 0x800 8 4 .ro .none 0
def RXFn_STATUS_PDB_LIMIT : Fld := fld 0x020 2 0x800 12 1 .ro .none 0
def RXFn_RANGE_CHANGES : Fld := fld 0x020 2 0x804 0 32 .rc .none 0
def RXFn_ARC_PEAK_LAST : Fld := fld 0x020 2 0x808 0 11 .ro .none 0
def RXFn_ARC_PEAK_PREV : Fld := fld 0x020 2 0x808 16 11 .ro .none 0
def RXFn_OVL_SAMPLES_c : Fld := (fld 0x020 2 0x810 0 32 .rc .none 0).arr 0x4 4
def RXFn_OVL_LAST_OFFSET_NS : Fld := fld 0x020 2 0x820 0 21 .ro .none 0
def RXFn_OVL_LAST_SLOT : Fld := fld 0x020 2 0x820 21 3 .ro .none 0
def RXFn_OVL_LAST_CH : Fld := fld 0x020 2 0x820 24 2 .ro .none 0
def RXFn_PDB_CURRENT : Fld := fld 0x020 2 0x824 0 16 .ro .none 0
def RXFn_SERVO_c : Fld := (fld 0x020 2 0x828 0 16 .ro .none 0).arr 0x4 4
def RXFn_SEAM_TICK : Fld := fld 0x020 2 0x838 0 32 .ro .none 0
def RXFn_INJ_SKIP : Fld := fld 0x020 2 0x83C 0 32 .rc .none 0
def RXFn_SEAM_SLOTk_FIRST : Fld := (fld 0x020 2 0x840 0 18 .ro .none 0).arr 0x8 8
def RXFn_SEAM_SLOTk_VALID : Fld := (fld 0x020 2 0x840 31 1 .ro .none 0).arr 0x8 8
def RXFn_SEAM_SLOTk_LAST : Fld := (fld 0x020 2 0x844 0 18 .ro .none 0).arr 0x8 8

def fields020_0 : List Fld :=
  [RXFn_CFG_RANGE, RXFn_CFG_ARC_EN, RXFn_ARC_HI, RXFn_ARC_LO, RXFn_ARC_LIMITS_MIN_RANGE, RXFn_ARC_LIMITS_MAX_RANGE, RXFn_SERVO_CFG_EN, RXFn_INJ_CFG_MODE, RXFn_INJ_CFG_SRC, RXFn_INJ_CFG_SLOT, RXFn_INJ_CFG_CH, RXFn_INJ_CFG_ISOLATE, RXFn_INJ_FREQ, RXFn_INJ_AMP, RXFn_STATUS_RANGE_CUR, RXFn_STATUS_ARC_DWELL, RXFn_STATUS_ARC_LO_CLAMPED, RXFn_STATUS_INJ_ACTIVE, RXFn_STATUS_SERVO_SAT, RXFn_STATUS_PDB_LIMIT, RXFn_RANGE_CHANGES, RXFn_ARC_PEAK_LAST, RXFn_ARC_PEAK_PREV, RXFn_OVL_SAMPLES_c]

def fields020_1 : List Fld :=
  [RXFn_OVL_LAST_OFFSET_NS, RXFn_OVL_LAST_SLOT, RXFn_OVL_LAST_CH, RXFn_PDB_CURRENT, RXFn_SERVO_c, RXFn_SEAM_TICK, RXFn_INJ_SKIP, RXFn_SEAM_SLOTk_FIRST, RXFn_SEAM_SLOTk_VALID, RXFn_SEAM_SLOTk_LAST]

def fields020 : List Fld := fields020_0 ++ fields020_1

/-! ### page 0x022 -/

def TSF_RANGE : Fld := fld 0x022 1 0x040 0 8 .rw .commit 0x55
def TSF_APD_BIASn : Fld := (fld 0x022 1 0x044 0 16 .rw .commit 0).arr 0x4 2
def TSF_APD_LIMIT_LIMIT0 : Fld := fld 0x022 1 0x04C 0 16 .rw .now 0
def TSF_APD_LIMIT_LIMIT1 : Fld := fld 0x022 1 0x04C 16 16 .rw .now 0
def TSF_APD_CFG_EN : Fld := fld 0x022 1 0x050 0 2 .rw .now 0
def TSF_STATUS_APD_RAMPING : Fld := fld 0x022 1 0x800 0 2 .ro .none 0
def TSF_STATUS_APD_LIMITED : Fld := fld 0x022 1 0x800 2 2 .ro .none 0
def TSF_OVL_SAMPLES_c : Fld := (fld 0x022 1 0x810 0 32 .rc .none 0).arr 0x4 4

def fields022_0 : List Fld :=
  [TSF_RANGE, TSF_APD_BIASn, TSF_APD_LIMIT_LIMIT0, TSF_APD_LIMIT_LIMIT1, TSF_APD_CFG_EN, TSF_STATUS_APD_RAMPING, TSF_STATUS_APD_LIMITED, TSF_OVL_SAMPLES_c]

def fields022 : List Fld := fields022_0

/-! ### page 0x028 -/

def SHOTn_LENGTH : Fld := fld 0x028 2 0x040 0 32 .rw .restart 0
def SHOTn_GROUP_INDEX : Fld := fld 0x028 2 0x044 0 22 .rw .restart 0x177dbf
def SHOTn_ZERO_TAU0 : Fld := fld 0x028 2 0x048 0 24 .rw .restart 0
def SHOTn_POINT_CFG_SPACING : Fld := fld 0x028 2 0x04C 0 8 .rw .restart 2
def SHOTn_POINT_CFG_REF_POINTS : Fld := fld 0x028 2 0x04C 8 11 .rw .restart 0
def SHOTn_COMB_CFG_POL : Fld := fld 0x028 2 0x050 0 2 .rw .restart 0
def SHOTn_COMB_CFG_TAU : Fld := fld 0x028 2 0x050 4 3 .rw .commit 2
def SHOTn_COMB_MIN : Fld := fld 0x028 2 0x054 0 20 .rw .commit 0x100
def SHOTn_CORR_CFG_FRONT_EN : Fld := fld 0x028 2 0x058 0 1 .rw .restart 1
def SHOTn_CORR_CFG_JIT_EN : Fld := fld 0x028 2 0x058 1 1 .rw .restart 1
def SHOTn_TRACE_CFG_CH : Fld := fld 0x028 2 0x060 0 4 .rw .restart 0xf
def SHOTn_TRACE_CFG_RING : Fld := fld 0x028 2 0x060 4 1 .rw .restart 0
def SHOTn_TRACE_CFG_FRAMES : Fld := fld 0x028 2 0x060 16 16 .rw .restart 1
def SHOTn_TRACE_START : Fld := fld 0x028 2 0x064 0 21 .rw .restart 0
def SHOTn_TRACE_LEN : Fld := fld 0x028 2 0x068 0 21 .rw .restart 0x1000
def SHOTn_SLOTk_MF_WIN : Fld := (fld 0x028 2 0x100 0 2 .rw .restart 0).arr 0x20 8
def SHOTn_SLOTk_MF_SRC : Fld := (fld 0x028 2 0x100 2 1 .rw .restart 0).arr 0x20 8
def SHOTn_SLOTk_MF_CSHIFT : Fld := (fld 0x028 2 0x100 4 4 .rw .commit 0).arr 0x20 8
def SHOTn_SLOTk_MF_LEN : Fld := (fld 0x028 2 0x104 0 15 .rw .restart 0).arr 0x20 8
def SHOTn_POINTS : Fld := fld 0x028 2 0x800 0 19 .ro .none 0
def SHOTn_STATUS_TRACE_ACTIVE : Fld := fld 0x028 2 0x804 0 1 .ro .none 0
def SHOTn_STATUS_TRACE_CLIPPED : Fld := fld 0x028 2 0x804 1 1 .ro .none 0
def SHOTn_SAT_SAMPLES : Fld := fld 0x028 2 0x808 0 32 .rc .none 0
def SHOTn_JIT_CLAMPS : Fld := fld 0x028 2 0x80C 0 32 .rc .none 0
def SHOTn_JIT_APPLIED : Fld := fld 0x028 2 0x810 0 32 .ro .none 0
def SHOTn_COMB_REINITS : Fld := fld 0x028 2 0x814 0 32 .rc .none 0
def SHOTn_TRACE_FRAMES : Fld := fld 0x028 2 0x818 0 32 .ro .none 0
def SHOTn_TRACE_MISSED : Fld := fld 0x028 2 0x81C 0 32 .rc .none 0
def SHOTn_SLOTk_NH_TAPS : Fld := (fld 0x028 2 0x840 0 15 .ro .none 0).arr 0x4 8
def SHOTn_SLOTk_NH_C : Fld := (fld 0x028 2 0x840 16 4 .ro .none 0).arr 0x4 8
def SHOTn_MF_INDEX_ADDR : Fld := fld 0x028 2 0xC00 0 15 .rw .now 0
def SHOTn_MF_INDEX_SLOT : Fld := fld 0x028 2 0xC00 16 3 .rw .now 0
def SHOTn_MF_DATA_I : Fld := fld 0x028 2 0xC04 0 16 .rw .restart 0
def SHOTn_MF_DATA_Q : Fld := fld 0x028 2 0xC04 16 16 .rw .restart 0

def fields028_0 : List Fld :=
  [SHOTn_LENGTH, SHOTn_GROUP_INDEX, SHOTn_ZERO_TAU0, SHOTn_POINT_CFG_SPACING, SHOTn_POINT_CFG_REF_POINTS, SHOTn_COMB_CFG_POL, SHOTn_COMB_CFG_TAU, SHOTn_COMB_MIN, SHOTn_CORR_CFG_FRONT_EN, SHOTn_CORR_CFG_JIT_EN, SHOTn_TRACE_CFG_CH, SHOTn_TRACE_CFG_RING, SHOTn_TRACE_CFG_FRAMES, SHOTn_TRACE_START, SHOTn_TRACE_LEN, SHOTn_SLOTk_MF_WIN, SHOTn_SLOTk_MF_SRC, SHOTn_SLOTk_MF_CSHIFT, SHOTn_SLOTk_MF_LEN, SHOTn_POINTS, SHOTn_STATUS_TRACE_ACTIVE, SHOTn_STATUS_TRACE_CLIPPED, SHOTn_SAT_SAMPLES, SHOTn_JIT_CLAMPS]

def fields028_1 : List Fld :=
  [SHOTn_JIT_APPLIED, SHOTn_COMB_REINITS, SHOTn_TRACE_FRAMES, SHOTn_TRACE_MISSED, SHOTn_SLOTk_NH_TAPS, SHOTn_SLOTk_NH_C, SHOTn_MF_INDEX_ADDR, SHOTn_MF_INDEX_SLOT, SHOTn_MF_DATA_I, SHOTn_MF_DATA_Q]

def fields028 : List Fld := fields028_0 ++ fields028_1

/-! ### page 0x02A -/

def PHZn_GAUGE_G : Fld := fld 0x02A 2 0x040 0 7 .rw .restart 8
def PHZn_WAVELENGTH : Fld := fld 0x02A 2 0x044 0 21 .rw .restart 0x17a728
def PHZn_XI : Fld := fld 0x02A 2 0x048 0 17 .rw .restart 0xc7ae
def PHZn_SR_CFG_SCALE : Fld := fld 0x02A 2 0x04C 0 16 .rw .restart 0x64
def PHZn_SR_CFG_WIDTH : Fld := fld 0x02A 2 0x04C 16 1 .rw .restart 0
def PHZn_UNWRAP_LIMIT : Fld := fld 0x02A 2 0x050 0 9 .rw .commit 0xc0
def PHZn_UNWRAP_GAP : Fld := fld 0x02A 2 0x050 16 8 .rw .commit 2
def PHZn_REF_CFG_EN : Fld := fld 0x02A 2 0x054 0 1 .rw .restart 0
def PHZn_REF_MIN : Fld := fld 0x02A 2 0x058 0 24 .rw .commit 0x1000
def PHZn_ALIGN_CFG_EN : Fld := fld 0x02A 2 0x05C 0 1 .rw .commit 1
def PHZn_ALIGN_CFG_CTAU : Fld := fld 0x02A 2 0x05C 4 4 .rw .commit 4
def PHZn_ALIGN_CFG_THRESH : Fld := fld 0x02A 2 0x05C 8 8 .rw .commit 3
def PHZn_AMP_CFG_ATAU : Fld := fld 0x02A 2 0x060 0 4 .rw .commit 4
def PHZn_AMP_CFG_FADE_DEPTH : Fld := fld 0x02A 2 0x060 8 6 .rw .commit 6
def PHZn_QUAL_CFG_QUAL_DEC : Fld := fld 0x02A 2 0x064 0 4 .rw .commit 6
def PHZn_CHG_CFG_FRAMES : Fld := fld 0x02A 2 0x068 0 8 .rw .commit 8
def PHZn_SR_GAIN : Fld := fld 0x02A 2 0x800 0 32 .ro .none 0
def PHZn_STRAIN_K : Fld := fld 0x02A 2 0x804 0 32 .ro .none 0
def PHZn_STATUS_SR_GAIN_SAT : Fld := fld 0x02A 2 0x808 0 1 .ro .none 0
def PHZn_STATUS_SETTLING : Fld := fld 0x02A 2 0x808 1 1 .ro .none 0
def PHZn_SLIPS : Fld := fld 0x02A 2 0x80C 0 32 .rc .none 0
def PHZn_RESTARTS : Fld := fld 0x02A 2 0x810 0 32 .rc .none 0
def PHZn_REF_WEAK : Fld := fld 0x02A 2 0x814 0 32 .rc .none 0
def PHZn_ALIGN_STEPS : Fld := fld 0x02A 2 0x818 0 32 .rc .none 0
def PHZn_SR_SAT : Fld := fld 0x02A 2 0x81C 0 32 .rc .none 0
def PHZn_REF_INDEX : Fld := fld 0x02A 2 0xC00 0 3 .rw .now 0
def PHZn_REF_ACC_LO : Fld := fld 0x02A 2 0xC04 0 32 .ro .none 0
def PHZn_REF_ACC_HI : Fld := fld 0x02A 2 0xC08 0 8 .ro .none 0
def PHZn_REF_RHO : Fld := fld 0x02A 2 0xC0C 0 24 .ro .none 0

def fields02A_0 : List Fld :=
  [PHZn_GAUGE_G, PHZn_WAVELENGTH, PHZn_XI, PHZn_SR_CFG_SCALE, PHZn_SR_CFG_WIDTH, PHZn_UNWRAP_LIMIT, PHZn_UNWRAP_GAP, PHZn_REF_CFG_EN, PHZn_REF_MIN, PHZn_ALIGN_CFG_EN, PHZn_ALIGN_CFG_CTAU, PHZn_ALIGN_CFG_THRESH, PHZn_AMP_CFG_ATAU, PHZn_AMP_CFG_FADE_DEPTH, PHZn_QUAL_CFG_QUAL_DEC, PHZn_CHG_CFG_FRAMES, PHZn_SR_GAIN, PHZn_STRAIN_K, PHZn_STATUS_SR_GAIN_SAT, PHZn_STATUS_SETTLING, PHZn_SLIPS, PHZn_RESTARTS, PHZn_REF_WEAK, PHZn_ALIGN_STEPS]

def fields02A_1 : List Fld :=
  [PHZn_SR_SAT, PHZn_REF_INDEX, PHZn_REF_ACC_LO, PHZn_REF_ACC_HI, PHZn_REF_RHO]

def fields02A : List Fld := fields02A_0 ++ fields02A_1

/-! ### page 0x02C -/

def SLOWn_CIC_ORDER : Fld := fld 0x02C 2 0x040 0 3 .rw .restart 1
def SLOWn_CIC_RATIO : Fld := fld 0x02C 2 0x040 8 7 .rw .restart 1
def SLOWn_CIC_SHIFT : Fld := fld 0x02C 2 0x040 16 6 .rw .restart 0
def SLOWn_FIR_CFG_TAPS : Fld := fld 0x02C 2 0x044 0 10 .rw .restart 1
def SLOWn_FIR_CFG_DEC : Fld := fld 0x02C 2 0x044 16 5 .rw .restart 1
def SLOWn_FIR_CFG_POLICY : Fld := fld 0x02C 2 0x044 24 1 .rw .restart 0
def SLOWn_FIR_CFG_BANK : Fld := fld 0x02C 2 0x044 25 1 .rw .commit 0
def SLOWn_FIR_SCALE_SHIFT : Fld := fld 0x02C 2 0x048 0 5 .rw .commit 0xf
def SLOWn_FIR_SCALE_GD : Fld := fld 0x02C 2 0x048 8 12 .rw .commit 0
def SLOWn_OUT_WIDTH : Fld := fld 0x02C 2 0x04C 0 2 .rw .restart 1
def SLOWn_RS_CFG_EN : Fld := fld 0x02C 2 0x050 0 1 .rw .restart 0
def SLOWn_RS_CFG_LOCK : Fld := fld 0x02C 2 0x050 1 1 .rw .restart 0
def SLOWn_RS_PERIOD : Fld := fld 0x02C 2 0x054 0 32 .rw .restart 0xf4240
def SLOWn_CT_FRAMES : Fld := fld 0x02C 2 0x058 0 16 .rw .restart 0x1000
def SLOWn_STATUS_BANK_ACTIVE : Fld := fld 0x02C 2 0x800 0 1 .ro .none 0
def SLOWn_STATUS_BANK_BUSY : Fld := fld 0x02C 2 0x800 1 2 .ro .none 1
def SLOWn_STATUS_SWAP_PENDING : Fld := fld 0x02C 2 0x800 3 1 .ro .none 0
def SLOWn_OVERLAP : Fld := fld 0x02C 2 0x804 0 16 .ro .none 0
def SLOWn_GROUP_DELAY : Fld := fld 0x02C 2 0x808 0 32 .ro .none 0
def SLOWn_CIC_SAT : Fld := fld 0x02C 2 0x80C 0 32 .rc .none 0
def SLOWn_OUT_SAT : Fld := fld 0x02C 2 0x810 0 32 .rc .none 0
def SLOWn_COEF_REJECTS : Fld := fld 0x02C 2 0x814 0 32 .rc .none 0
def SLOWn_SWAP_TICK : Fld := fld 0x02C 2 0x818 0 32 .ro .none 0
def SLOWn_RS_REALIGNS : Fld := fld 0x02C 2 0x81C 0 32 .rc .none 0
def SLOWn_RS_SKIPPED : Fld := fld 0x02C 2 0x820 0 32 .rc .none 0
def SLOWn_COEF_INDEX_ADDR : Fld := fld 0x02C 2 0xC00 0 9 .rw .now 0
def SLOWn_COEF_INDEX_BANK : Fld := fld 0x02C 2 0xC00 9 1 .rw .now 0
def SLOWn_COEF_DATA : Fld := fld 0x02C 2 0xC04 0 16 .rw .now 0
def SLOWn_COEF_SUM : Fld := fld 0x02C 2 0xC08 0 18 .ro .none 0x7fff

def fields02C_0 : List Fld :=
  [SLOWn_CIC_ORDER, SLOWn_CIC_RATIO, SLOWn_CIC_SHIFT, SLOWn_FIR_CFG_TAPS, SLOWn_FIR_CFG_DEC, SLOWn_FIR_CFG_POLICY, SLOWn_FIR_CFG_BANK, SLOWn_FIR_SCALE_SHIFT, SLOWn_FIR_SCALE_GD, SLOWn_OUT_WIDTH, SLOWn_RS_CFG_EN, SLOWn_RS_CFG_LOCK, SLOWn_RS_PERIOD, SLOWn_CT_FRAMES, SLOWn_STATUS_BANK_ACTIVE, SLOWn_STATUS_BANK_BUSY, SLOWn_STATUS_SWAP_PENDING, SLOWn_OVERLAP, SLOWn_GROUP_DELAY, SLOWn_CIC_SAT, SLOWn_OUT_SAT, SLOWn_COEF_REJECTS, SLOWn_SWAP_TICK, SLOWn_RS_REALIGNS]

def fields02C_1 : List Fld :=
  [SLOWn_RS_SKIPPED, SLOWn_COEF_INDEX_ADDR, SLOWn_COEF_INDEX_BANK, SLOWn_COEF_DATA, SLOWn_COEF_SUM]

def fields02C : List Fld := fields02C_0 ++ fields02C_1

/-! ### page 0x030 -/

def DTS_SCHED_M : Fld := fld 0x030 1 0x040 0 8 .rw .restart 1
def DTS_OFFSET : Fld := fld 0x030 1 0x044 0 21 .rw .restart 0
def DTS_PULSE_WIDTH : Fld := fld 0x030 1 0x048 0 16 .rw .restart 0x14
def DTS_CFG_BIN : Fld := fld 0x030 1 0x04C 0 3 .rw .restart 0
def DTS_CFG_PRE : Fld := fld 0x030 1 0x04C 4 13 .rw .restart 0
def DTS_CFG_BASE_N : Fld := fld 0x030 1 0x04C 20 9 .rw .restart 0
def DTS_AVG_SHOTS : Fld := fld 0x030 1 0x050 0 27 .rw .commit 0x3e8
def DTS_GAMMA : Fld := fld 0x030 1 0x054 0 20 .rw .commit 0x9b078
def DTS_Ln_TAU0 : Fld := (fld 0x030 1 0x080 0 16 .rw .restart 0).arr 0x40 2
def DTS_Ln_LNC : Fld := (fld 0x030 1 0x084 0 32 .rw .commit 0).arr 0x40 2
def DTS_Ln_DALPHA : Fld := (fld 0x030 1 0x088 0 32 .rw .commit 0).arr 0x40 2
def DTS_Ln_TRACE_MODE : Fld := (fld 0x030 1 0x08C 0 2 .rw .commit 0).arr 0x40 2
def DTS_Ln_TRACE_SMOOTH : Fld := (fld 0x030 1 0x08C 4 3 .rw .commit 0).arr 0x40 2
def DTS_Ln_REFj_START : Fld := ((fld 0x030 1 0x090 0 19 .rw .commit 0).arr 0x40 2).arr2 0x8 2
def DTS_Ln_REFj_AUX : Fld := ((fld 0x030 1 0x090 24 3 .rw .commit 0).arr 0x40 2).arr2 0x8 2
def DTS_Ln_REFj_EN : Fld := ((fld 0x030 1 0x090 31 1 .rw .commit 0).arr 0x40 2).arr2 0x8 2
def DTS_Ln_REFj_END : Fld := ((fld 0x030 1 0x094 0 19 .rw .commit 0).arr 0x40 2).arr2 0x8 2
def DTS_Ln_LNC_USED : Fld := (fld 0x030 1 0x800 0 32 .ro .none 0).arr 0x40 2
def DTS_Ln_DALPHA_USED : Fld := (fld 0x030 1 0x804 0 32 .ro .none 0).arr 0x40 2
def DTS_Ln_STATUS_LAST : Fld := (fld 0x030 1 0x808 0 16 .ro .none 0).arr 0x40 2
def DTS_Ln_STATUS_ACCUMULATING : Fld := (fld 0x030 1 0x808 16 1 .ro .none 0).arr 0x40 2
def DTS_Ln_PERIODS : Fld := (fld 0x030 1 0x80C 0 32 .rc .none 0).arr 0x40 2
def DTS_Ln_DARK_SHOTS : Fld := (fld 0x030 1 0x810 0 32 .rc .none 0).arr 0x40 2
def DTS_Ln_INVALID : Fld := (fld 0x030 1 0x814 0 32 .rc .none 0).arr 0x40 2
def DTS_Ln_REF_HOLDS : Fld := (fld 0x030 1 0x818 0 32 .rc .none 0).arr 0x40 2
def DTS_Ln_RESIDUALj : Fld := ((fld 0x030 1 0x81C 0 32 .ro .none 0).arr 0x40 2).arr2 0x4 2
def DTS_Ln_SHOTS : Fld := (fld 0x030 1 0x824 0 27 .ro .none 0).arr 0x40 2

def fields030_0 : List Fld :=
  [DTS_SCHED_M, DTS_OFFSET, DTS_PULSE_WIDTH, DTS_CFG_BIN, DTS_CFG_PRE, DTS_CFG_BASE_N, DTS_AVG_SHOTS, DTS_GAMMA, DTS_Ln_TAU0, DTS_Ln_LNC, DTS_Ln_DALPHA, DTS_Ln_TRACE_MODE, DTS_Ln_TRACE_SMOOTH, DTS_Ln_REFj_START, DTS_Ln_REFj_AUX, DTS_Ln_REFj_EN, DTS_Ln_REFj_END, DTS_Ln_LNC_USED, DTS_Ln_DALPHA_USED, DTS_Ln_STATUS_LAST, DTS_Ln_STATUS_ACCUMULATING, DTS_Ln_PERIODS, DTS_Ln_DARK_SHOTS, DTS_Ln_INVALID]

def fields030_1 : List Fld :=
  [DTS_Ln_REF_HOLDS, DTS_Ln_RESIDUALj, DTS_Ln_SHOTS]

def fields030 : List Fld := fields030_0 ++ fields030_1

/-! ### page 0x031 -/

def AUX_CFG_EN : Fld := fld 0x031 1 0x040 0 1 .rw .now 0
def AUX_CFG_SCAN_EN : Fld := fld 0x031 1 0x040 1 1 .rw .now 0
def AUX_CFG_REV_DWELL : Fld := fld 0x031 1 0x040 8 7 .rw .now 0x14
def AUX_MAINS_PERIOD : Fld := fld 0x031 1 0x044 0 25 .rw .now 0x1312d00
def AUX_SCAN_INTERVAL : Fld := fld 0x031 1 0x048 0 24 .rw .now 0
def AUX_SETTLE_TIME : Fld := fld 0x031 1 0x04C 0 10 .rw .now 0xc8
def AUX_REQ_R : Fld := fld 0x031 1 0x050 0 3 .wo .now 0
def AUX_REQ_GO : Fld := fld 0x031 1 0x050 3 1 .wo .now 0
def AUX_SRCs_CODE : Fld := (fld 0x031 1 0x060 0 3 .rw .now 0).arr 0x4 4
def AUX_SRCs_HI : Fld := (fld 0x031 1 0x060 4 4 .rw .now 0xf).arr 0x4 4
def AUX_SRCs_LO : Fld := (fld 0x031 1 0x060 8 4 .rw .now 0xf).arr 0x4 4
def AUX_Rr_CFG_EN : Fld := (fld 0x031 1 0x100 0 1 .rw .now 0).arr 0x20 8
def AUX_Rr_CFG_SCAN : Fld := (fld 0x031 1 0x100 1 1 .rw .now 0).arr 0x20 8
def AUX_Rr_CFG_START : Fld := (fld 0x031 1 0x100 2 1 .rw .now 0).arr 0x20 8
def AUX_Rr_CFG_IN_P : Fld := (fld 0x031 1 0x100 4 4 .rw .now 0xa).arr 0x20 8
def AUX_Rr_CFG_IN_N : Fld := (fld 0x031 1 0x100 8 4 .rw .now 0xa).arr 0x20 8
def AUX_Rr_CFG_REF : Fld := (fld 0x031 1 0x100 12 1 .rw .now 0).arr 0x20 8
def AUX_Rr_CFG_GAIN : Fld := (fld 0x031 1 0x100 13 2 .rw .now 0).arr 0x20 8
def AUX_Rr_CFG_REV : Fld := (fld 0x031 1 0x100 15 1 .rw .now 0).arr 0x20 8
def AUX_Rr_CFG_EXC : Fld := (fld 0x031 1 0x100 16 4 .rw .now 0).arr 0x20 8
def AUX_Rr_CFG_NPLC : Fld := (fld 0x031 1 0x100 20 8 .rw .now 1).arr 0x20 8
def AUX_Rr_LIN_CURVE : Fld := (fld 0x031 1 0x104 0 4 .rw .now 0).arr 0x20 8
def AUX_Rr_LIN_CJ : Fld := (fld 0x031 1 0x104 4 4 .rw .now 8).arr 0x20 8
def AUX_Rr_ZREF : Fld := (fld 0x031 1 0x108 0 32 .rw .now 0).arr 0x20 8
def AUX_Rr_OFFSET : Fld := (fld 0x031 1 0x10C 0 32 .rw .now 0).arr 0x20 8
def AUX_Rr_SH_A : Fld := (fld 0x031 1 0x110 0 32 .rw .now 0).arr 0x20 8
def AUX_Rr_SH_B : Fld := (fld 0x031 1 0x114 0 32 .rw .now 0).arr 0x20 8
def AUX_Rr_SH_C : Fld := (fld 0x031 1 0x118 0 32 .rw .now 0).arr 0x20 8
def AUX_STATUS_STATE : Fld := fld 0x031 1 0x800 0 3 .ro .none 0
def AUX_STATUS_CUR_R : Fld := fld 0x031 1 0x800 4 3 .ro .none 0
def AUX_STATUS_SETTLING : Fld := fld 0x031 1 0x800 8 4 .ro .none 0
def AUX_STATUS_COMPLY : Fld := fld 0x031 1 0x800 12 4 .ro .none 0
def AUX_STATUS_START_PENDING : Fld := fld 0x031 1 0x800 16 1 .ro .none 0
def AUX_STATUS_REQ_PENDING : Fld := fld 0x031 1 0x800 17 1 .ro .none 0
def AUX_DROPPED : Fld := fld 0x031 1 0x804 0 32 .rc .none 0
def AUX_DROP_LAST_CAUSE : Fld := fld 0x031 1 0x808 0 1 .ro .none 0
def AUX_DROP_LAST_KIND : Fld := fld 0x031 1 0x808 1 1 .ro .none 0
def AUX_UNSETTLED : Fld := fld 0x031 1 0x80C 0 32 .rc .none 0
def AUX_CONVERSIONS : Fld := fld 0x031 1 0x810 0 32 .rc .none 0
def AUX_RESr_VALUE : Fld := (fld 0x031 1 0x840 0 32 .ro .none 0).arr 0x20 8
def AUX_RESr_RAW : Fld := (fld 0x031 1 0x844 0 24 .ro .none 0).arr 0x20 8
def AUX_RESr_META : Fld := (fld 0x031 1 0x848 0 32 .ro .none 0).arr 0x20 8
def AUX_RESr_END_LO : Fld := (fld 0x031 1 0x84C 0 32 .ro .none 0).arr 0x20 8
def AUX_RESr_END_HI : Fld := (fld 0x031 1 0x850 0 32 .ro .none 0).arr 0x20 8
def AUX_RESr_SEQ : Fld := (fld 0x031 1 0x854 0 32 .ro .none 0).arr 0x20 8

def fields031_0 : List Fld :=
  [AUX_CFG_EN, AUX_CFG_SCAN_EN, AUX_CFG_REV_DWELL, AUX_MAINS_PERIOD, AUX_SCAN_INTERVAL, AUX_SETTLE_TIME, AUX_REQ_R, AUX_REQ_GO, AUX_SRCs_CODE, AUX_SRCs_HI, AUX_SRCs_LO, AUX_Rr_CFG_EN, AUX_Rr_CFG_SCAN, AUX_Rr_CFG_START, AUX_Rr_CFG_IN_P, AUX_Rr_CFG_IN_N, AUX_Rr_CFG_REF, AUX_Rr_CFG_GAIN, AUX_Rr_CFG_REV, AUX_Rr_CFG_EXC, AUX_Rr_CFG_NPLC, AUX_Rr_LIN_CURVE, AUX_Rr_LIN_CJ, AUX_Rr_ZREF]

def fields031_1 : List Fld :=
  [AUX_Rr_OFFSET, AUX_Rr_SH_A, AUX_Rr_SH_B, AUX_Rr_SH_C, AUX_STATUS_STATE, AUX_STATUS_CUR_R, AUX_STATUS_SETTLING, AUX_STATUS_COMPLY, AUX_STATUS_START_PENDING, AUX_STATUS_REQ_PENDING, AUX_DROPPED, AUX_DROP_LAST_CAUSE, AUX_DROP_LAST_KIND, AUX_UNSETTLED, AUX_CONVERSIONS, AUX_RESr_VALUE, AUX_RESr_RAW, AUX_RESr_META, AUX_RESr_END_LO, AUX_RESr_END_HI, AUX_RESr_SEQ]

def fields031 : List Fld := fields031_0 ++ fields031_1

/-! ### page 0x038 -/

def ZONE_COUNT_N : Fld := fld 0x038 1 0x040 0 13 .rw .commit 0
def ZONE_EVT_FLUSH : Fld := fld 0x038 1 0x044 0 24 .rw .commit 0x2710
def ZONE_FDd_CFG_STAT : Fld := (fld 0x038 1 0x100 0 3 .rw .commit 0).arr 0x8 64
def ZONE_FDd_CFG_AGG : Fld := (fld 0x038 1 0x100 4 2 .rw .commit 0).arr 0x8 64
def ZONE_FDd_CFG_WIN : Fld := (fld 0x038 1 0x100 8 4 .rw .commit 8).arr 0x8 64
def ZONE_FDd_BAND_LO : Fld := (fld 0x038 1 0x104 0 11 .rw .commit 1).arr 0x8 64
def ZONE_FDd_BAND_HI : Fld := (fld 0x038 1 0x104 16 11 .rw .commit 1).arr 0x8 64
def ZONE_STATUS_LOAD_HELD : Fld := fld 0x038 1 0x800 0 1 .ro .none 0
def ZONE_STATUS_RANGE_ERR : Fld := fld 0x038 1 0x800 1 1 .ro .none 0
def ZONE_STATUS_SET_ERR : Fld := fld 0x038 1 0x800 2 1 .ro .none 0
def ZONE_STATUS_CAP_ERR : Fld := fld 0x038 1 0x800 3 1 .ro .none 0
def ZONE_LOAD : Fld := fld 0x038 1 0x804 0 32 .ro .none 0
def ZONE_AGG : Fld := fld 0x038 1 0x808 0 17 .ro .none 0
def ZONE_HELD_FIRST : Fld := fld 0x038 1 0x80C 0 13 .ro .none 0
def ZONE_TABLE_BLOCK_Ln : Fld := (fld 0x038 1 0x810 0 32 .ro .none 0).arr 0x4 2
def ZONE_EVENT_SEQ : Fld := fld 0x038 1 0x818 0 32 .ro .none 0
def ZONE_EVENTS : Fld := fld 0x038 1 0x81C 0 32 .rc .none 0
def ZONE_EVENTS_IN_SEG : Fld := fld 0x038 1 0x820 0 32 .rc .none 0
def ZONE_TAIL_DROPS : Fld := fld 0x038 1 0x824 0 32 .rc .none 0
def ZONE_INDEX_ENTRY : Fld := fld 0x038 1 0xC00 0 12 .rw .now 0
def ZONE_INDEX_WORD : Fld := fld 0x038 1 0xC00 12 4 .rw .now 0
def ZONE_INDEX_TABLE : Fld := fld 0x038 1 0xC00 16 1 .rw .now 0
def ZONE_DATA : Fld := fld 0x038 1 0xC04 0 32 .rw .commit 0

def fields038_0 : List Fld :=
  [ZONE_COUNT_N, ZONE_EVT_FLUSH, ZONE_FDd_CFG_STAT, ZONE_FDd_CFG_AGG, ZONE_FDd_CFG_WIN, ZONE_FDd_BAND_LO, ZONE_FDd_BAND_HI, ZONE_STATUS_LOAD_HELD, ZONE_STATUS_RANGE_ERR, ZONE_STATUS_SET_ERR, ZONE_STATUS_CAP_ERR, ZONE_LOAD, ZONE_AGG, ZONE_HELD_FIRST, ZONE_TABLE_BLOCK_Ln, ZONE_EVENT_SEQ, ZONE_EVENTS, ZONE_EVENTS_IN_SEG, ZONE_TAIL_DROPS, ZONE_INDEX_ENTRY, ZONE_INDEX_WORD, ZONE_INDEX_TABLE, ZONE_DATA]

def fields038 : List Fld := fields038_0

/-! ### page 0x039 -/

def CAPT_SEG_SIZE : Fld := fld 0x039 1 0x040 0 5 .rw .restart 0x12
def CAPT_Ln_HIST_SRC : Fld := (fld 0x039 1 0x044 0 2 .rw .restart 0).arr 0x4 2
def CAPT_THR_EN : Fld := fld 0x039 1 0x04C 0 1 .rw .commit 1
def CAPT_THR_MAX : Fld := fld 0x039 1 0x04C 1 3 .rw .commit 4
def CAPT_THR_DWELL : Fld := fld 0x039 1 0x04C 4 10 .rw .commit 0xa
def CAPT_THR_HI : Fld := fld 0x039 1 0x050 0 24 .rw .commit 0x400000
def CAPT_THR_LO : Fld := fld 0x039 1 0x054 0 24 .rw .commit 0x200000
def CAPT_HOLD_TIMEOUT : Fld := fld 0x039 1 0x058 0 24 .rw .commit 0
def CAPT_RELEASE : Fld := fld 0x039 1 0x060 0 32 .wo .now 0
def CAPT_STATUS_THROTTLE : Fld := fld 0x039 1 0x800 0 3 .ro .none 0
def CAPT_SEG_COUNT : Fld := fld 0x039 1 0x804 0 17 .ro .none 0
def CAPT_SEG_FREE : Fld := fld 0x039 1 0x808 0 17 .ro .none 0
def CAPT_BACKLOG : Fld := fld 0x039 1 0x80C 0 24 .ro .none 0
def CAPT_Ln_HIST_DEPTH : Fld := (fld 0x039 1 0x810 0 32 .ro .none 0).arr 0x4 2
def CAPT_SEGMENTS : Fld := fld 0x039 1 0x818 0 32 .rc .none 0
def CAPT_POOL_EMPTY : Fld := fld 0x039 1 0x81C 0 32 .rc .none 0
def CAPT_TRUNCATED : Fld := fld 0x039 1 0x820 0 32 .rc .none 0
def CAPT_CLAMPED : Fld := fld 0x039 1 0x824 0 32 .rc .none 0
def CAPT_PRE_SHORT : Fld := fld 0x039 1 0x828 0 32 .rc .none 0
def CAPT_THROTTLE_STEPS : Fld := fld 0x039 1 0x82C 0 32 .rc .none 0
def CAPT_HOLD_EXPIRED : Fld := fld 0x039 1 0x830 0 32 .rc .none 0
def CAPT_RELEASE_REJECTS : Fld := fld 0x039 1 0x834 0 32 .rc .none 0
def CAPT_SEG_INDEX : Fld := fld 0x039 1 0xC00 0 16 .rw .now 0
def CAPT_SEG_STATE_STATE : Fld := fld 0x039 1 0xC04 0 2 .ro .none 0
def CAPT_SEG_STATE_HOLD : Fld := fld 0x039 1 0xC04 4 3 .ro .none 0
def CAPT_SEG_STATE_ZONE : Fld := fld 0x039 1 0xC04 16 12 .ro .none 0
def CAPT_SEG_ID : Fld := fld 0x039 1 0xC08 0 32 .ro .none 0

def fields039_0 : List Fld :=
  [CAPT_SEG_SIZE, CAPT_Ln_HIST_SRC, CAPT_THR_EN, CAPT_THR_MAX, CAPT_THR_DWELL, CAPT_THR_HI, CAPT_THR_LO, CAPT_HOLD_TIMEOUT, CAPT_RELEASE, CAPT_STATUS_THROTTLE, CAPT_SEG_COUNT, CAPT_SEG_FREE, CAPT_BACKLOG, CAPT_Ln_HIST_DEPTH, CAPT_SEGMENTS, CAPT_POOL_EMPTY, CAPT_TRUNCATED, CAPT_CLAMPED, CAPT_PRE_SHORT, CAPT_THROTTLE_STEPS, CAPT_HOLD_EXPIRED, CAPT_RELEASE_REJECTS, CAPT_SEG_INDEX, CAPT_SEG_STATE_STATE]

def fields039_1 : List Fld :=
  [CAPT_SEG_STATE_HOLD, CAPT_SEG_STATE_ZONE, CAPT_SEG_ID]

def fields039 : List Fld := fields039_0 ++ fields039_1

/-! ### page 0x040 -/

def ZCn_CTRL_START : Fld := fld 0x040 64 0x040 0 1 .wo .now 0
def ZCn_CTRL_HALT_REQ : Fld := fld 0x040 64 0x040 1 1 .wo .now 0
def ZCn_CTRL_STEP : Fld := fld 0x040 64 0x040 2 1 .wo .now 0
def ZCn_CTRL_CLR_FAULT : Fld := fld 0x040 64 0x040 3 1 .wo .now 0
def ZCn_ENTRY : Fld := fld 0x040 64 0x044 0 13 .rw .now 0
def ZCn_VECTOR : Fld := fld 0x040 64 0x048 0 13 .rw .now 0x10
def ZCn_BKPT_ADDR : Fld := fld 0x040 64 0x04C 0 13 .rw .now 0
def ZCn_BKPT_EN : Fld := fld 0x040 64 0x04C 31 1 .rw .now 0
def ZCn_FRING_BASE : Fld := fld 0x040 64 0x050 0 12 .rw .now 0
def ZCn_FRING_EN : Fld := fld 0x040 64 0x050 31 1 .rw .now 0
def ZCn_FRING_LEN : Fld := fld 0x040 64 0x054 0 13 .rw .now 0
def ZCn_STATUS_STATE : Fld := fld 0x040 64 0x800 0 3 .ro .none 0
def ZCn_STATUS_FAULT : Fld := fld 0x040 64 0x800 4 4 .ro .none 0
def ZCn_STATUS_BKPT_HIT : Fld := fld 0x040 64 0x800 8 1 .ro .none 0
def ZCn_PC : Fld := fld 0x040 64 0x804 0 13 .ro .none 0
def ZCn_FAULT_PC : Fld := fld 0x040 64 0x808 0 13 .ro .none 0
def ZCn_FAULT_INFO_ADDR : Fld := fld 0x040 64 0x80C 0 12 .ro .none 0
def ZCn_FAULT_INFO_MEM : Fld := fld 0x040 64 0x80C 12 2 .ro .none 0
def ZCn_CYCLES_LO : Fld := fld 0x040 64 0x810 0 32 .ro .none 0
def ZCn_CYCLES_HI : Fld := fld 0x040 64 0x814 0 8 .ro .none 0
def ZCn_EVQ_COUNT : Fld := fld 0x040 64 0x818 0 7 .ro .none 0
def ZCn_EVQ_DROPS : Fld := fld 0x040 64 0x81C 0 32 .rc .none 0
def ZCn_FEAT_DROPS : Fld := fld 0x040 64 0x820 0 32 .rc .none 0
def ZCn_REL_REJECTS : Fld := fld 0x040 64 0x824 0 32 .rc .none 0
def ZCn_VERDICTS : Fld := fld 0x040 64 0x828 0 32 .rc .none 0
def ZCn_VD_DROPS : Fld := fld 0x040 64 0x82C 0 32 .rc .none 0
def ZCn_LOAD_REJECTS : Fld := fld 0x040 64 0x830 0 32 .rc .none 0
def ZCn_MEM_INDEX_ADDR : Fld := fld 0x040 64 0xC00 0 13 .rw .now 0
def ZCn_MEM_INDEX_MEM : Fld := fld 0x040 64 0xC00 16 2 .rw .now 0
def ZCn_MEM_DATA_LO : Fld := fld 0x040 64 0xC04 0 32 .rw .now 0
def ZCn_MEM_DATA_HI : Fld := fld 0x040 64 0xC08 0 8 .rw .now 0

def fields040_0 : List Fld :=
  [ZCn_CTRL_START, ZCn_CTRL_HALT_REQ, ZCn_CTRL_STEP, ZCn_CTRL_CLR_FAULT, ZCn_ENTRY, ZCn_VECTOR, ZCn_BKPT_ADDR, ZCn_BKPT_EN, ZCn_FRING_BASE, ZCn_FRING_EN, ZCn_FRING_LEN, ZCn_STATUS_STATE, ZCn_STATUS_FAULT, ZCn_STATUS_BKPT_HIT, ZCn_PC, ZCn_FAULT_PC, ZCn_FAULT_INFO_ADDR, ZCn_FAULT_INFO_MEM, ZCn_CYCLES_LO, ZCn_CYCLES_HI, ZCn_EVQ_COUNT, ZCn_EVQ_DROPS, ZCn_FEAT_DROPS, ZCn_REL_REJECTS]

def fields040_1 : List Fld :=
  [ZCn_VERDICTS, ZCn_VD_DROPS, ZCn_LOAD_REJECTS, ZCn_MEM_INDEX_ADDR, ZCn_MEM_INDEX_MEM, ZCn_MEM_DATA_LO, ZCn_MEM_DATA_HI]

def fields040 : List Fld := fields040_0 ++ fields040_1

/-! ### page 0x080 -/

def CMP_CHAIN_TIMEOUT : Fld := fld 0x080 1 0x040 0 20 .rw .now 0x186a0
def CMP_STATUS_ENGINE : Fld := fld 0x080 1 0x800 0 18 .ro .none 0
def CMP_LOAD : Fld := fld 0x080 1 0x804 0 16 .ro .none 0
def CMP_BUF_TOTAL : Fld := fld 0x080 1 0x808 0 20 .ro .none 0
def CMP_BUF_FREE : Fld := fld 0x080 1 0x80C 0 20 .ro .none 0
def CMP_SLOTS : Fld := fld 0x080 1 0x810 0 11 .ro .none 0
def CMP_RECORDS : Fld := fld 0x080 1 0x814 0 32 .rc .none 0
def CMP_RAW_BLOCKS : Fld := fld 0x080 1 0x818 0 32 .rc .none 0
def CMP_CHAIN_EMPTY : Fld := fld 0x080 1 0x81C 0 32 .rc .none 0
def CMP_PAUSE_DROPS : Fld := fld 0x080 1 0x820 0 32 .rc .none 0
def CMP_ABANDONED : Fld := fld 0x080 1 0x824 0 32 .rc .none 0
def CMP_RESETS : Fld := fld 0x080 1 0x828 0 32 .rc .none 0
def CMP_CTX_INDEX : Fld := fld 0x080 1 0xC00 0 10 .rw .now 0
def CMP_CTXc_CFG_STREAM_ID : Fld := fld 0x080 1 0xC04 0 16 .ro .none 0
def CMP_CTXc_CFG_PRED : Fld := fld 0x080 1 0xC04 16 3 .rw .now 4
def CMP_CTXc_CFG_AUTO : Fld := fld 0x080 1 0xC04 19 1 .rw .now 1
def CMP_CTXc_CFG_PASS : Fld := fld 0x080 1 0xC04 20 1 .rw .now 0
def CMP_CTXc_CFG_BOUND : Fld := fld 0x080 1 0xC04 21 1 .ro .none 0
def CMP_CTXc_CFG_RESYNC : Fld := fld 0x080 1 0xC04 24 8 .rw .now 0
def CMP_CTXc_QUOTA : Fld := fld 0x080 1 0xC08 0 16 .rw .now 0x40
def CMP_CTXc_CTRL_RESET : Fld := fld 0x080 1 0xC0C 0 1 .wo .now 0
def CMP_CTXc_STATUS_STATE : Fld := fld 0x080 1 0xC10 0 3 .ro .none 0
def CMP_CTXc_STATUS_HIST : Fld := fld 0x080 1 0xC10 3 1 .ro .none 0
def CMP_CTXc_STATUS_ENGINE : Fld := fld 0x080 1 0xC10 8 3 .ro .none 0
def CMP_CTXc_SEQ : Fld := fld 0x080 1 0xC14 0 32 .ro .none 0
def CMP_CTXc_BUFS : Fld := fld 0x080 1 0xC18 0 16 .ro .none 0

def fields080_0 : List Fld :=
  [CMP_CHAIN_TIMEOUT, CMP_STATUS_ENGINE, CMP_LOAD, CMP_BUF_TOTAL, CMP_BUF_FREE, CMP_SLOTS, CMP_RECORDS, CMP_RAW_BLOCKS, CMP_CHAIN_EMPTY, CMP_PAUSE_DROPS, CMP_ABANDONED, CMP_RESETS, CMP_CTX_INDEX, CMP_CTXc_CFG_STREAM_ID, CMP_CTXc_CFG_PRED, CMP_CTXc_CFG_AUTO, CMP_CTXc_CFG_PASS, CMP_CTXc_CFG_BOUND, CMP_CTXc_CFG_RESYNC, CMP_CTXc_QUOTA, CMP_CTXc_CTRL_RESET, CMP_CTXc_STATUS_STATE, CMP_CTXc_STATUS_HIST, CMP_CTXc_STATUS_ENGINE]

def fields080_1 : List Fld :=
  [CMP_CTXc_SEQ, CMP_CTXc_BUFS]

def fields080 : List Fld := fields080_0 ++ fields080_1

/-! ### page 0x081 -/

def DCMP_Ee_SRC_LO : Fld := (fld 0x081 1 0x040 0 32 .rw .now 0).arr 0x40 2
def DCMP_Ee_SRC_HI : Fld := (fld 0x081 1 0x044 0 32 .rw .now 0).arr 0x40 2
def DCMP_Ee_SRC_LEN : Fld := (fld 0x081 1 0x048 0 32 .rw .now 0).arr 0x40 2
def DCMP_Ee_DST_LO : Fld := (fld 0x081 1 0x04C 0 32 .rw .now 0).arr 0x40 2
def DCMP_Ee_DST_HI : Fld := (fld 0x081 1 0x050 0 32 .rw .now 0).arr 0x40 2
def DCMP_Ee_DST_LEN : Fld := (fld 0x081 1 0x054 0 32 .rw .now 0).arr 0x40 2
def DCMP_Ee_CFG_CTX : Fld := (fld 0x081 1 0x058 0 10 .rw .now 0).arr 0x40 2
def DCMP_Ee_CFG_SRC_SPACE : Fld := (fld 0x081 1 0x058 12 1 .rw .now 0).arr 0x40 2
def DCMP_Ee_CFG_VERIFY_ONLY : Fld := (fld 0x081 1 0x058 13 1 .rw .now 0).arr 0x40 2
def DCMP_Ee_CFG_KEEP : Fld := (fld 0x081 1 0x058 14 1 .rw .now 0).arr 0x40 2
def DCMP_Ee_CTRL_GO : Fld := (fld 0x081 1 0x05C 0 1 .wo .now 0).arr 0x40 2
def DCMP_Ee_CTRL_ABORT : Fld := (fld 0x081 1 0x05C 1 1 .wo .now 0).arr 0x40 2
def DCMP_Ee_CTRL_CLEAR : Fld := (fld 0x081 1 0x05C 2 1 .wo .now 0).arr 0x40 2
def DCMP_Ee_STATUS_STATE : Fld := (fld 0x081 1 0x800 0 2 .ro .none 0).arr 0x40 2
def DCMP_Ee_STATUS_ERR_CODE : Fld := (fld 0x081 1 0x800 8 8 .ro .none 0).arr 0x40 2
def DCMP_Ee_RECORDS : Fld := (fld 0x081 1 0x804 0 32 .ro .none 0).arr 0x40 2
def DCMP_Ee_CONSUMED : Fld := (fld 0x081 1 0x808 0 32 .ro .none 0).arr 0x40 2
def DCMP_Ee_PRODUCED : Fld := (fld 0x081 1 0x80C 0 32 .ro .none 0).arr 0x40 2
def DCMP_Ee_ERR_OFFSET : Fld := (fld 0x081 1 0x810 0 32 .ro .none 0).arr 0x40 2
def DCMP_Ee_CHECK_FAILS : Fld := (fld 0x081 1 0x814 0 32 .rc .none 0).arr 0x40 2
def DCMP_Ee_NO_HIST : Fld := (fld 0x081 1 0x818 0 32 .rc .none 0).arr 0x40 2
def DCMP_Ee_LAST_SEQ : Fld := (fld 0x081 1 0x81C 0 32 .ro .none 0).arr 0x40 2

def fields081_0 : List Fld :=
  [DCMP_Ee_SRC_LO, DCMP_Ee_SRC_HI, DCMP_Ee_SRC_LEN, DCMP_Ee_DST_LO, DCMP_Ee_DST_HI, DCMP_Ee_DST_LEN, DCMP_Ee_CFG_CTX, DCMP_Ee_CFG_SRC_SPACE, DCMP_Ee_CFG_VERIFY_ONLY, DCMP_Ee_CFG_KEEP, DCMP_Ee_CTRL_GO, DCMP_Ee_CTRL_ABORT, DCMP_Ee_CTRL_CLEAR, DCMP_Ee_STATUS_STATE, DCMP_Ee_STATUS_ERR_CODE, DCMP_Ee_RECORDS, DCMP_Ee_CONSUMED, DCMP_Ee_PRODUCED, DCMP_Ee_ERR_OFFSET, DCMP_Ee_CHECK_FAILS, DCMP_Ee_NO_HIST, DCMP_Ee_LAST_SEQ]

def fields081 : List Fld := fields081_0

/-! ### page 0x088 -/

def MEMC0_REGION_INDEX : Fld := fld 0x088 1 0xC00 0 3 .rw .now 0
def MEMC0_REGION_BASE : Fld := fld 0x088 1 0xC04 0 18 .rw .restart 0
def MEMC0_REGION_SIZE : Fld := fld 0x088 1 0xC08 0 18 .rw .restart 0
/-! ### page 0x088 -/

def MEMCn_CFG_PRESENT : Fld := fld 0x088 2 0x040 0 1 .rw .restart 0
def MEMCn_CFG_WIDTH : Fld := fld 0x088 2 0x040 1 1 .rw .restart 0
def MEMCn_CFG_RANKS : Fld := fld 0x088 2 0x040 2 1 .rw .restart 0
def MEMCn_CFG_DENSITY : Fld := fld 0x088 2 0x040 3 1 .rw .restart 0
def MEMCn_CFG_RDIMM : Fld := fld 0x088 2 0x040 4 1 .rw .restart 1
def MEMCn_CFG_MIRROR : Fld := fld 0x088 2 0x040 5 1 .rw .restart 0
def MEMCn_CFG_SPEED : Fld := fld 0x088 2 0x040 6 2 .rw .restart 0
def MEMCn_CFG_ORDER : Fld := fld 0x088 2 0x040 8 2 .rw .restart 2
def MEMCn_CFG_REF_2X : Fld := fld 0x088 2 0x040 10 1 .rw .now 0
def MEMCn_SCHED_AGE_LIMIT : Fld := fld 0x088 2 0x044 0 16 .rw .now 0x7d0
def MEMCn_NRR_K : Fld := fld 0x088 2 0x048 0 5 .rw .now 0xa
def MEMCn_SCRUB_PERIOD : Fld := fld 0x088 2 0x04C 0 8 .rw .now 0x18
def MEMCn_SCRUB_AGE : Fld := fld 0x088 2 0x050 0 16 .rw .now 0x3e8
def MEMCn_TRAIN_EYE_MIN : Fld := fld 0x088 2 0x054 0 9 .rw .restart 0x64
def MEMCn_UNIT_THRESH : Fld := fld 0x088 2 0x058 0 16 .rw .now 0x40
def MEMCn_CTRL_TRAIN : Fld := fld 0x088 2 0x05C 0 1 .wo .now 0
def MEMCn_STATUS_TRAINED : Fld := fld 0x088 2 0x800 0 1 .ro .none 0
def MEMCn_STATUS_READY : Fld := fld 0x088 2 0x800 1 1 .ro .none 0
def MEMCn_STATUS_EXCLUDED : Fld := fld 0x088 2 0x800 2 1 .ro .none 0
def MEMCn_STATUS_TRAIN_FAIL : Fld := fld 0x088 2 0x800 4 3 .ro .none 0
def MEMCn_STATUS_FAIL_LANE : Fld := fld 0x088 2 0x800 8 4 .ro .none 0
def MEMCn_STATUS_REGION_ERR : Fld := fld 0x088 2 0x800 12 3 .ro .none 0
def MEMCn_STATUS_REGION_ERR_V : Fld := fld 0x088 2 0x800 15 1 .ro .none 0
def MEMCn_STATUS_FAILING : Fld := fld 0x088 2 0x800 16 6 .ro .none 0
def MEMCn_CAPACITY : Fld := fld 0x088 2 0x804 0 17 .ro .none 0
def MEMCn_CE : Fld := fld 0x088 2 0x808 0 32 .rc .none 0
def MEMCn_UE : Fld := fld 0x088 2 0x80C 0 32 .rc .none 0
def MEMCn_ERR_ADDR_LO : Fld := fld 0x088 2 0x810 0 32 .ro .none 0
def MEMCn_ERR_ADDR_HI : Fld := fld 0x088 2 0x814 0 5 .ro .none 0
def MEMCn_ERR_LAST_UNIT : Fld := fld 0x088 2 0x818 0 5 .ro .none 0
def MEMCn_ERR_LAST_RANK : Fld := fld 0x088 2 0x818 5 1 .ro .none 0
def MEMCn_ERR_LAST_SRC : Fld := fld 0x088 2 0x818 6 2 .ro .none 0
def MEMCn_ERR_LAST_UE : Fld := fld 0x088 2 0x818 8 1 .ro .none 0
def MEMCn_REF_FORCED : Fld := fld 0x088 2 0x81C 0 32 .rc .none 0
def MEMCn_NRR_ISSUED : Fld := fld 0x088 2 0x820 0 32 .rc .none 0
def MEMCn_PROMOTED : Fld := fld 0x088 2 0x824 0 32 .rc .none 0
def MEMCn_SCRUB_PASSES : Fld := fld 0x088 2 0x828 0 32 .rc .none 0
def MEMCn_SCRUB_URGENT : Fld := fld 0x088 2 0x82C 0 32 .rc .none 0
def MEMCn_BW_RD : Fld := fld 0x088 2 0x830 0 16 .ro .none 0
def MEMCn_BW_WR : Fld := fld 0x088 2 0x834 0 16 .ro .none 0
def MEMCn_EYE_l_RD : Fld := (fld 0x088 2 0x840 0 9 .ro .none 0).arr 0x4 9
def MEMCn_EYE_l_WR : Fld := (fld 0x088 2 0x840 16 9 .ro .none 0).arr 0x4 9
def MEMCn_UNIT_INDEX_UNIT : Fld := fld 0x088 2 0xC10 0 5 .rw .now 0
def MEMCn_UNIT_INDEX_RANK : Fld := fld 0x088 2 0xC10 5 1 .rw .now 0
def MEMCn_UNIT_CE : Fld := fld 0x088 2 0xC14 0 32 .rc .none 0

def fields088_0 : List Fld :=
  [MEMCn_CFG_PRESENT, MEMCn_CFG_WIDTH, MEMCn_CFG_RANKS, MEMCn_CFG_DENSITY, MEMCn_CFG_RDIMM, MEMCn_CFG_MIRROR, MEMCn_CFG_SPEED, MEMCn_CFG_ORDER, MEMCn_CFG_REF_2X, MEMCn_SCHED_AGE_LIMIT, MEMCn_NRR_K, MEMCn_SCRUB_PERIOD, MEMCn_SCRUB_AGE, MEMCn_TRAIN_EYE_MIN, MEMCn_UNIT_THRESH, MEMCn_CTRL_TRAIN, MEMCn_STATUS_TRAINED, MEMCn_STATUS_READY, MEMCn_STATUS_EXCLUDED, MEMCn_STATUS_TRAIN_FAIL, MEMCn_STATUS_FAIL_LANE, MEMCn_STATUS_REGION_ERR, MEMCn_STATUS_REGION_ERR_V, MEMCn_STATUS_FAILING]

def fields088_1 : List Fld :=
  [MEMCn_CAPACITY, MEMCn_CE, MEMCn_UE, MEMCn_ERR_ADDR_LO, MEMCn_ERR_ADDR_HI, MEMCn_ERR_LAST_UNIT, MEMCn_ERR_LAST_RANK, MEMCn_ERR_LAST_SRC, MEMCn_ERR_LAST_UE, MEMCn_REF_FORCED, MEMCn_NRR_ISSUED, MEMCn_PROMOTED, MEMCn_SCRUB_PASSES, MEMCn_SCRUB_URGENT, MEMCn_BW_RD, MEMCn_BW_WR, MEMCn_EYE_l_RD, MEMCn_EYE_l_WR, MEMCn_UNIT_INDEX_UNIT, MEMCn_UNIT_INDEX_RANK, MEMCn_UNIT_CE]

def fields088 : List Fld := fields088_0 ++ fields088_1

/-! ### page 0x090 -/

def STRM_CFG_EN : Fld := fld 0x090 1 0x040 0 1 .rw .now 0
def STRM_CFG_AUTH_REQUIRE : Fld := fld 0x090 1 0x040 1 1 .rw .now 0
def STRM_CFG_ETH_BUDGET : Fld := fld 0x090 1 0x040 8 8 .rw .now 0x50
def STRM_LEASE_MAX : Fld := fld 0x090 1 0x044 0 12 .rw .now 0xe10
def STRM_BUSY_RETRY : Fld := fld 0x090 1 0x048 0 16 .rw .now 0x1f4
def STRM_JOIN_HOLDOFF : Fld := fld 0x090 1 0x04C 0 16 .rw .now 0x64
def STRM_ADMIT_FACTOR : Fld := fld 0x090 1 0x050 0 10 .rw .now 0x100
def STRM_PCIE_BUDGET : Fld := fld 0x090 1 0x054 0 16 .rw .now 0x2ee0
def STRM_MEM_PCT : Fld := fld 0x090 1 0x058 0 7 .rw .now 0x4b
def STRM_SUBS : Fld := fld 0x090 1 0x800 0 9 .ro .none 0
def STRM_STREAMS : Fld := fld 0x090 1 0x804 0 11 .ro .none 0
def STRM_REFUSED : Fld := fld 0x090 1 0x808 0 32 .rc .none 0
def STRM_LAST_REFUSE_REASON : Fld := fld 0x090 1 0x80C 0 8 .ro .none 0
def STRM_LAST_REFUSE_PATH : Fld := fld 0x090 1 0x80C 8 2 .ro .none 0
def STRM_BUSY_REPLIES : Fld := fld 0x090 1 0x810 0 32 .rc .none 0
def STRM_AUTH_FAILS : Fld := fld 0x090 1 0x814 0 32 .rc .none 0
def STRM_BAD_MSGS : Fld := fld 0x090 1 0x818 0 32 .rc .none 0
def STRM_EXPIRED : Fld := fld 0x090 1 0x81C 0 32 .rc .none 0
def STRM_GAP_DROPS : Fld := fld 0x090 1 0x820 0 32 .rc .none 0
def STRM_INDEX_ENTRY : Fld := fld 0x090 1 0xC00 0 8 .rw .now 0
def STRM_INDEX_WORD : Fld := fld 0x090 1 0xC00 8 4 .rw .now 0
def STRM_INDEX_TABLE : Fld := fld 0x090 1 0xC00 16 1 .rw .now 0
def STRM_DATA : Fld := fld 0x090 1 0xC04 0 32 .wo .now 0

def fields090_0 : List Fld :=
  [STRM_CFG_EN, STRM_CFG_AUTH_REQUIRE, STRM_CFG_ETH_BUDGET, STRM_LEASE_MAX, STRM_BUSY_RETRY, STRM_JOIN_HOLDOFF, STRM_ADMIT_FACTOR, STRM_PCIE_BUDGET, STRM_MEM_PCT, STRM_SUBS, STRM_STREAMS, STRM_REFUSED, STRM_LAST_REFUSE_REASON, STRM_LAST_REFUSE_PATH, STRM_BUSY_REPLIES, STRM_AUTH_FAILS, STRM_BAD_MSGS, STRM_EXPIRED, STRM_GAP_DROPS, STRM_INDEX_ENTRY, STRM_INDEX_WORD, STRM_INDEX_TABLE, STRM_DATA]

def fields090 : List Fld := fields090_0

/-! ### page 0x091 -/

def ETHn_CFG_EN : Fld := fld 0x091 2 0x040 0 1 .rw .now 0
def ETHn_CFG_SPEED : Fld := fld 0x091 2 0x040 1 1 .rw .now 0
def ETHn_CFG_FEC : Fld := fld 0x091 2 0x040 2 1 .rw .now 1
def ETHn_CFG_VLAN_EN : Fld := fld 0x091 2 0x040 3 1 .rw .now 0
def ETHn_CFG_VLAN_ID : Fld := fld 0x091 2 0x040 4 12 .rw .now 0
def ETHn_CFG_VLAN_PCP : Fld := fld 0x091 2 0x040 16 3 .rw .now 0
def ETHn_MTU : Fld := fld 0x091 2 0x044 0 14 .rw .now 0x5ee
def ETHn_MAC_LO : Fld := fld 0x091 2 0x048 0 32 .rw .now 0
def ETHn_MAC_HI : Fld := fld 0x091 2 0x04C 0 16 .rw .now 0
def ETHn_IP_CFG_V4 : Fld := fld 0x091 2 0x050 0 2 .rw .now 0
def ETHn_IP_CFG_V6 : Fld := fld 0x091 2 0x050 2 2 .rw .now 0
def ETHn_IPV4_ADDR : Fld := fld 0x091 2 0x054 0 32 .rw .now 0
def ETHn_IPV4_PREFIX : Fld := fld 0x091 2 0x058 0 6 .rw .now 0x18
def ETHn_IPV4_GW : Fld := fld 0x091 2 0x05C 0 32 .rw .now 0
def ETHn_IPV6_ADDRi : Fld := (fld 0x091 2 0x060 0 32 .rw .now 0).arr 0x4 4
def ETHn_IPV6_PREFIX : Fld := fld 0x091 2 0x070 0 8 .rw .now 0x40
def ETHn_MCAST_TTL : Fld := fld 0x091 2 0x074 0 8 .rw .now 0x10
def ETHn_TX_AGE : Fld := fld 0x091 2 0x078 0 16 .rw .now 0x3e8
def ETHn_TX_QUANTUM : Fld := fld 0x091 2 0x07C 0 14 .rw .now 0x2400
def ETHn_STATUS_LINK : Fld := fld 0x091 2 0x800 0 1 .ro .none 0
def ETHn_STATUS_FEC_LOCK : Fld := fld 0x091 2 0x800 1 1 .ro .none 0
def ETHn_STATUS_V4_BOUND : Fld := fld 0x091 2 0x800 2 1 .ro .none 0
def ETHn_STATUS_V6_BOUND : Fld := fld 0x091 2 0x800 3 1 .ro .none 0
def ETHn_TX_FRAMES : Fld := fld 0x091 2 0x804 0 32 .rc .none 0
def ETHn_RX_DROPPED : Fld := fld 0x091 2 0x808 0 32 .rc .none 0
def ETHn_RX_FCS_ERR : Fld := fld 0x091 2 0x80C 0 32 .rc .none 0
def ETHn_FEC_UNCORR : Fld := fld 0x091 2 0x810 0 32 .rc .none 0
def ETHn_PAUSE_RX : Fld := fld 0x091 2 0x814 0 32 .rc .none 0
def ETHn_TX_PROMOTED : Fld := fld 0x091 2 0x818 0 32 .rc .none 0
def ETHn_LINK_DOWNS : Fld := fld 0x091 2 0x81C 0 32 .rc .none 0
def ETHn_TX_RATE : Fld := fld 0x091 2 0x820 0 16 .ro .none 0

def fields091_0 : List Fld :=
  [ETHn_CFG_EN, ETHn_CFG_SPEED, ETHn_CFG_FEC, ETHn_CFG_VLAN_EN, ETHn_CFG_VLAN_ID, ETHn_CFG_VLAN_PCP, ETHn_MTU, ETHn_MAC_LO, ETHn_MAC_HI, ETHn_IP_CFG_V4, ETHn_IP_CFG_V6, ETHn_IPV4_ADDR, ETHn_IPV4_PREFIX, ETHn_IPV4_GW, ETHn_IPV6_ADDRi, ETHn_IPV6_PREFIX, ETHn_MCAST_TTL, ETHn_TX_AGE, ETHn_TX_QUANTUM, ETHn_STATUS_LINK, ETHn_STATUS_FEC_LOCK, ETHn_STATUS_V4_BOUND, ETHn_STATUS_V6_BOUND, ETHn_TX_FRAMES]

def fields091_1 : List Fld :=
  [ETHn_RX_DROPPED, ETHn_RX_FCS_ERR, ETHn_FEC_UNCORR, ETHn_PAUSE_RX, ETHn_TX_PROMOTED, ETHn_LINK_DOWNS, ETHn_TX_RATE]

def fields091 : List Fld := fields091_0 ++ fields091_1

/-! ### page 0x093 -/

def PTP_CFG_EN : Fld := fld 0x093 1 0x040 0 1 .rw .now 0
def PTP_CFG_PORT : Fld := fld 0x093 1 0x040 1 1 .rw .now 0
def PTP_CFG_TRANSPORT : Fld := fld 0x093 1 0x040 2 1 .rw .now 0
def PTP_CFG_ROLE : Fld := fld 0x093 1 0x040 3 2 .rw .now 0
def PTP_CFG_DISCIPLINE : Fld := fld 0x093 1 0x040 5 1 .rw .now 1
def PTP_DOMAIN : Fld := fld 0x093 1 0x044 0 8 .rw .now 0
def PTP_PRIORITY_P1 : Fld := fld 0x093 1 0x048 0 8 .rw .now 0x80
def PTP_PRIORITY_P2 : Fld := fld 0x093 1 0x048 8 8 .rw .now 0x80
def PTP_INTERVALS_LOG_SYNC : Fld := fld 0x093 1 0x04C 0 8 .rw .now 0
def PTP_INTERVALS_LOG_ANNOUNCE : Fld := fld 0x093 1 0x04C 8 8 .rw .now 1
def PTP_INTERVALS_LOG_DELAY_REQ : Fld := fld 0x093 1 0x04C 16 8 .rw .now 0
def PTP_ANNOUNCE_TIMEOUT : Fld := fld 0x093 1 0x050 0 4 .rw .now 3
def PTP_ASYM : Fld := fld 0x093 1 0x054 0 16 .rw .now 0
def PTP_STATUS_STATE : Fld := fld 0x093 1 0x800 0 4 .ro .none 3
def PTP_OFFSET : Fld := fld 0x093 1 0x804 0 32 .ro .none 0
def PTP_PATH_DELAY : Fld := fld 0x093 1 0x808 0 32 .ro .none 0
def PTP_GM_ID_LO : Fld := fld 0x093 1 0x80C 0 32 .ro .none 0
def PTP_GM_ID_HI : Fld := fld 0x093 1 0x810 0 32 .ro .none 0
def PTP_ANNOUNCE_TIMEOUTS : Fld := fld 0x093 1 0x814 0 32 .rc .none 0
def PTP_STEPS : Fld := fld 0x093 1 0x818 0 32 .rc .none 0

def fields093_0 : List Fld :=
  [PTP_CFG_EN, PTP_CFG_PORT, PTP_CFG_TRANSPORT, PTP_CFG_ROLE, PTP_CFG_DISCIPLINE, PTP_DOMAIN, PTP_PRIORITY_P1, PTP_PRIORITY_P2, PTP_INTERVALS_LOG_SYNC, PTP_INTERVALS_LOG_ANNOUNCE, PTP_INTERVALS_LOG_DELAY_REQ, PTP_ANNOUNCE_TIMEOUT, PTP_ASYM, PTP_STATUS_STATE, PTP_OFFSET, PTP_PATH_DELAY, PTP_GM_ID_LO, PTP_GM_ID_HI, PTP_ANNOUNCE_TIMEOUTS, PTP_STEPS]

def fields093 : List Fld := fields093_0

/-! ### page 0x098 -/

def DMA_CFG_RO_EN : Fld := fld 0x098 1 0x040 0 1 .rw .now 0
def DMA_CFG_L1_HOLD : Fld := fld 0x098 1 0x040 1 1 .rw .now 0
def DMA_WAKE_AGE : Fld := fld 0x098 1 0x044 0 16 .rw .now 0x64
def DMA_WIN_BASE : Fld := fld 0x098 1 0x048 0 18 .rw .now 0
def DMA_STATUS_SPEED : Fld := fld 0x098 1 0x800 0 3 .ro .none 0
def DMA_STATUS_WIDTH : Fld := fld 0x098 1 0x800 4 4 .ro .none 0
def DMA_STATUS_LINK_UP : Fld := fld 0x098 1 0x800 8 1 .ro .none 0
def DMA_STATUS_LSTATE : Fld := fld 0x098 1 0x800 9 2 .ro .none 0
def DMA_STATUS_WAKE : Fld := fld 0x098 1 0x800 11 1 .ro .none 0
def DMA_STATUS_L2_KEEP : Fld := fld 0x098 1 0x800 12 1 .ro .none 0
def DMA_TAGS : Fld := fld 0x098 1 0x804 0 9 .ro .none 0
def DMA_WIN_REJECTS : Fld := fld 0x098 1 0x808 0 32 .rc .none 0
def DMA_PME_SENT : Fld := fld 0x098 1 0x80C 0 32 .rc .none 0
def DMA_WAKES : Fld := fld 0x098 1 0x810 0 32 .rc .none 0
def DMA_TX_RATE : Fld := fld 0x098 1 0x814 0 16 .ro .none 0

def fields098_0 : List Fld :=
  [DMA_CFG_RO_EN, DMA_CFG_L1_HOLD, DMA_WAKE_AGE, DMA_WIN_BASE, DMA_STATUS_SPEED, DMA_STATUS_WIDTH, DMA_STATUS_LINK_UP, DMA_STATUS_LSTATE, DMA_STATUS_WAKE, DMA_STATUS_L2_KEEP, DMA_TAGS, DMA_WIN_REJECTS, DMA_PME_SENT, DMA_WAKES, DMA_TX_RATE]

def fields098 : List Fld := fields098_0

/-! ### page 0x0A0 -/

def ICU_STRAND_TIME : Fld := fld 0x0A0 1 0x040 0 16 .rw .now 0x3e8
def ICU_SW_SET : Fld := fld 0x0A0 1 0x044 0 10 .wo .now 0
def ICU_STRANDED : Fld := fld 0x0A0 1 0x800 0 32 .rc .none 0
def ICU_FAULTS : Fld := fld 0x0A0 1 0x804 0 32 .rc .none 0
def ICU_FAULT_LAST_VALUE : Fld := fld 0x0A0 1 0x808 0 11 .ro .none 0
def ICU_FAULT_LAST_TARGET : Fld := fld 0x0A0 1 0x808 16 7 .ro .none 0
def ICU_FAULT_LAST_CAUSE : Fld := fld 0x0A0 1 0x808 24 2 .ro .none 0
def ICU_STRAND_LAST_SOURCE : Fld := fld 0x0A0 1 0x80C 0 10 .ro .none 0
def ICU_STRAND_LAST_FROM : Fld := fld 0x0A0 1 0x80C 16 7 .ro .none 0
def ICU_STRAND_LAST_TO : Fld := fld 0x0A0 1 0x80C 24 7 .ro .none 0
def ICU_SRC_INDEX : Fld := fld 0x0A0 1 0xC00 0 10 .rw .now 0
def ICU_SRC_CFG_ROUTE : Fld := fld 0x0A0 1 0xC04 0 7 .rw .now 0
def ICU_SRC_CFG_FALLBACK : Fld := fld 0x0A0 1 0xC04 8 7 .rw .now 1
def ICU_SRC_CFG_PRIO : Fld := fld 0x0A0 1 0xC04 16 4 .rw .now 0
def ICU_SRC_STATE_PENDING : Fld := fld 0x0A0 1 0xC08 0 1 .ro .none 0
def ICU_SRC_STATE_CLAIMED : Fld := fld 0x0A0 1 0xC08 1 1 .ro .none 0
def ICU_SRC_STATE_ASSERTED : Fld := fld 0x0A0 1 0xC08 2 1 .ro .none 0
def ICU_SRC_STATE_STRANDED : Fld := fld 0x0A0 1 0xC08 3 1 .ro .none 0
def ICU_SRC_STATE_AT : Fld := fld 0x0A0 1 0xC08 8 7 .ro .none 0

def fields0A0_0 : List Fld :=
  [ICU_STRAND_TIME, ICU_SW_SET, ICU_STRANDED, ICU_FAULTS, ICU_FAULT_LAST_VALUE, ICU_FAULT_LAST_TARGET, ICU_FAULT_LAST_CAUSE, ICU_STRAND_LAST_SOURCE, ICU_STRAND_LAST_FROM, ICU_STRAND_LAST_TO, ICU_SRC_INDEX, ICU_SRC_CFG_ROUTE, ICU_SRC_CFG_FALLBACK, ICU_SRC_CFG_PRIO, ICU_SRC_STATE_PENDING, ICU_SRC_STATE_CLAIMED, ICU_SRC_STATE_ASSERTED, ICU_SRC_STATE_STRANDED, ICU_SRC_STATE_AT]

def fields0A0 : List Fld := fields0A0_0

/-! ### page 0x0A8 -/

def MBOX_INDEX_WORD : Fld := fld 0x0A8 1 0xC00 0 8 .rw .now 0
def MBOX_INDEX_BUF : Fld := fld 0x0A8 1 0xC00 8 1 .rw .now 0
def MBOX_DATA : Fld := fld 0x0A8 1 0xC04 0 32 .rw .now 0
def MBOX_DOORBELL_GO : Fld := fld 0x0A8 1 0xC08 0 1 .wo .now 0
def MBOX_STATUS_BUSY : Fld := fld 0x0A8 1 0xC0C 0 1 .ro .none 0
def MBOX_STATUS_DONE : Fld := fld 0x0A8 1 0xC0C 1 1 .ro .none 0
def MBOX_STATUS_REJECTS : Fld := fld 0x0A8 1 0xC0C 16 16 .ro .none 0
def MGMT_SMB_ADDR : Fld := fld 0x0A8 1 0x040 0 7 .rw .now 0x4c
def MGMT_SMB_EN : Fld := fld 0x0A8 1 0x040 7 1 .rw .now 1
def MGMT_UART_BAUD : Fld := fld 0x0A8 1 0x044 0 24 .rw .now 0x1c200
def MGMT_GPIO_DIR : Fld := fld 0x0A8 1 0x048 0 16 .rw .now 0
def MGMT_GPIO_OUT : Fld := fld 0x0A8 1 0x04C 0 16 .rw .now 0
def MGMT_GPIO_IRQ : Fld := fld 0x0A8 1 0x050 0 32 .rw .now 0
def MGMT_WDT_TIMEOUT : Fld := fld 0x0A8 1 0x054 0 16 .rw .now 0x3e8
def MGMT_GPIO_IN : Fld := fld 0x0A8 1 0x800 0 16 .ro .none 0
def MGMT_FW_VERSION : Fld := fld 0x0A8 1 0x804 0 32 .ro .none 0
def MGMT_FW_SVN : Fld := fld 0x0A8 1 0x808 0 32 .ro .none 0
def MGMT_BOOT_STATUS_SLOT : Fld := fld 0x0A8 1 0x80C 0 1 .ro .none 0
def MGMT_BOOT_STATUS_FALLBACK : Fld := fld 0x0A8 1 0x80C 1 1 .ro .none 0
def MGMT_BOOT_STATUS_FAIL_A : Fld := fld 0x0A8 1 0x80C 4 3 .ro .none 0
def MGMT_BOOT_STATUS_FAIL_B : Fld := fld 0x0A8 1 0x80C 8 3 .ro .none 0
def MGMT_BOOT_STATUS_RESIDENT : Fld := fld 0x0A8 1 0x80C 12 1 .ro .none 1
def MGMT_BOOT_STATUS_COPY_FAIL : Fld := fld 0x0A8 1 0x80C 13 1 .ro .none 0
def MGMT_WDT_RESETS : Fld := fld 0x0A8 1 0x810 0 32 .rc .none 0
def MGMT_MCHECKS : Fld := fld 0x0A8 1 0x814 0 32 .rc .none 0
def MGMT_FLASH_STATUS_BUSY : Fld := fld 0x0A8 1 0x818 0 1 .ro .none 0

def fields0A8_0 : List Fld :=
  [MBOX_INDEX_WORD, MBOX_INDEX_BUF, MBOX_DATA, MBOX_DOORBELL_GO, MBOX_STATUS_BUSY, MBOX_STATUS_DONE, MBOX_STATUS_REJECTS, MGMT_SMB_ADDR, MGMT_SMB_EN, MGMT_UART_BAUD, MGMT_GPIO_DIR, MGMT_GPIO_OUT, MGMT_GPIO_IRQ, MGMT_WDT_TIMEOUT, MGMT_GPIO_IN, MGMT_FW_VERSION, MGMT_FW_SVN, MGMT_BOOT_STATUS_SLOT, MGMT_BOOT_STATUS_FALLBACK, MGMT_BOOT_STATUS_FAIL_A, MGMT_BOOT_STATUS_FAIL_B, MGMT_BOOT_STATUS_RESIDENT, MGMT_BOOT_STATUS_COPY_FAIL, MGMT_WDT_RESETS]

def fields0A8_1 : List Fld :=
  [MGMT_MCHECKS, MGMT_FLASH_STATUS_BUSY]

def fields0A8 : List Fld := fields0A8_0 ++ fields0A8_1

/-! ### page 0x0B0 -/

def TWIN_CFG_EN : Fld := fld 0x0B0 1 0x040 0 1 .rw .now 0
def TWIN_CFG_AUTO : Fld := fld 0x0B0 1 0x040 1 1 .rw .now 1
def TWIN_CFG_TIME_FOLLOW : Fld := fld 0x0B0 1 0x040 2 1 .rw .now 1
def TWIN_CFG_ADDR_TAKE : Fld := fld 0x0B0 1 0x040 3 1 .rw .now 1
def TWIN_HB_N : Fld := fld 0x0B0 1 0x044 0 6 .rw .now 8
def TWIN_CLAIM_WAIT : Fld := fld 0x0B0 1 0x048 0 16 .rw .now 0x7530
def TWIN_MARK_FRAMES : Fld := fld 0x0B0 1 0x04C 0 8 .rw .now 8
def TWIN_NW_TESTS : Fld := fld 0x0B0 1 0x050 0 6 .rw .now 0x3f
def TWIN_NW_HOLD_HOURS : Fld := fld 0x0B0 1 0x050 8 8 .rw .now 0x18
def TWIN_NW_INJ_TOL : Fld := fld 0x0B0 1 0x054 0 16 .rw .now 0x32
def TWIN_ALIVE : Fld := fld 0x0B0 1 0x058 0 1 .wo .now 0
def TWIN_STATUS_ROLE : Fld := fld 0x0B0 1 0x800 0 2 .ro .none 0
def TWIN_STATUS_SIDE : Fld := fld 0x0B0 1 0x800 2 1 .ro .none 0
def TWIN_STATUS_LINK_UP : Fld := fld 0x0B0 1 0x800 3 1 .ro .none 0
def TWIN_STATUS_PEER_PRESENT : Fld := fld 0x0B0 1 0x800 4 1 .ro .none 0
def TWIN_STATUS_IN_STEP : Fld := fld 0x0B0 1 0x800 5 1 .ro .none 0
def TWIN_STATUS_ALIVE : Fld := fld 0x0B0 1 0x800 6 1 .ro .none 0
def TWIN_HEALTH : Fld := fld 0x0B0 1 0x804 0 32 .ro .none 0
def TWIN_PEER_HEALTH : Fld := fld 0x0B0 1 0x808 0 32 .ro .none 0
def TWIN_TAKEOVERS : Fld := fld 0x0B0 1 0x80C 0 32 .rc .none 0
def TWIN_TAKEOVER_FAILS : Fld := fld 0x0B0 1 0x810 0 32 .rc .none 0
def TWIN_HB_MISSED : Fld := fld 0x0B0 1 0x814 0 32 .rc .none 0
def TWIN_BACKOFFS : Fld := fld 0x0B0 1 0x818 0 32 .rc .none 0
def TWIN_MIRROR_RESENDS : Fld := fld 0x0B0 1 0x81C 0 32 .rc .none 0
def TWIN_LAST_TAKEOVER_CAUSE : Fld := fld 0x0B0 1 0x820 0 2 .ro .none 0
def TWIN_LAST_TAKEOVER_DURATION : Fld := fld 0x0B0 1 0x820 8 24 .ro .none 0
def TWIN_MIRROR_AGE : Fld := fld 0x0B0 1 0x824 0 16 .ro .none 0
def TWIN_NW_FAILS : Fld := fld 0x0B0 1 0x828 0 32 .rc .none 0

def fields0B0_0 : List Fld :=
  [TWIN_CFG_EN, TWIN_CFG_AUTO, TWIN_CFG_TIME_FOLLOW, TWIN_CFG_ADDR_TAKE, TWIN_HB_N, TWIN_CLAIM_WAIT, TWIN_MARK_FRAMES, TWIN_NW_TESTS, TWIN_NW_HOLD_HOURS, TWIN_NW_INJ_TOL, TWIN_ALIVE, TWIN_STATUS_ROLE, TWIN_STATUS_SIDE, TWIN_STATUS_LINK_UP, TWIN_STATUS_PEER_PRESENT, TWIN_STATUS_IN_STEP, TWIN_STATUS_ALIVE, TWIN_HEALTH, TWIN_PEER_HEALTH, TWIN_TAKEOVERS, TWIN_TAKEOVER_FAILS, TWIN_HB_MISSED, TWIN_BACKOFFS, TWIN_MIRROR_RESENDS]

def fields0B0_1 : List Fld :=
  [TWIN_LAST_TAKEOVER_CAUSE, TWIN_LAST_TAKEOVER_DURATION, TWIN_MIRROR_AGE, TWIN_NW_FAILS]

def fields0B0 : List Fld := fields0B0_0 ++ fields0B0_1

/-! ### page 0x0C0 -/

def DMACHn_CFG_MODE : Fld := fld 0x0C0 64 0x040 0 2 .rw .now 0
def DMACHn_CFG_DIR : Fld := fld 0x0C0 64 0x040 2 1 .rw .now 0
def DMACHn_CFG_RING_K : Fld := fld 0x0C0 64 0x040 4 5 .rw .now 0xc
def DMACHn_BASE_LO : Fld := fld 0x0C0 64 0x044 0 32 .rw .now 0
def DMACHn_BASE_HI : Fld := fld 0x0C0 64 0x048 0 32 .rw .now 0
def DMACHn_WB_LO : Fld := fld 0x0C0 64 0x04C 0 32 .rw .now 0
def DMACHn_WB_HI : Fld := fld 0x0C0 64 0x050 0 32 .rw .now 0
def DMACHn_MOD_COUNT : Fld := fld 0x0C0 64 0x054 0 11 .rw .now 1
def DMACHn_MOD_TIME : Fld := fld 0x0C0 64 0x054 16 16 .rw .now 0
def DMACHn_RP : Fld := fld 0x0C0 64 0x058 0 32 .rw .now 0
def DMACHn_CTRL_GO : Fld := fld 0x0C0 64 0x05C 0 1 .wo .now 0
def DMACHn_CTRL_ABORT : Fld := fld 0x0C0 64 0x05C 1 1 .wo .now 0
def DMACHn_CTRL_DB : Fld := fld 0x0C0 64 0x05C 2 1 .wo .now 0
def DMACHn_COPY_RA_LO : Fld := fld 0x0C0 64 0x060 0 32 .rw .now 0
def DMACHn_COPY_RA_HI : Fld := fld 0x0C0 64 0x064 0 5 .rw .now 0
def DMACHn_STATUS_STATE : Fld := fld 0x0C0 64 0x800 0 2 .ro .none 0
def DMACHn_STATUS_WAITING_RP : Fld := fld 0x0C0 64 0x800 2 1 .ro .none 0
def DMACHn_STATUS_WAITING_DESC : Fld := fld 0x0C0 64 0x800 3 1 .ro .none 0
def DMACHn_STATUS_WAITING_DATA : Fld := fld 0x0C0 64 0x800 4 1 .ro .none 0
def DMACHn_STATUS_BOUND : Fld := fld 0x0C0 64 0x800 5 1 .ro .none 0
def DMACHn_STATUS_ERR : Fld := fld 0x0C0 64 0x800 6 3 .ro .none 0
def DMACHn_WP : Fld := fld 0x0C0 64 0x804 0 32 .ro .none 0
def DMACHn_DESC_LO : Fld := fld 0x0C0 64 0x808 0 32 .ro .none 0
def DMACHn_DESC_HI : Fld := fld 0x0C0 64 0x80C 0 32 .ro .none 0
def DMACHn_DONE : Fld := fld 0x0C0 64 0x810 0 32 .ro .none 0
def DMACHn_HELD : Fld := fld 0x0C0 64 0x814 0 11 .ro .none 0
def DMACHn_RESIDUE : Fld := fld 0x0C0 64 0x818 0 32 .ro .none 0
def DMACHn_REJECTS : Fld := fld 0x0C0 64 0x81C 0 32 .rc .none 0
def DMACHn_GAP_DROPS : Fld := fld 0x0C0 64 0x820 0 32 .rc .none 0

def fields0C0_0 : List Fld :=
  [DMACHn_CFG_MODE, DMACHn_CFG_DIR, DMACHn_CFG_RING_K, DMACHn_BASE_LO, DMACHn_BASE_HI, DMACHn_WB_LO, DMACHn_WB_HI, DMACHn_MOD_COUNT, DMACHn_MOD_TIME, DMACHn_RP, DMACHn_CTRL_GO, DMACHn_CTRL_ABORT, DMACHn_CTRL_DB, DMACHn_COPY_RA_LO, DMACHn_COPY_RA_HI, DMACHn_STATUS_STATE, DMACHn_STATUS_WAITING_RP, DMACHn_STATUS_WAITING_DESC, DMACHn_STATUS_WAITING_DATA, DMACHn_STATUS_BOUND, DMACHn_STATUS_ERR, DMACHn_WP, DMACHn_DESC_LO, DMACHn_DESC_HI]

def fields0C0_1 : List Fld :=
  [DMACHn_DONE, DMACHn_HELD, DMACHn_RESIDUE, DMACHn_REJECTS, DMACHn_GAP_DROPS]

def fields0C0 : List Fld := fields0C0_0 ++ fields0C0_1

/-! ### page 0x200 -/

def ICUTt_THRESH : Fld := fld 0x200 66 0x040 0 4 .rw .now 0
def ICUTt_PRIV_EN : Fld := fld 0x200 66 0x044 0 32 .rw .now 0
def ICUTt_PRIV_PRIOj : Fld := (fld 0x200 66 0x048 0 32 .rw .now 0).arr 0x4 4
def ICUTt_SW_SET : Fld := fld 0x200 66 0x058 4 12 .w1s .now 0
def ICUTt_TIMER_LO : Fld := fld 0x200 66 0x05C 0 32 .rw .now 0
def ICUTt_TIMER_HI : Fld := fld 0x200 66 0x060 0 32 .rw .now 0
def ICUTt_WDT_SERVICE : Fld := fld 0x200 66 0x064 0 1 .wo .now 0
def ICUTt_CLAIM : Fld := fld 0x200 66 0x800 0 11 .ro .none 0x3ff
def ICUTt_COMPLETE : Fld := fld 0x200 66 0x804 0 11 .wo .now 0
def ICUTt_PRIV_PENDING : Fld := fld 0x200 66 0x808 0 32 .ro .none 0
def ICUTt_STACK_DEPTH : Fld := fld 0x200 66 0x80C 0 5 .ro .none 0
def ICUTt_STACK_TOP_PRIO : Fld := fld 0x200 66 0x80C 8 4 .ro .none 0
def ICUTt_STACK_TOP_VALUE : Fld := fld 0x200 66 0x80C 12 11 .ro .none 0x3ff
def ICUTt_STATUS_ONLINE : Fld := fld 0x200 66 0x810 0 1 .ro .none 0
def ICUTt_STATUS_REQUEST : Fld := fld 0x200 66 0x810 1 1 .ro .none 0
def ICUTt_FAULTS : Fld := fld 0x200 66 0x814 0 32 .rc .none 0
def ICUTt_STRANDED_FROM : Fld := fld 0x200 66 0x818 0 32 .rc .none 0

def fields200_0 : List Fld :=
  [ICUTt_THRESH, ICUTt_PRIV_EN, ICUTt_PRIV_PRIOj, ICUTt_SW_SET, ICUTt_TIMER_LO, ICUTt_TIMER_HI, ICUTt_WDT_SERVICE, ICUTt_CLAIM, ICUTt_COMPLETE, ICUTt_PRIV_PENDING, ICUTt_STACK_DEPTH, ICUTt_STACK_TOP_PRIO, ICUTt_STACK_TOP_VALUE, ICUTt_STATUS_ONLINE, ICUTt_STATUS_REQUEST, ICUTt_FAULTS, ICUTt_STRANDED_FROM]

def fields200 : List Fld := fields200_0

/-- The fields of the page `p`, header apart. -/
def pageFields (p : Nat) : List Fld :=
  if p = 0x000 then fields000 else
  if p = 0x010 then fields010 else
  if p = 0x011 then fields011 else
  if p = 0x012 then fields012 else
  if p = 0x013 then fields013 else
  if p = 0x014 then fields014 else
  if p = 0x015 then fields015 else
  if p = 0x018 then fields018 else
  if 0x01A ≤ p ∧ p ≤ 0x01B then fields01A else
  if 0x020 ≤ p ∧ p ≤ 0x021 then fields020 else
  if p = 0x022 then fields022 else
  if 0x028 ≤ p ∧ p ≤ 0x029 then fields028 else
  if 0x02A ≤ p ∧ p ≤ 0x02B then fields02A else
  if 0x02C ≤ p ∧ p ≤ 0x02D then fields02C else
  if p = 0x030 then fields030 else
  if p = 0x031 then fields031 else
  if p = 0x038 then fields038 else
  if p = 0x039 then fields039 else
  if 0x040 ≤ p ∧ p ≤ 0x07F then fields040 else
  if p = 0x080 then fields080 else
  if p = 0x081 then fields081 else
  if 0x088 ≤ p ∧ p ≤ 0x089 then fields088 else
  if p = 0x090 then fields090 else
  if 0x091 ≤ p ∧ p ≤ 0x092 then fields091 else
  if p = 0x093 then fields093 else
  if p = 0x098 then fields098 else
  if p = 0x0A0 then fields0A0 else
  if p = 0x0A8 then fields0A8 else
  if p = 0x0B0 then fields0B0 else
  if 0x0C0 ≤ p ∧ p ≤ 0x0FF then fields0C0 else
  if 0x200 ≤ p ∧ p ≤ 0x241 then fields200 else
  []

end Sys2Proof.Machine.Reg
end

