-- ==== Sys2Proof/Machine/State.lean ====
section
/-!
DEFINITION. The state of the XN6420 as plain data.

Registers are held field by field: `shadow` holds what was written (R546), `live` the value in force, `status` the RO,
RC and W1C fields. Everything the spec gives the device beside its registers is a named field of a block's structure.
`out` collects what leaves the device, newest first; it is the model's own record and no rule reads it.
-/

namespace Sys2Proof.Machine

/-- One thing for each lane, channel, port or engine of a pair. -/
structure Pair (α : Type) where
  fst : α
  snd : α
  deriving DecidableEq, Repr

/-- The member of a pair that a lane or channel number names. -/
def Pair.get {α : Type} (p : Pair α) (n : Fin 2) : α := if n = 0 then p.fst else p.snd

/-- The pair with one member replaced. -/
def Pair.set {α : Type} (p : Pair α) (n : Fin 2) (v : α) : Pair α := if n = 0 then { p with fst := v } else { p with snd := v }

/-! ### requesters and commits -/

/-- What is held for each requester (R19, R548, R549, R551): staged HI words, snapshots, window indices and VIEW_LIVE,
by address `page * 4096 + offset`, and the data of the last read. -/
structure ReqState where
  stage : List ((Requester × Nat) × Word) := []
  snap : List ((Requester × Nat) × Word) := []
  index : List ((Requester × Nat) × Word) := []
  viewLive : List (Requester × Nat) := []
  data : Word := 0
  deriving DecidableEq, Repr

/-- An accepted commit of a page (R33): when it was accepted, and whether a shadow word was written since. -/
structure Commit where
  page : Nat
  at_ : Time
  stale : Bool := false
  deriving DecidableEq, Repr

/-- A TICK write that waits for its tick (R7, R8, R523): when it was made, the field's key and value. -/
structure TickWrite where
  at_ : Time
  key : Nat
  value : Word
  deriving DecidableEq, Repr

/-- An interval that flags records (R374): the flag bit, its start, and its end once it has ended. -/
structure Cause where
  flag : Nat
  from_ : Time
  till : Option Time := none
  deriving DecidableEq, Repr

/-! ### records and outputs -/

/-- A record (R372) before compression: its header fields and its payload, the lead apart (R321). -/
structure Rec where
  product : Nat
  width : Nat
  sid : Nat := 0
  flags : Nat := 0
  time : Time := 0
  /-- The end of the covered interval (R374), and when the record was opened; no header fields. -/
  till : Time := 0
  born : Time := 0
  firstPoint : Word := 0
  pointCount : Nat := 0
  frameCount : Nat := 0
  /-- The segment that the record carries (R280). -/
  seg : Option Word := none
  lead : List Byte := []
  body : List Byte := []
  deriving DecidableEq, Repr

/-- What an injection source makes (R136). -/
inductive InjSource
  | tone (freq : Int)
  | replica (wave : List (Int × Int))
  | prbs
  /-- A SRC code that the spec does not name. -/
  | unnamed
  deriving DecidableEq, Repr

/-- An injection: the source, the mask of the channels it drives, the peak current in 0.1 µA. -/
structure InjDrive where
  source : InjSource
  chans : Nat
  amp : Nat
  deriving DecidableEq, Repr

/-- What a port puts around what it sends: its MAC address as source, the 802.1Q tag (identifier and priority) where VLAN_EN asks
for one (R395), and the hop limit of a multicast stream (R396). -/
structure Wire where
  mac : Nat
  tag : Option (Nat × Nat)
  hops : Option Nat
  deriving DecidableEq, Repr

/-- What leaves the device. -/
inductive Output
  /-- MERID_OUT rises at `t`, 8 ns or (`wide`) 24 ns wide (R41). -/
  | meridOut (t : Time) (wide : Bool)
  /-- PPS_OUT takes a level (R72). -/
  | ppsOut (t : Time) (high : Bool)
  /-- The gate pulse of a launch: its slots, when Ln_GATE starts to rise, the first DAC sample leaves, and the current starts to fall, and the
  gate current in 0.1 mA (R98 to R100). -/
  | launch (lane : Lane) (slots : List Nat) (rise first fall : Time) (amp : Nat)
  /-- DAC sample pairs of a launch. -/
  | waveform (lane : Lane) (iq : List (Int × Int))
  /-- TS_PULSE of a Raman launch (R219). -/
  | tsPulse (t : Time) (widthNs : Nat)
  /-- The injection source of a lane drives from an instant on, until another one where that is known, or stops; its input balls are
  disconnected, or connected again (R136, R137). -/
  | inject (lane : Lane) (drive : Option InjDrive) (from_ : Time) (till : Option Time)
  | isolate (lane : Lane) (on : Bool)
  /-- A light output is forced off or allowed again (R21). -/
  | gate (open_ : Bool)
  /-- ACT_OUT (R496). -/
  | actOut (high : Bool)
  /-- SFPn_TXDIS, the transmitter disable of a cage (R566). -/
  | txdis (p : Fin 2) (high : Bool)
  /-- The management pins that the device drives, and their levels (R470). -/
  | gpio (dir levels : Nat)
  /-- MSI-X vector `e` of function `f` (R412), or the B50 MSI. -/
  | msix (f : Func) (e : Nat)
  | msi
  /-- The IRQ_N line of B50 mode. -/
  | irqN (low : Bool)
  /-- Bytes written to host memory by function `f`: `ep` marks them poisoned, `ro` gives them Relaxed Ordering (R420). -/
  | hostWrite (f : Func) (addr : Nat) (bytes : List Byte) (ep ro : Bool)
  /-- A read request to host memory. -/
  | hostRead (f : Func) (addr len : Nat)
  /-- A PCIe read completion, poisoned with `ep`, or Unsupported Request (`none`). -/
  | completion (bytes : Option (List Byte)) (ep : Bool)
  /-- A PME message (R432) and the WAKE_N ball. -/
  | pme (f : Func)
  | wakeN (low : Bool)
  /-- A UDP datagram: the port, destination address and port, the bytes, the source port (R388) and what is around them. -/
  | frame (p : Fin 2) (dest port : Nat) (bytes : List Byte) (src : Nat) (w : Wire)
  /-- A PTP message leaves port `p`, over UDP/IPv4 or (`l2`) IEEE 802.3 (R401); the port answers a received frame (R396). -/
  | ptp (p : Fin 2) (m : PtpMsg) (l2 : Bool) (w : Wire)
  | answer (p : Fin 2) (f : RxFrame) (w : Wire)
  /-- An announcement of a taken address (R510). -/
  | announce (p : Fin 2) (mac : Nat) (v4 : Word) (v6 : Nat) (w : Wire)
  /-- The port joins the PTP group by IGMPv3, or leaves it (R396, R401). -/
  | group (p : Fin 2) (on : Bool)
  /-- A record delivered whole to subscriber entry `i`. -/
  | record (i : Nat) (bytes : List Byte)
  /-- A twin heartbeat and a mirror message (R499, R502). -/
  | heartbeat (hb : Heartbeat)
  | mirror (seq : Nat) (item : MirrorItem)
  /-- A DRAM command of channel `ch`, by its name, rank, bank and row or column. -/
  | dram (ch : Fin 2) (cmd : String) (rank bank a : Nat)
  /-- A flash write. -/
  | flash (off : Nat) (bytes : List Byte)
  /-- The boot ROM reports the VERIFY codes of both slots (R465). -/
  | uart (codeA codeB : Nat)
  deriving DecidableEq, Repr

/-! ### meridian ticks and lanes (chapter 2) -/

/-- Why a lane drains (R50 to R52). -/
inductive Drain
  | none | restart | stop | config
  deriving DecidableEq, Repr

/-- The tick generator (R25 to R44). -/
structure Merid where
  /-- A first tick has fallen since the entry to RUN. -/
  started : Bool := false
  lastTick : Time := 0
  /-- Source ticks until the other lane's next tick; 0: it falls with the next source tick (R25). -/
  other : Nat := 0
  /-- The held commits apply at the next tick although the apply tick does not lie ahead (R36). -/
  applyLate : Bool := false
  /-- The other lane's pages still wait for that lane's first tick at or after the apply tick (R36). -/
  applyOther : Bool := false
  /-- The last write of HOLD or of the apply tick (R523). -/
  applyAt : Time := 0
  /-- The last MERID_IN edge used, the tick it places, whether it was a marker (R42). -/
  inLast : Option Time := none
  inTick : Option Time := none
  inMarker : Bool := false
  /-- The tick that MERID_OUT has announced (R41). -/
  outTick : Option Time := none
  /-- The device leaves RUN for this mode (R50, R498). -/
  leaving : Option Nat := none
  deriving DecidableEq, Repr

/-- A lane's run (R46 to R52). -/
structure LaneRun where
  lastTick : Time := 0
  /-- MERID_TICK_COUNT at the lane's last tick. -/
  lastCount : Nat := 0
  /-- Lane frames since the lane entered RUN. -/
  frame : Nat := 0
  drain : Drain := .none
  /-- The drained period has ended and the lane waits to start (R51). -/
  drained : Bool := false
  /-- The frame's launches are withheld for calibration (R479, R481). -/
  withheld : Bool := false
  /-- The slots whose command instants of this frame have come (R28). -/
  launched : List Nat := []
  /-- Lane frames still to be marked TWIN_TAKEOVER (R509). -/
  mark : Nat := 0
  deriving DecidableEq, Repr

/-! ### time base and interval unit (chapter 3) -/

/-- Device time to mapped time, and the PPS supervision (R60 to R72). -/
structure TBase where
  /-- EPOCH_SEC and EPOCH_SUBS in force (R60). -/
  sec : BitVec 48 := 0
  subs : Nat := 0
  /-- Millionths of a device unit of slew not yet applied (R62). -/
  adjFrac : Nat := 0
  /-- How the epoch in force has been slewed, newest first: from, until, the signed rate in ppm, device units moved (R205). -/
  slews : List (Time × Time × Int × Int) := []
  /-- REFCLK stands declared lost: no return has begun since the declaration (R65, R68, R69). -/
  refDown : Bool := false
  /-- The last PPS_IN edge (R70). -/
  ppsLast : Option Time := none
  /-- The last PPS_OUT rise, its pulse's width in ms, and the ball's level (R72). -/
  ppsRise : Option Time := none
  ppsWidth : Nat := 0
  ppsHigh : Bool := false
  deriving DecidableEq, Repr

/-- One stamp channel (R76). `staging` holds for each staged stamp when it leaves the buffer. -/
structure TdcChan where
  last : Option Time := none
  staging : List (Time × Time × Word) := []
  queue : List (Time × Word) := []
  /-- The next stamp queued carries GAP; the next stamp staged carries GAP. -/
  gapQueue : Bool := false
  gapStage : Bool := false
  deriving DecidableEq, Repr

/-- One interval engine (R79 to R82). Stamps are in quarters of an LSB; a stop carries whether it is taken, each stamp
whether it may enter the statistics. -/
structure IvEngine where
  starts : List (Nat × Bool) := []
  stops : List (Nat × Bool × Bool) := []
  /-- The running collection: how many results, their sum, sum of squares, least and greatest. -/
  n : Nat := 0
  sum : Int := 0
  sq : Nat := 0
  least : Int := 0
  most : Int := 0
  stopped : Bool := false
  unread : Bool := false
  deriving DecidableEq, Repr

/-- A gate pulse whose launch edge is awaited (R83): its slots, the shot number of its launch, the expected launch, and
the edge paired, with whether it was stamped under lock. -/
structure LaunchWait where
  shot : Nat
  expect : Time
  win : Nat
  edge : Option (Int × Bool) := none
  deriving DecidableEq, Repr

/-- The launch stamping of one lane (R83 to R85). -/
structure LaunchState where
  /-- The detector channel's latest rising stamps, newest first, with whether they were taken under lock: a window opens before its
  gate pulse where WIN exceeds NOM. -/
  recent : List (Time × Bool) := []
  waits : List LaunchWait := []
  /-- The last 64 valid Δ_L since the lane entered RUN, newest first. -/
  valid : List Int := []
  deriving DecidableEq, Repr

structure Tdc where
  chans : Amap TdcChan := []
  engines : Amap IvEngine := []
  launch : Pair LaunchState := ⟨{}, {}⟩
  deriving DecidableEq, Repr

/-! ### light drive (chapter 4) -/

/-- A slot shot in flight (R28 to R31, R100, R111): its gate pulse, slot, command instant and pulse end, the tick that
started its lane frame with the source tick count and the lane frame's number, whether it is dark or the first lit one of
its slot after dark ones, the configuration in force at its launch, the range, a range switch while it is in flight (its
device time, the new range), and the launch offset Δ_L. -/
structure Shot where
  id : Nat
  slot : Nat
  at_ : Time
  gateEnd : Time
  tick : Time
  count : Nat
  frame : Nat
  dark : Bool := false
  lightBack : Bool := false
  /-- A discarded slot shot (R38, R15), or a withheld one. -/
  hole : Bool := false
  cfg : RegFile := []
  alm : Amap Word := []
  range : Nat := 1
  switches : List (Time × Nat) := []
  jit : Option Int := none
  /-- Withheld for calibration (R480). -/
  withheld : Bool := false
  deriving DecidableEq, Repr

/-- The launches of a lane. -/
structure LaneShots where
  /-- The pulses of TRACE, which SHOT does not process, until they end. -/
  traced : List Shot := []
  /-- Launched and not yet processed by SHOT, oldest first. -/
  shots : List Shot := []
  nextId : Nat := 0
  /-- Whether the lane's last shot was dark; the slots whose last shot was. -/
  lastDark : Option Bool := none
  slotDark : List Nat := []
  deriving DecidableEq, Repr

/-- A current on its way from one code to another at the slew of R102. -/
structure Slew where
  from_ : Nat := 0
  since : Time := 0
  to_ : Nat := 0
  deriving DecidableEq, Repr

/-- The drives (R94, R102, R103, R105). -/
structure Drive where
  /-- What the modulator outputs of each lane hold between pulses. -/
  idle : Pair (Int × Int) := ⟨(0, 0), (0, 0)⟩
  lasers : Pair Slew := ⟨{}, {}⟩
  /-- The pumps' last setpoint ramps: start, and length in ms. -/
  ramps : Amap (Time × Nat) := []
  /-- The last 2,000 samples of the six monitor photodiodes, newest first. -/
  mpd : List (List Nat) := []
  deriving DecidableEq, Repr

/-- A loop controller (R106): its window words and its accumulator. -/
structure Loop where
  kp : Nat := 0
  ki : Nat := 0
  lo : Nat := 0
  hi : Nat := 65535
  satMs : Nat := 100
  acc : Int := 0
  engaged : Bool := false
  deriving DecidableEq, Repr

/-! ### receive front end (chapter 5) -/

/-- Range control and frame bookkeeping of a lane (R125 to R137). -/
structure Rxf where
  /-- Frame peaks in a row at or above ARC_HI, and below ARC_LO; the run's limit has been raised. -/
  hiRun : Nat := 0
  loRun : Nat := 0
  limited : Bool := false
  /-- The code ARC steps to at the next lane tick. -/
  step : Option Nat := none
  /-- Lane frames of dwell left. -/
  dwell : Nat := 0
  /-- The switch 400 ns before the next tick has been made, to this code. -/
  switched : Option Nat := none
  /-- A shot of the frame is dark; the tick of the last frame in which an overload sample, or a saturated one, has been raised. -/
  frameDark : Bool := false
  ovlTick : Option Time := none
  satTick : Option Time := none
  /-- The range changed at the frame's tick. -/
  changed : Bool := false
  /-- What the injection source drives; the balls are disconnected (R136). The end of the frame's DUSK injection (R137). -/
  inject : Option InjDrive := none
  isolated : Bool := false
  duskEnd : Option Time := none
  deriving DecidableEq, Repr

/-! ### shot processor (chapter 6) -/

/-- The combiner state of one point (R158): δ_b of each non-reference branch, and the shots since its initialisation. -/
structure Comb where
  deltas : List Nat := []
  count : Nat := 0
  deriving DecidableEq, Repr

/-- A slot shot's gauge values on their way to PHZ (R162): points −N_ref to P + G − 1, and for the first shot after a
range change each point's constants of R160, `g_b`, `g_a` in 2⁻²⁰ and `φ_b − φ_a` in 2π/2¹⁶. -/
structure GaugeShot where
  shot : Shot
  nref : Nat
  vals : List (Int × Int)
  seam : List (Int × Int × Int) := []
  /-- The shot meets a switch in flight: the seam range of R134. -/
  seamPts : Option (Nat × Nat) := none
  /-- Points whose combiner state was lost, counted from point −N_ref (R159). -/
  lost : List Nat := []
  deriving DecidableEq, Repr

structure ShotProc where
  /-- User tables: entry `a` of slot `k` under key `k * 32768 + a`, I in [15:0] and Q in [31:16] (R152). -/
  mfUser : Amap Word := []
  /-- The references held, by slot (R152). -/
  refs : Amap (List (Int × Int)) := []
  /-- Combiner state by `slot * 2²⁰ + 1024 + point`; a point that is not listed is not initialised (R159). -/
  comb : Amap Comb := []
  /-- The range of each slot's last shot. -/
  lastRange : Amap Nat := []
  /-- Gauge values that PHZ has not yet taken, oldest first. -/
  gauges : List GaugeShot := []
  /-- Trace capture: frames seen since the lane's start; it has stopped: done, or full (R164, R165). -/
  traceSeen : Nat := 0
  traceDone : Bool := false
  traceFull : Bool := false
  deriving DecidableEq, Repr

/-- The trace-capture region (R165): the records held, oldest first, as offset and length, and where the next goes. -/
structure TraceStore where
  held : List (Nat × Nat) := []
  next : Nat := 0
  deriving DecidableEq, Repr

/-! ### phase engine (chapter 7) -/

/-- The state word of a point–slot pair (R173), with what R179 and R38 need of the pair's last sample: its fading index,
whether it restarted, its QUALITY word and its STRAIN_RATE value. -/
structure PhzPair where
  phi : Nat := 0
  amp : Nat := 0
  c : Nat := 0
  fade : Nat := 0
  restarted : Bool := false
  qual : Nat := 0
  rate : Int := 0
  deriving DecidableEq, Repr

/-- A constellation change of a slot (R182): the lane frame from which it holds, its SETTLING frames, and the adjustments
of A not yet made. -/
structure ConstChange where
  slot : Nat
  from_ : Nat
  frames : Nat
  deltas : List Int
  deriving DecidableEq, Repr

/-- The phase engine of a lane. -/
structure Phz where
  /-- State words by `slot * 2²⁰ + point`. -/
  pairs : Amap PhzPair := []
  /-- The slot and lane frame of the latest valid slot shot (R172); the slots of the last two slot shots, newest first, with their validity. -/
  last : Option (Nat × Nat) := none
  hist : List (Nat × Bool) := []
  /-- R_k and the latest ρ of each slot (R174, R180); the valid reference-table entries by `slot * 1024 + gauge`. -/
  acc : Amap Nat := []
  rho : Amap Int := []
  refs : Amap Nat := []
  /-- Valid shots of each slot since the lane started, for R175's 2^ATAU. -/
  shots : Amap Nat := []
  /-- Slots, and pairs by key, that restart at their next valid sample (R177); withheld frames in a row, by slot. -/
  due : List Nat := []
  duePts : List Nat := []
  /-- The constants of a seam whose first shots were discarded, by slot (R178). -/
  seams : Amap (List (Int × Int × Int)) := []
  gaps : Amap Nat := []
  changes : List ConstChange := []
  /-- The last lane frame in which PHASE_SLIP, and SR_SAT, were raised. -/
  slipFrame : Option Nat := none
  satFrame : Option Nat := none
  deriving DecidableEq, Repr

/-! ### slow-time chain (chapter 8) -/

/-- One sample of every point: a series sample (R171) or a chain output: its nominal instant, the tick and number of its
lane frame, the points' values so far, and flags by tile of 256 points. -/
structure Row where
  inst : Time
  tick : Time
  frame : Nat
  vals : List Int := []
  flags : Amap Nat := []
  deriving DecidableEq, Repr

/-- The bank, F and GD that outputs from series sample `from_` on use (R202); whether an output has used them. -/
structure BankUse where
  from_ : Nat
  bank : Nat
  shift : Nat
  gd : Nat
  swap : Bool := false
  used : Bool := false
  deriving DecidableEq, Repr

structure Slow where
  /-- The corner turn, by series sample; the next series sample; the lane frame whose samples are discarded (R39). -/
  ct : Amap Row := []
  next : Nat := 0
  skip : Option Nat := none
  /-- Parts read so far (R192). -/
  parts : Nat := 0
  /-- Bank uses, newest first, and coefficients by `bank * 512 + entry`. -/
  banks : List BankUse := []
  coef : Amap Nat := []
  /-- The chain outputs of the block being read, by output number, and the outputs made before it. -/
  rows : Amap Row := []
  outs : Nat := 0
  /-- The last instant of the resampler's grid, and a realignment not yet followed by an output (R206). -/
  lastInst : Option Time := none
  realign : Bool := false
  deriving DecidableEq, Repr

/-! ### Raman sensing (chapter 9) -/

/-- A lit Raman shot of a lane in flight (R219, R223): its command instant, the end of TS_PULSE, its averaging period. -/
structure RamanShot where
  at_ : Time
  pulseEnd : Time
  period : Nat
  deriving DecidableEq, Repr

/-- An averaging period (R224 to R229): its start and first Raman tick, the ranges and the length in force at its start, its
sums (positions from −PRE on), the latest AUX result of each definition that R230 admits, and, once ended, END_TIME and the
configuration in force then. -/
structure DtsPeriod where
  id : Nat
  from_ : Time
  first : Option Time := none
  ranges : Nat
  len : Nat
  sched : Nat := 0
  lit : Nat := 0
  accX : List Int := []
  accY : List Int := []
  baseX : Int := 0
  baseY : Int := 0
  notAll : Bool := false
  /-- A shot of the period was discarded by an SRAM error (R15); the end of its last return (R374). -/
  hole : Bool := false
  last : Option Time := none
  ovl : Nat := 0
  ovlAcc : Bool := false
  opening : Bool := false
  short : Bool := false
  aux : Amap (Time × Int) := []
  end_ : Time := 0
  cfg : RegFile := []
  alm : Amap Word := []
  deriving DecidableEq, Repr

/-- The Raman path of a lane. -/
structure RamanLane where
  shots : List RamanShot := []
  per : Option DtsPeriod := none
  /-- The open period's count was complete when this Raman tick fell, which ends it. -/
  due : Option Time := none
  ended : List DtsPeriod := []
  nextId : Nat := 0
  /-- The constants used for the previous period since the lane started. -/
  prev : Option (Int × Int) := none
  deriving DecidableEq, Repr

/-- An APD bias output (R218): the code it slews from, since when, and the code it slews to. -/
structure Apd where
  from_ : Nat := 0
  since : Time := 0
  to_ : Nat := 0
  /-- The code it was last set to, before the limit. -/
  code : Nat := 0
  deriving DecidableEq, Repr

structure Raman where
  lanes : Pair RamanLane := ⟨{}, {}⟩
  /-- Source ticks since the device entered RUN (R219). -/
  ticks : Nat := 0
  /-- The Raman tick whose launch is awaited. -/
  tick : Option Time := none
  apd : Pair Apd := ⟨{}, {}⟩
  deriving DecidableEq, Repr

/-! ### auxiliary converter (chapter 10) -/

/-- The conversion under way (R243 to R245, R249): its definition, origin, the definition's fields at its start, its start
and phase A's end, phase B's start, the phase codes, and its tags. -/
structure AuxConv where
  r : Nat
  origin : Nat
  cfg : RegFile
  start : Time
  endA : Time := 0
  startB : Time := 0
  end_ : Time := 0
  cA : Int := 0
  /-- V_ref of the first phase, in nV. -/
  vref : Int := 0
  cB : Int := 0
  sat : Bool := false
  unsettled : Bool := false
  comply : Bool := false
  deriving DecidableEq, Repr

structure Aux where
  /-- The definitions that AUX_START work still has to run, the priority request, the scan's next definition. -/
  work : List Nat := []
  req : Option Nat := none
  scan : Nat := 0
  conv : Option AuxConv := none
  deriving DecidableEq, Repr

/-! ### zones and capture (chapter 11) -/

/-- A condition of a zone (R265): its phase (0 idle, 1 in an episode, 2 met, or full for RUNT), width, the trigger time of
the episode with INTERP, whether a skipped sample fell into it, and the last samples seen, newest first. -/
structure CondSt where
  phase : Nat := 0
  width : Nat := 0
  trig : Time := 0
  interp : Bool := false
  skipped : Bool := false
  back : List (Time × Int) := []
  /-- The last measure of a SLEW condition. -/
  meas : Option (Time × Int) := none
  deriving DecidableEq, Repr

/-- An event (R267, R281), with its entry's fields. -/
structure Event where
  seq : Nat
  zone : Nat
  lane : Nat
  trig : Time
  decide : Time
  mask : Nat
  primary : Nat
  segId : Nat := 0xFFFFFFFF
  eflags : Nat
  fslot : Nat
  throttle : Nat := 0
  value : Int
  width : Nat
  arg : Nat
  flags : Nat
  deriving DecidableEq, Repr

/-- A segment of the pool (R271 to R279): 0 FREE, 1 OPEN, 2 CLOSED, the generation, the hold mask, and the header's
fields. `next` is the next history sample to write, `end_` the one after the last, `cap` C. -/
structure Seg where
  st : Nat := 0
  gen : Nat := 0
  hold : Nat := 0
  zone : Nat := 0
  lane : Nat := 0
  trig : Time := 0
  eventSeq : Nat := 0
  trigSample : Int := 0
  next : Int := 0
  end_ : Int := 0
  cap : Nat := 0
  held : Nat := 0
  pre : Nat := 0
  short : Nat := 0
  firstInst : Time := 0
  firstTick : Time := 0
  lastTick : Time := 0
  period : Nat := 0
  nextId : Nat := 0xFFFFFFFF
  headId : Nat := 0
  mask : Nat := 0
  primary : Nat := 0
  sflags : Nat := 0
  logT : Nat := 0
  src : Nat := 0
  width : Nat := 0
  cont : Nat := 0
  first : Nat := 0
  count : Nat := 0
  flags : Nat := 0
  /-- CHAIN, CORE, RETRIG, HOST_HOLD and POST of the entry in force when the segment opened (R258, R310). -/
  chain : Bool := false
  core : Nat := 127
  retrig : Bool := false
  hostHold : Bool := false
  post : Nat := 0
  /-- Hold bits whose release, and an expiry, that wait for the end of a copy (R309). -/
  owed : Nat := 0
  expired : Bool := false
  deriving DecidableEq, Repr

/-- A zone's capture (R272, R274): 0 ARMED, 1 CAPTURING, 2 RE-ARMING; its current segment and the chain's head; the clamped
spans of the arm; the events that wait for the re-arm. -/
structure ZoneCapt where
  st : Nat := 0
  seg : Nat := 0
  head : Nat := 0
  pre : Nat := 0
  post : Nat := 0
  clamped : Bool := false
  armed : Bool := false
  lane : Lane := 0
  waiting : List Event := []
  deriving DecidableEq, Repr

/-- What a lane's blocks use of the zone table (R258): zone and set words, the feature definitions, and the zones held. -/
structure ZoneUse where
  words : Amap Word := []
  cfg : RegFile := []
  held : List Nat := []
  stale : Bool := true
  deriving DecidableEq, Repr

/-- The zone engine: the table and sets as written and in force, by `table * 65536 + entry * 16 + word`; what each lane
uses; the conditions by `zone * 4 + i`; the open EVENT records' first event. -/
structure Zone where
  shadow : Amap Word := []
  words : Amap Word := []
  use : Pair ZoneUse := ⟨{}, {}⟩
  held : List Nat := []
  conds : Amap CondSt := []
  /-- Events decided after one that waits for a re-arm: their entries follow it (R281). -/
  behind : List Event := []
  deriving DecidableEq, Repr

structure Capt where
  segs : Amap Seg := []
  zones : Amap ZoneCapt := []
  /-- The history rings of the lanes, by sample (R269). -/
  ring : Pair (Amap Row) := ⟨[], []⟩
  deriving DecidableEq, Repr

/-! ### zone cores (chapter 12) -/

/-- A segment copy in progress (R309): the segment, MODE, offset, stride, count, destination (bit 12: YM), shift, core-own. -/
structure SegCopy where
  seg : Nat
  mode : Nat
  off : Nat
  stride : Nat
  cnt : Nat
  dst : Nat
  sh : Nat
  deriving DecidableEq, Repr

/-- A zone core. Registers are held under the numbers of the register window (R315): 0–7 D, 8–9 A, 16–23 P, 24–31 B,
32–39 L, 48 + x special register x, 63 PC. Writes not yet seen everywhere (R294) wait with the position of their
instruction: `regW` (register, loaded or not, value), `memW` (address, bit 12 for YM, value), `loopW` (register, value). -/
structure ZCore where
  regs : Amap Nat := []
  pm : Amap Nat := []
  xm : Amap Nat := []
  ym : Amap Nat := []
  pos : Nat := 0
  regW : List (Nat × Nat × Bool × Nat) := []
  memW : List (Nat × Nat × Nat) := []
  loopW : List (Nat × Nat × Nat) := []
  /-- Delay slots left, and where the branch goes (`none`: on in sequence); RTI brings the SR it restores (R295). -/
  delay : Nat := 0
  target : Option Nat := none
  rti : Option Nat := none
  haltReq : Bool := false
  stepping : Bool := false
  cycles : Nat := 0
  /-- Words of XM, and of YM from 4,096, found uncorrectable and not written since (R314). -/
  bad : List Nat := []
  /-- The event queue, oldest first, and the event window (R306, R307). -/
  evq : List Event := []
  window : Option Event := none
  /-- Ports (R306): SEG_ID, SEG_OFF, SEG_STRIDE, SEG_CNT, SEG_DST, the copy and its result, the ring offsets, the verdict. -/
  segId : Nat := 0
  segOff : Nat := 0
  segStride : Nat := 0
  segCnt : Nat := 0
  segDst : Nat := 0
  copy : Option SegCopy := none
  result : Nat := 0
  fringWr : Nat := 0
  fringRd : Nat := 0
  vdValue : Nat := 0
  vdClass : Nat := 0
  vdPoint : Nat := 0
  /-- The cycle and the device time of the last verdict (R311). -/
  vdAt : Option (Nat × Time) := none
  timeHi : Nat := 0
  tmrHi : Nat := 0
  tmr : Option Time := none
  deriving DecidableEq, Repr

/-! ### stream codec (chapter 13) -/

/-- A record that its source has formed and that awaits an engine, with its SEQ and when it became ready (R335, R373). -/
structure Ready where
  slot : Nat
  seq : Nat
  rec_ : Rec
  at_ : Time
  deriving DecidableEq, Repr

/-- A coding state (R327, R329): history rows, oldest first, each sample as its code word, and A and N of the two planes. -/
structure Coder where
  rows : List (List Nat) := []
  a0 : Nat := 16
  a1 : Nat := 16
  n0 : Nat := 1
  n1 : Nat := 1
  deriving DecidableEq, Repr

/-- A record that an engine has taken: the number of the take, the context's configuration then, whether the record resets,
and the coding state before it. -/
structure CodeJob where
  ready : Ready
  no : Nat
  pred : Nat
  auto : Bool
  pass : Bool
  reset : Bool
  start : Coder
  deriving DecidableEq, Repr

/-- A completed record in a stream's chain (R337): its bytes as carried, where it starts in the chain, whether it can
be decoded without an earlier one (R324, R320), the number of its take, and its place in the order of completion. -/
structure ChainRec where
  seq : Nat
  start : Nat
  opens : Bool
  no : Nat
  done : Nat
  bytes : List Byte
  deriving DecidableEq, Repr

/-- A context slot (R331 to R334, R337): configuration, binding, the coding state and the chain. -/
structure Ctx where
  bound : Bool := false
  sid : Nat := 0
  pred : Nat := 4
  auto : Bool := true
  pass : Bool := false
  resync : Nat := 0
  quota : Nat := 64
  /-- The header state of R334, as of the stream's last taken record, or of the last record decoded with the slot (R339). -/
  stateSid : Nat := 0
  product : Nat := 0
  width : Nat := 0
  w : Nat := 0
  r : Nat := 0
  firstPoint : Word := 0
  lastPass : Bool := false
  paused : Bool := false
  resetPending : Bool := false
  gapPending : Bool := false
  /-- The stream's next record is its first after a takeover (R509). -/
  taken : Bool := false
  /-- No record has been taken since the slot was bound. -/
  fresh : Bool := true
  nextSeq : Nat := 0
  lastSeq : Nat := 0
  coder : Coder := {}
  since : Nat := 0
  resumeBlock : Nat := 0
  resumeBytes : Nat := 0
  /-- The record that a pause interrupted (R337). -/
  held : Option CodeJob := none
  /-- Buffers linked, oldest first; where the oldest starts and where the next record goes, in chain bytes; the completed
  records not yet released. -/
  bufs : List Nat := []
  base : Nat := 0
  fill : Nat := 0
  recs : List ChainRec := []
  /-- The slot's state has been written to record memory. -/
  saved : Bool := false
  deriving DecidableEq, Repr

/-- A compress engine (R335): 0 IDLE, 1 RESTORE, 2 CODE, 3 SAVE. -/
structure Engine where
  phase : Nat := 0
  job : Option CodeJob := none
  /-- The slot whose state its working store still holds. -/
  store : Option Nat := none
  deriving DecidableEq, Repr

/-- Compress and decompress (chapter 13). -/
structure Cmp where
  ready : List Ready := []
  slots : Amap Ctx := []
  engines : Amap Engine := []
  /-- Records taken, and completed, so far. -/
  takes : Nat := 0
  dones : Nat := 0
  /-- Residuals coded, and when (R336). -/
  load : List (Time × Nat) := []
  /-- An abort of a decompress job asked for (R342). -/
  abort : Pair Bool := ⟨false, false⟩
  deriving DecidableEq, Repr

/-! ### record memory (chapter 14) -/

/-- A request in a channel's queue (R355): when it was accepted, its reader, whether it writes, whether it is a partial write
whose merge read is still to be made, or its write-back, its address and bytes, whether it has been promoted, and of a read that has been issued the
code words that a write has been accepted for since (R363). -/
structure MemReq where
  at_ : Time
  rd : MemReader
  write : Bool
  merge : Bool := false
  back : Bool := false
  ra : Nat
  len : Nat := 64
  old : Bool := false
  covered : List Nat := []
  deriving DecidableEq, Repr

/-- A bank (R358, R360): its open row, the row of its last access, its counter, and the row whose neighbours are owed. -/
structure Bank where
  row : Option Nat := none
  last : Option Nat := none
  ctr : Nat := 2
  owed : Option Nat := none
  deriving DecidableEq, Repr

/-- A memory channel (R348 to R367). -/
structure MemChan where
  training : Bool := false
  filling : Bool := false
  queue : List MemReq := []
  /-- Reads issued whose data has not returned, oldest first. -/
  issued : List MemReq := []
  /-- Writes are being drained (R356). -/
  drain : Bool := false
  /-- Banks by `16 * rank + bank`. -/
  banks : Amap Bank := []
  /-- Refreshes owed by each rank; negative: pulled in ahead (R359). -/
  owed : Pair Int := ⟨0, 0⟩
  /-- The channel address that patrol scrub reads next (R366). -/
  scrub : Nat := 0
  /-- Corrected errors by `32 * rank + unit`; the units that have reached the threshold (R367, R370). -/
  unitCe : Amap Nat := []
  failed : List Nat := []
  deriving DecidableEq, Repr

/-! ### streams, subscribers, Ethernet (chapter 15) -/

/-- A bound stream (R378, R379): its selection, its slot, and the records being formed, by channel, slot or zone. -/
structure Stream where
  sid : Nat
  slot : Nat
  sel : Selection
  /-- When it was bound: it forms what its source forms from the next boundary on (R379). -/
  since : Time := 0
  stopping : Bool := false
  opens : Amap Rec := []
  /-- Device time of the stream's last reset; a reset is due when the join holdoff ends (R380). -/
  lastReset : Option Time := none
  resetDue : Bool := false
  deriving DecidableEq, Repr

/-- What a subscriber entry has of one selection (R380, R389, R400): its stream, the records it still has to deliver, oldest
first, by SEQ, whether it waits for a record with RESET = 1 taken as number `after` or later, whether that wait follows a
gap, whether the next record carries GAP, and its counts. -/
structure SubSel where
  sid : Nat
  todo : List Nat := []
  wait : Bool := true
  after : Nat := 0
  dropping : Bool := false
  gap : Bool := false
  /-- The record in delivery carries GAP. -/
  gapHand : Bool := false
  started : Bool := false
  sent : Nat := 0
  drops : Nat := 0
  lastSeq : Nat := 0
  deriving DecidableEq, Repr

/-- An entry of the subscriber table (R381 to R384): generation, state (0 FREE, 1 JOINING, 2 ACTIVE, 3 CLOSING), where its
messages come from, the channel of a PCIe subscriber, its lease, the last XID accepted, and its selections. -/
structure Sub where
  gen : Nat := 0
  st : Nat := 0
  path : Path := .mailbox 0
  chan : Nat := 0
  granted : Nat := 0
  expiry : Time := 0
  xid : Option Word := none
  body : SubBody := ⟨0, 0, 0, 0, 0, []⟩
  sels : List SubSel := []
  /-- Bytes of the record in delivery that have been sent or queued, and its selection; whether it carries GAP. -/
  cur : Option (Nat × Nat) := none
  deriving DecidableEq, Repr

/-- A stored reply (R392): the request's path, TYPE and XID, when it was answered, and the reply's bytes. -/
structure Reply where
  path : Path
  typ : Nat
  xid : Word
  at_ : Time
  bytes : List Byte
  deriving DecidableEq, Repr

/-- A DATA datagram that waits in a flow (R393, R399): when it became the flow's, its bytes, whether it ends its record, and
the selection and SEQ of the record. -/
structure Dgram where
  at_ : Time
  bytes : List Byte
  last : Bool
  sel : Nat
  seq : Nat
  deriving DecidableEq, Repr

/-- A frame of the second precedence (R399): a control reply to an address and port, a general PTP message, the answer to a
received frame, or an announcement of a taken address (R510). -/
inductive StewFrame
  | reply (addr port : Nat) (bytes : List Byte)
  | ptp (m : PtpMsg)
  | answer (f : RxFrame)
  | announce (mac : Nat) (v4 : Word) (v6 : Nat)
  deriving DecidableEq, Repr

/-- An Ethernet port (R395 to R399): frames waiting by precedence, the flows' datagrams by entry, the flows' deficits and the
flow whose turn it is; the frames sent in the last 1 ms, with their bytes. -/
structure Port where
  /-- SFPn_TXDIS, high after reset (R566, and the ball list of chapter 23). -/
  txdis : Bool := true
  /-- The port has joined the PTP group (R396). -/
  joined : Bool := false
  events : List PtpMsg := []
  stew : List StewFrame := []
  sent : List (Time × Nat) := []
  flows : Amap (List Dgram) := []
  deficit : Amap Nat := []
  turn : Nat := 0
  deriving DecidableEq, Repr

/-! ### PCIe and DMA (chapter 16) -/

/-- A descriptor in use: host buffer, length, CONTROL, NEXT (R421), or the B50 CTRL word (R426). -/
structure Desc where
  addr : Nat
  len : Nat
  ctl : Nat
  next : Nat
  deriving DecidableEq, Repr

/-- A DMA channel beside its registers: the descriptor in use and the bytes done in it, a descriptor read that is awaited,
since when completions are held, and bytes of the current record that a GO must not resume (R431). -/
structure DmaChan where
  desc : Option Desc := none
  off : Nat := 0
  fetch : Bool := false
  /-- The awaited read is of NEXT of the current descriptor alone (R422). -/
  reread : Bool := false
  heldAt : Option Time := none
  copyRa : Nat := 0
  /-- A status write that waits for D0 (R431). -/
  abortWb : Bool := false
  deriving DecidableEq, Repr

/-- The endpoint: unmasked MSI-X vectors and pending bits by 64f + e, functions in D3hot, messages that wait for D0, the
link in L2 (R412, R432, R433). -/
structure Pcie where
  unmasked : Amap Bool := []
  pba : Amap Bool := []
  asleep : List (Nat × Nat) := []
  d3 : List Nat := []
  l2 : Bool := false
  chans : Amap DmaChan := []
  deriving DecidableEq, Repr

/-! ### interrupt controller and steward cores (chapter 17) -/

/-- A target (R445): its stack above the base, top first, as claim value and priority, and its pending edge sources. -/
structure IcuTarget where
  stack : List (Nat × Nat) := []
  edges : Nat := 0
  deriving DecidableEq, Repr

/-- The interrupt controller: pending shared edge sources, the target of each stranded source, ICU_SRC_CFG of each shared
source, and the targets. -/
structure Icu where
  edges : Amap Bool := []
  stranded : Amap Nat := []
  cfg : Amap Nat := []
  targets : Amap IcuTarget := []
  deriving DecidableEq, Repr


/-- A reply that the steward has made and not yet written (R460, R461): RESULT, RETRY_AFTER, TOKEN and body. -/
structure Answer where
  result : Nat := 0
  retry : Nat := 0
  token : Nat := 0
  body : List Byte := []
  deriving DecidableEq, Repr

/-- A mailbox (R460): its request and reply buffers by word, BUSY, DONE and REJECTS, and the answer made. -/
structure Mbox where
  req : Amap Word := []
  rep : Amap Word := []
  busy : Bool := false
  done : Bool := false
  rejects : Nat := 0
  answer : Option Answer := none
  /-- When the doorbell was written, which stamps the command (R383). -/
  at_ : Time := 0
  deriving DecidableEq, Repr
/-! ### almanac, calibration, flash (chapters 17 and 18) -/

/-- The almanac (R472 to R475): factory values (OTP), user values as shadow and in force, effective values in force of the
items whose user value is not 0. -/
structure Almanac where
  factory : Amap Word := [(0x4A0, 635000)]
  user : Amap Word := []
  userLive : Amap Word := []
  eff : Amap Word := []
  deriving DecidableEq, Repr

/-- The procedure in progress (R476 to R484). Its code, the lane in calibration and whether STEP 1 is held stand in ALM_STATUS. -/
structure Cal where
  /-- Squeeze; the lanes named; on the main path those still to come, the present one first. -/
  squeeze : Bool := false
  lanes : List Lane := []
  todo : List Lane := []
  /-- Main path: 0 awaits tick w, 1 awaits tick w + 1, 2 run 1, 3 run 2, 4 awaits the tick at which launches resume. -/
  stage : Nat := 0
  at_ : Time := 0
  /-- Main path: when the present run began. -/
  runAt : Time := 0
  /-- Lane ticks left until launches resume; the range in force before tick w. -/
  left : Nat := 0
  range : Nat := 0
  /-- MODE + 4 SRC + 16 ISOLATE of each lane's injection before the procedure took it. -/
  inj : Amap Nat := []
  /-- The mode to which the device returns. -/
  back : Nat := 0
  /-- The auxiliary definition, or the bath's section and step. -/
  param : Nat := 0
  step : Nat := 0
  /-- Squeeze: windows by lane, and ns integrated by lane * 8 + run * 4 + place in the order of ranges (R480). -/
  windows : Amap Nat := []
  acc : Amap Nat := []
  /-- The runs of a lane have disagreed. -/
  disagreed : Bool := false
  /-- Lanes whose launches resume at their next tick. -/
  resume : List Lane := []
  /-- Bath: ln R̄ in 2⁻²⁰ and T in mK of the full periods of this step in a row, and of STEP 1. -/
  bath : List (Int × Int) := []
  held : Int × Int := (0, 0)
  /-- When every rail was last back above its warning level (R483). -/
  railsBack : Option Time := none
  deriving DecidableEq, Repr

/-- Flash and one-time-programmable memory (R463 to R467, R487), which no reset changes: the firmware slots, the boot
descriptor, the configuration image; the key hashes, the revocation bits, the security counter and the serial number. -/
structure Flash where
  slots : Pair (List Byte) := ⟨[], []⟩
  descriptor : List Byte := []
  config : List Byte := []
  keyHash : Amap (List Byte) := []
  revoked : Nat := 0
  svn : Nat := 0
  serial : List Byte := []
  deriving DecidableEq, Repr

/-- The steward cores (R453 to R466): armed timer compares and warned watchdogs by core, the header of the running image,
firmware received over the UART (R565). -/
structure Stew where
  timers : Amap Time := []
  warned : Amap Bool := []
  header : List Byte := []
  uart : List Byte := []
  /-- Pages whose bit in CFGI_DEFAULTED is set (R490). -/
  defaulted : Amap Bool := []
  deriving DecidableEq, Repr

/-! ### twin operation (chapter 19) -/

/-- The twin protocol (R496 to R511). -/
structure Twin where
  /-- The claim: 0 none, 1 waits, 2 holds ACT_OUT, 3 complete; the mode from which RUN was entered. -/
  claim : Nat := 0
  cameFrom : Nat := 1
  /-- When RUN was entered, and when the phase of the claim began or, while it waits, PEER_ACT_IN last fell. -/
  runAt : Time := 0
  claimAt : Time := 0
  /-- A takeover that has not reached its first tick: its trigger and when it came. -/
  takeover : Option (Nat × Time) := none
  /-- Own heartbeats: RELINQUISH, the last TWIN_ALIVE write, beats in a row with ALIVE = 0. -/
  relinquish : Bool := false
  aliveAt : Option Time := none
  dead : Nat := 0
  /-- The last valid heartbeat of the peer, with its RELINQUISH and ZONE_EVENT_SEQ. -/
  lastBeat : Option Time := none
  peerRelinquish : Bool := false
  peerSeq : Word := 0
  /-- The cause of the takeover that has failed, while it is to be tried again (R501). -/
  failed : Option Nat := none
  failedAt : Time := 0
  /-- Mirror messages sent: the next number, and those of the last 1 ms, with when each was last sent and whether again. -/
  nextSeq : Nat := 0
  unacked : Amap (Time × Bool × MirrorItem) := []
  /-- When the periodic items were last sent or received: calibration, subscriber table, contexts by STREAM_ID (R502). -/
  calAt : Option Time := none
  entriesAt : Option Time := none
  ctxAt : Amap Time := []
  /-- What the mirror holds: entries, LAST_SEQ by STREAM_ID, cores with images, addresses by port; on the active unit the
  images sent, by core mask. -/
  entries : List MirrorEntry := []
  lastSeqs : Amap Word := []
  images : Nat := 0
  sent : List (BitVec 64 × List Byte) := []
  addrs : Amap (Nat × Word × Nat) := []
  /-- Addresses taken by each port, and announcements still to be made. -/
  adopted : Amap (Nat × Word × Nat) := []
  announces : Nat := 0
  /-- Nightwatch: tests whose latest run passed, tests that have completed a run, failing chains, the chain under injection;
  seconds counted; a rail has been below its warning level in this second. -/
  pass : Nat := 0
  ran : Nat := 0
  injFail : Nat := 0
  chain : Option Nat := none
  seconds : Nat := 0
  /-- A STANDBY period has begun since reset (R506); MERID_TICK_COUNT at the last word of each side put into records (R507). -/
  stood : Bool := false
  healthTick : Amap Nat := []
  below : Bool := false
  deriving DecidableEq, Repr

/-! ### B50 mode (chapter 21) -/

/-- The B50 lane and its ring (R534 to R538). -/
structure B50 where
  /-- RUN has been written 0 while the lane starts or runs; it has been written 1 while the lane drains. -/
  stop : Bool := false
  again : Bool := false
  /-- The phase engine: state words by point, whether a shot has been valid, R_0, the reference table, whether the next valid
  shot restarts. -/
  pairs : Amap PhzPair := []
  valid : Bool := false
  acc : Nat := 0
  refs : Amap Nat := []
  due : Bool := true
  /-- The range of the last shot; the SEQ of the next record; the record being formed. -/
  lastRange : Option Nat := none
  seq : Nat := 0
  rec_ : Option Rec := none
  /-- The ring: the index of the descriptor in use, and whether a record in it had an uncorrectable word (R429). -/
  idx : Nat := 0
  err : Bool := false
  deriving DecidableEq, Repr

structure Strm where
  streams : List Stream := []
  subs : Amap Sub := []
  replies : List Reply := []
  /-- Loaded keys, by number; keys being written, by number * 8 + word (R403). -/
  keys : Amap (List Byte) := []
  keyWords : Amap Word := []
  ports : Pair Port := ⟨{}, {}⟩
  deriving DecidableEq, Repr

/-! ### the whole -/

/-- The state of the device. -/
structure State where
  /-- Registers: written values, values in force, and status (R546). -/
  shadow : RegFile := []
  live : RegFile := []
  status : RegFile := []
  /-- TICK writes not yet in force, oldest first (R7). -/
  tickQ : List TickWrite := []
  commits : List Commit := []
  req : ReqState := {}
  /-- Device time (R57), as of the last command that carries one. -/
  time : Time := 0
  tbase : TBase := {}
  tdc : Tdc := {}
  merid : Merid := {}
  lanes : Pair LaneRun := ⟨{}, {}⟩
  cmp : Cmp := {}
  strm : Strm := {}
  pcie : Pcie := {}
  shots : Pair LaneShots := ⟨{}, {}⟩
  loops : Amap Loop := []
  drive : Drive := {}
  /-- The use of the latest frame and its peak, by block of the budget window (R37). -/
  budget : Amap (Nat × Nat) := []
  rxf : Pair Rxf := ⟨{}, {}⟩
  shotp : Pair ShotProc := ⟨{}, {}⟩
  trace : TraceStore := {}
  phz : Pair Phz := ⟨{}, {}⟩
  slow : Pair Slow := ⟨{}, {}⟩
  raman : Raman := {}
  aux : Aux := {}
  zone : Zone := {}
  capt : Capt := {}
  /-- The zone cores, by number. -/
  zc : Amap ZCore := []
  icu : Icu := {}
  /-- The mailboxes: of function f under f, of the SMBus under 32. -/
  mbox : Amap Mbox := []
  alm : Almanac := {}
  cal : Cal := {}
  flash : Flash := {}
  stew : Stew := {}
  twin : Twin := {}
  b50 : B50 := {}
  /-- Emission is held off for a dip under LIGHT_HOLD, and for the temperature (R563, R571). -/
  holds : Pair Bool := ⟨false, false⟩
  /-- The intervals that flag records (R66, R562, R374). -/
  causes : List Cause := []
  /-- Record memory, from its zero fill on (R349): a byte that is not listed is 0. -/
  mem : List Host.Cell := []
  /-- The code words known to be uncorrectable (R364, R365), by RA / 16. -/
  poison : Amap Bool := []
  /-- REGION_BASE and REGION_SIZE of the eight entries, in MB (R353). -/
  regions : Amap (Nat × Nat) := []
  /-- The region table as written (R353). -/
  regionShadow : Amap (Nat × Nat) := []
  memc : Pair MemChan := ⟨{}, {}⟩
  /-- The model's own counter of free values: each one taken advances it. -/
  free : Nat := 0
  /-- What has left the device, newest first. -/
  out : List Output := []
  /-- The commands that wait, first in first out. -/
  pending : List Instr := []
  deriving DecidableEq, Repr

/-- The device right after reset: mode RESET, before start-up has run (R47, R551, R567). Every register holds its reset
value; nothing is stored. [DESIGN CHOICE: log 4, 5, 6] -/
def State.reset : State := {}

/-- Why a command stops the machine. -/
inductive Fault
  /-- Raised by no command: the spec gives every command an effect. Safe: nothing is claimed of a run that never ends so. -/
  | none
  deriving DecidableEq, Repr

/-- Why a command has no meaning. -/
inductive Refusal
  /-- Raised by Dispatch for a command whose meaning has not been written. Safe: the machine stops. -/
  | notModelled (mnemonic : String)
  deriving DecidableEq, Repr

end Sys2Proof.Machine
end

