-- ==== Sys2Proof/Machine/Ops.lean ====
section
/-!
DEFINITION. The named operations over registers, requesters, interrupt bits and time that every command uses.
-/

namespace Sys2Proof.Machine

/-! ### numbers -/

/-- The two's complement reading of the low `w` bits of `v`. -/
def sx (w v : Nat) : Int := if v % 2 ^ w < 2 ^ (w - 1) then ((v % 2 ^ w : Nat) : Int) else ((v % 2 ^ w : Nat) : Int) - (2 ^ w : Nat)

/-- The low `w` bits of an integer's two's complement. -/
def ux (w : Nat) (i : Int) : Nat := (i % ((2 ^ w : Nat) : Int)).toNat

/-- Saturation to a signed width. [DEDUCED: log 11] -/
def satS (w : Nat) (i : Int) : Int :=
  if i < -((2 ^ (w - 1) : Nat) : Int) then -((2 ^ (w - 1) : Nat) : Int)
  else if ((2 ^ (w - 1) : Nat) : Int) - 1 < i then ((2 ^ (w - 1) : Nat) : Int) - 1 else i

/-- The function sat_w of the spec: saturation at ±(2^(w − 1) − 1) (R151, R184, R212). -/
def satN (w : Nat) (i : Int) : Int := max (-((2 ^ (w - 1) - 1 : Nat) : Int)) (min ((2 ^ (w - 1) - 1 : Nat) : Int) i)

/-- Saturation to an unsigned width. [DEDUCED: log 11] -/
def satU (w : Nat) (i : Int) : Nat := if i < 0 then 0 else min i.toNat (2 ^ w - 1)

/-- Rounding of `a / b` (`0 < b`) to the nearest integer, ties upward. -/
def divRound (a : Int) (b : Nat) : Int := (2 * a + b) / (2 * (b : Int))

/-- Rounding of `a / b` (`0 < b`) to the nearest integer, ties away from zero. -/
def divRoundAway (a : Int) (b : Nat) : Int :=
  if 0 ≤ a then (((2 * a.toNat + b) / (2 * b) : Nat) : Int) else -(((2 * (-a).toNat + b) / (2 * b) : Nat) : Int)

/-- A Boolean as a register bit. -/
def bit (b : Bool) : Nat := if b then 1 else 0

/-- `n` bytes of a number, least significant first. -/
def leBytes : Nat → Nat → List Byte
  | 0, _ => []
  | n + 1, v => BitVec.ofNat 8 v :: leBytes n (v / 256)

/-- The number that bytes spell, least significant first. -/
def leNat : List Byte → Nat
  | [] => 0
  | b :: r => b.toNat + 256 * leNat r

/-- The sum of a list of integers. -/
def sumI (l : List Int) : Int := l.foldl (· + ·) 0

/-! ### registers -/

/-- The value of a field in force (R546). -/
def State.lv (s : State) (f : Fld) : Nat := RegFile.get s.live f

/-- A field in force, read as a flag. -/
def State.on (s : State) (f : Fld) : Bool := s.lv f != 0

/-- The shadow value of a field. -/
def State.sh (s : State) (f : Fld) : Nat := RegFile.get s.shadow f

/-- A status field. -/
def State.st (s : State) (f : Fld) : Nat := RegFile.get s.status f

/-- A status field, signed. -/
def State.stS (s : State) (f : Fld) : Int := sx f.width (s.st f)

/-- A status field, read as a flag. -/
def State.stOn (s : State) (f : Fld) : Bool := s.st f != 0

/-- Write a status field. -/
def State.setSt (f : Fld) (v : Nat) (s : State) : State := { s with status := RegFile.set s.status f v }

/-- Write a status field, signed. -/
def State.setStI (f : Fld) (v : Int) (s : State) : State := s.setSt f (ux f.width v)

/-- Count in a status field, modulo its width (R518). -/
def State.bumpBy (f : Fld) (n : Nat) (s : State) : State := s.setSt f (s.st f + n)

/-- Count one. -/
def State.bump (f : Fld) (s : State) : State := s.bumpBy f 1

/-- Write a field in force without its shadow. -/
def State.setLive (f : Fld) (v : Nat) (s : State) : State := { s with live := RegFile.set s.live f v }

/-- Write a field both as shadow and in force (a field with effect NOW). -/
def State.setNow (f : Fld) (v : Nat) (s : State) : State :=
  { s with shadow := RegFile.set s.shadow f v, live := RegFile.set s.live f v }

/-- A status pair of registers read as one number. -/
def State.st2 (s : State) (lo hi : Fld) : Nat := s.st lo + 2 ^ lo.width * s.st hi

/-- Write a status pair. -/
def State.setSt2 (lo hi : Fld) (v : Nat) (s : State) : State := (s.setSt lo v).setSt hi (v / 2 ^ lo.width)

/-- PAGE_IRQ_STATUS and PAGE_IRQ_ENABLE of a page (R544). -/
def irqStatus (p : Nat) : Fld := fld p 1 0x010 0 32 .w1c .now 0
def irqEnable (p : Nat) : Fld := fld p 1 0x014 0 32 .rw .now 0

/-- PAGE_CTRL.ENABLE, PAGE_STATUS.RESET_REJECTED and PAGE_COMMIT_STATUS of a page (R544). -/
def pageEnable (p : Nat) : Fld := fld p 1 0x008 0 1 .rw .now 1
def pageResetRejected (p : Nat) : Fld := fld p 1 0x00C 2 1 .ro .none 0
def commitState (p : Nat) : Fld := fld p 1 0x01C 0 3 .ro .none 0
def commitHeld (p : Nat) : Fld := fld p 1 0x01C 3 1 .ro .none 0
def commitApplyTick (p : Nat) : Fld := fld p 1 0x01C 16 16 .ro .none 0

/-- Raise interrupt status bit `b` of a page. The page source of the interrupt controller follows it (R439). -/
def State.raise (page b : Nat) (s : State) : State := s.setSt (irqStatus page) (s.st (irqStatus page) ||| 2 ^ b)

/-- Raise a bit if a condition holds. -/
def State.raiseIf (c : Bool) (page b : Nat) (s : State) : State := if c then s.raise page b else s

/-- A block has read SRAM words with errors (R15): those corrected and an uncorrectable one are counted. -/
def sramMet (e : Sram) (s : State) : State :=
  let s1 := (s.bumpBy Reg.SYS_SRAM_CE e.corrected).raiseIf (e.corrected != 0) 0x010 6
  if e.lost then (s1.bump Reg.SYS_SRAM_UE).raise 0x010 7 else s1

/-- Record what leaves the device. [DESIGN CHOICE: log 8] -/
def State.emit (o : Output) (s : State) : State := { s with out := o :: s.out }

/-- Clear status bits of W1C field `f` that `w` names; `sets` are the bits hardware sets in the same clock and which
read 1 afterwards (R4, R5). -/
def State.w1c (f : Fld) (w sets : Nat) (s : State) : State := s.setSt f ((s.st f &&& (0xFFFFFFFF ^^^ w)) ||| sets)

/-- B50_IRQ_STATUS AND B50_IRQ_ENABLE (R539). -/
def State.b50Masked (s : State) : Nat := s.st Reg.B50_IRQ_STATUS &&& s.lv Reg.B50_IRQ_ENABLE

/-- Send the MSI (R539); while function 0 may issue nothing it waits for D0 (R432). -/
def State.sendMsi (s : State) : State :=
  if s.pcie.l2 || s.pcie.d3.contains 0 then
    if s.pcie.asleep.contains (0, 0) then s else { s with pcie := { s.pcie with asleep := s.pcie.asleep ++ [(0, 0)] } }
  else s.emit .msi

/-- A change of what B50 interrupts depend on (R539): IRQ_N follows the masked status, or the MSI is sent as it becomes
non-zero, and with `again` whenever it is left non-zero. -/
def State.b50Irq (again : Bool) (f : State → State) (s : State) : State :=
  let s1 := f s
  let low := fun (x : State) => x.lv Reg.B50_CTRL_IRQ_SEL == 0 && x.b50Masked != 0
  let s2 := if low s = low s1 then s1 else s1.emit (.irqN (low s1))
  if s1.lv Reg.B50_CTRL_IRQ_SEL = 1 ∧ s1.b50Masked ≠ 0 ∧ (again = true ∨ s.b50Masked = 0) then s2.sendMsi else s2

/-- Raise bit `b` of B50_IRQ_STATUS in B50 mode. -/
def State.b50Raise (b : Nat) (s : State) : State :=
  if s.st Reg.SYS_MODE_STATUS_CUR = 5 then
    s.b50Irq false fun s => s.setSt Reg.B50_IRQ_STATUS (s.st Reg.B50_IRQ_STATUS ||| 2 ^ b)
  else s

/-- Run `k` only where `c` holds. [DESIGN CHOICE: log 3] -/
def State.when (c : Bool) (k : State → State) (s : State) : State := if c then k s else s

/-- The address under which per-requester state of a register is held. -/
def regAddr (page off : Nat) : Nat := page * 4096 + off

/-! ### requesters -/

/-- Look up in a list of pairs. -/
def assocGet {α β : Type} [DecidableEq α] (k : α) : List (α × β) → Option β
  | [] => none
  | (a, b) :: r => if a = k then some b else assocGet k r

/-- Replace in a list of pairs. -/
def assocPut {α β : Type} [DecidableEq α] (k : α) (v : β) (l : List (α × β)) : List (α × β) :=
  (k, v) :: l.filter fun e => e.1 ≠ k

/-- Remove from a list of pairs. -/
def assocDel {α β : Type} [DecidableEq α] (k : α) (l : List (α × β)) : List (α × β) := l.filter fun e => e.1 ≠ k

/-- The window index a requester holds for a page (R549). -/
def State.winIndex (s : State) (q : Requester) (page : Nat) : Nat := ((assocGet (q, page) s.req.index).getD 0).toNat

/-- Set it. -/
def State.setWinIndex (q : Requester) (page v : Nat) (s : State) : State :=
  { s with req := { s.req with index := assocPut (q, page) (BitVec.ofNat 32 v) s.req.index } }

/-- A snapshot a requester holds of a register (R19, R548). -/
def State.snapOf (s : State) (q : Requester) (a : Nat) : Option Word := assocGet (q, a) s.req.snap

/-- Take a snapshot. -/
def State.takeSnap (q : Requester) (a v : Nat) (s : State) : State :=
  { s with req := { s.req with snap := assocPut (q, a) (BitVec.ofNat 32 v) s.req.snap } }

/-- A staged word of a requester (R548). -/
def State.staged (s : State) (q : Requester) (a : Nat) : Option Word := assocGet (q, a) s.req.stage

/-- Stage a word. -/
def State.stageWord (q : Requester) (a : Nat) (v : Word) (s : State) : State :=
  { s with req := { s.req with stage := assocPut (q, a) v s.req.stage } }

/-- Empty a stage. -/
def State.unstage (q : Requester) (a : Nat) (s : State) : State :=
  { s with req := { s.req with stage := assocDel (q, a) s.req.stage } }

/-- Everything held for the requesters and pages that `p` selects is cleared (R551). -/
def clearHeld (p : Requester → Nat → Bool) (s : State) : State :=
  let gone := fun (e : (Requester × Nat) × Word) => p e.1.1 (e.1.2 / 4096)
  { s with req := { s.req with
    stage := s.req.stage.filter fun e => !gone e, snap := s.req.snap.filter fun e => !gone e
    index := s.req.index.filter fun (e : (Requester × Nat) × Word) => !p e.1.1 (e.1.2 % 4096)
    viewLive := s.req.viewLive.filter fun (e : Requester × Nat) => !p e.1 e.2 } }

/-- The state held for requesters is cleared on every page (R551). [DEDUCED: log 75] -/
def clearRequesters (p : Requester → Bool) (s : State) : State := clearHeld (fun r _ => p r) s

/-- The PCIe requesters: one function's, or with function 0 every one. -/
def isPcie (f : Nat) (r : Requester) : Bool := match r with | .pcie g => f == 0 || g.val == f | _ => false

/-- A register read answers `v`. -/
def State.answer (v : Nat) (s : State) : State := { s with req := { s.req with data := BitVec.ofNat 32 v } }

/-- Current device mode (R54). -/
def State.mode (s : State) : Nat := s.st Reg.SYS_MODE_STATUS_CUR

/-- The tick generator runs: in RUN, in a calibration that RUN called, and in B50 mode while its lane is not OFF (R47, R50, R479,
R534). -/
def State.ticksRun (s : State) : Bool :=
  s.mode == 3 || (s.mode == 4 && s.cal.back == 3) || (s.mode == 5 && s.stOn Reg.SYS_MODE_STATUS_L0_STATE)

/-- Whether a requester's write of a page is applied: a virtual function reaches only its own two DMACH pages and its
mailbox (R20), in B50 mode PCIe reaches the window alone (R528), and outside the steward cores nothing is written before
start-up step 7 (R569). [DEDUCED: log 125] -/
def State.reaches (s : State) (q : Requester) (page : Nat) : Bool :=
  match q with
  | .s0 | .s1 => true
  | .pcie f =>
    if s.mode = 5 then page == 0 && f.val == 0
    else s.mode != 0 && (f.val == 0 || page == 0x0C0 + 2 * f.val || page == 0x0C1 + 2 * f.val)
  | .smbus => s.mode != 0 && s.on Reg.MGMT_SMB_EN
  | .twin => s.mode != 0

/-- A register write command: its effect where the requester reaches the page, Unsupported Request for a virtual
function that does not (R20), else nothing. -/
def State.busWrite (q : Requester) (page : Nat) (k : State → State) (s : State) : State :=
  if s.reaches q page then k s
  else match q with
    | .pcie f => if f.val = 0 then s else s.emit (.completion none false)
    | _ => s

/-- A shadow word of the page is written: an accepted commit of the page has gone stale (R33, R546). -/
def State.touch (page : Nat) (s : State) : State :=
  { s with commits := s.commits.map fun c => if c.page = page then { c with stale := true } else c }

/-- A write command at offsets 0x040 to 0x7FF, where every word is a shadow word (R546). [DEDUCED: log 22] -/
def State.shadowWrite (q : Requester) (page : Nat) (k : State → State) (s : State) : State :=
  s.busWrite q page fun s => k (s.touch page)

/-- A register read command: its effect where the requester reaches the page; before start-up step 7 only the SYS page
answers and the others read 0 (R569). A disabled SMBus port answers nothing (R470). [DEDUCED: log 125] -/
def State.busRead (q : Requester) (page : Nat) (k : State → State) (s : State) : State :=
  if q == .smbus && !s.on Reg.MGMT_SMB_EN then s
  else if s.reaches q page || (s.mode == 5 && q == .pcie 0) || (page == 0x010 && (q == .pcie 0 || q == .smbus || q == .twin)) then k s
  else match q with
    | .pcie f => if f.val = 0 then s.answer 0 else s.emit (.completion none false)
    | _ => s.answer 0

/-! ### time -/

/-- Nanoseconds as device time. -/
def nsT (n : Nat) : Time := BitVec.ofNat 64 (n * duPerNs)

/-- Device time from `a` to `b`, modulo 2⁶⁴, signed (R58). [DESIGN CHOICE: log 2] -/
def tDiff (b a : Time) : Int := (b - a).toInt

/-- `a` lies before `b` (R58). -/
def tBefore (a b : Time) : Bool := 0 < tDiff b a

/-- Device units in one second. -/
def duPerS : Nat := 128000000000

/-- Move the epoch by `d` device units, normalised (R60). [DESIGN CHOICE: log 2] -/
def epochMove (d : Int) (s : State) : State :=
  let n := (s.tbase.sec.toNat * duPerS + s.tbase.subs : Nat) + d
  { s with tbase := { s.tbase with sec := BitVec.ofInt 48 (n / duPerS), subs := (n % duPerS).toNat } }

/-- Device time wraps (R63). [DESIGN CHOICE: log 2] -/
def epochWrapped (s : State) : State := (epochMove (144115188 * 128000000000 + 9709551616) s).raise 0x012 5

/-- A stretch of slew goes into the record of them; one that continues the newest at the same rate extends it. -/
def noteSlew (a b : Time) (rate moved : Int) (l : List (Time × Time × Int × Int)) : List (Time × Time × Int × Int) :=
  match l with
  | (a0, b0, r0, m0) :: rest => if b0 = a ∧ r0 = rate then (a0, b, r0, m0 + moved) :: rest else (a, b, rate, moved) :: l
  | [] => [(a, b, rate, moved)]

/-- The slew of the epoch over `d` device units of elapsed time (R62), at ADJ_PPM as written, also outside 1 to 100. [DESIGN CHOICE: log 2, 110] -/
def slewEpoch (d : Nat) (s : State) : State :=
  let left := s.stS Reg.TBASE_ADJ_LEFT
  if left = 0 then s else
    let rate : Int := s.lv Reg.TBASE_CFG_ADJ_PPM
    let tot := s.tbase.adjFrac + d * s.lv Reg.TBASE_CFG_ADJ_PPM
    let mv := min (tot / 1000000) left.natAbs
    let dir : Int := if left < 0 then -mv else mv
    let slews := noteSlew s.time (s.time + BitVec.ofNat 64 d) (if left < 0 then -rate else rate) dir s.tbase.slews
    let s1 := (epochMove dir { s with tbase := { s.tbase with adjFrac := tot % 1000000, slews := slews } }).setStI Reg.TBASE_ADJ_LEFT (left - dir)
    if left = dir then
      ({ s1 with tbase := { s1.tbase with adjFrac := 0 } }.setSt Reg.TBASE_STATUS_ADJ_BUSY 0).raise 0x012 7
    else s1

/-! ### stamp queues (R76) -/

def State.tdcChan (s : State) (n : Nat) : TdcChan := Amap.get s.tdc.chans n {}

/-- Change a channel; its entry count and non-empty bit follow (R88). -/
def State.setTdcChan (n : Nat) (c : TdcChan) (s : State) : State :=
  let s1 := { s with tdc := { s.tdc with chans := Amap.put n c s.tdc.chans } }
  let ne := s1.st Reg.TDC_STATUS_NONEMPTY
  (s1.setSt (Reg.TDC_CHn_COUNT.ix n) c.queue.length).setSt Reg.TDC_STATUS_NONEMPTY
    (if c.queue.isEmpty then ne &&& (255 ^^^ 2 ^ n) else ne ||| 2 ^ n)

/-- The GAP bit of a meta word (R77). -/
def metaGap : Word := 0x10

/-- A stamp leaves the staging buffer for the queue (R76). -/
def enqueueStamp (n : Nat) (st : Time) (m : Word) (s : State) : State :=
  let c := s.tdcChan n
  if s.lv (Reg.TDC_CHn_CFG_QUEUE_EN.ix n) = 0 then s
  else if 1024 ≤ c.queue.length then
    ((s.setTdcChan n { c with gapQueue := true }).bump (Reg.TDC_CHn_OVERFLOW.ix n)).raise 0x013 n
  else
    s.setTdcChan n { c with queue := c.queue ++ [(st, if c.gapQueue then m ||| metaGap else m)], gapQueue := false }

/-- The stamps of a channel whose turn has come leave the staging buffer. [DEDUCED: log 16] -/
def drainStaging (n : Nat) (now : Time) (s : State) : State :=
  let c := s.tdcChan n
  let due := fun (e : Time × Time × Word) => !tBefore now e.1
  let go := c.staging.filter due
  go.foldl (fun s e => enqueueStamp n e.2.1 e.2.2 s) (s.setTdcChan n { c with staging := c.staging.filter fun e => !due e })

/-- The same for every channel that has stamps staged, at the present device time. [DEDUCED: log 16] -/
def drainStamps (s : State) : State :=
  (s.tdc.chans.filter fun e => decide (e.1 < 8) && !e.2.staging.isEmpty).foldl (fun x e => drainStaging e.1 s.time x) s

/-- The converter-clock edge at or before an instant, at or after it, and nearest to it: the edges are 128 device units apart
(R57). [DESIGN CHOICE: log 2] -/
def clockFloor (t : Time) : Time := BitVec.ofNat 64 (t.toNat / 128 * 128)
def clockCeil (t : Time) : Time := clockFloor (t + 127)
def clockNear (t : Time) : Time := clockFloor (t + 64)

/-- An instant has come: device time has reached its edge of the converter clock. [DESIGN CHOICE: log 2] -/
def State.reached (s : State) (t : Time) : Bool := !tBefore s.time (clockFloor t)

/-- Device time counts: it starts at the first PLL lock of start-up (R57). -/
def State.timeRuns (s : State) : Bool := s.mode != 0 || s.stOn Reg.TBASE_STATUS_PLL_LOCK

/-- The count of the converter clock reaches the edge at or before `t`, and what falls due by then happens. A time that lies behind leaves
device time where it is. [DESIGN CHOICE: log 2, 106] -/
def advance (t : Time) (s : State) : State :=
  let c := clockFloor t
  drainStamps (if !s.timeRuns || decide (tDiff c s.time < 0) then s
    else
      let s1 := slewEpoch (tDiff c s.time).toNat s
      let s2 := if c.toNat < s.time.toNat then epochWrapped s1 else s1
      { s2 with time := c })

/-- Mapped time of a device time, in device units, in the selected scale (R60). -/
def mappedUnits (s : State) (t : Time) : Nat :=
  let n : Int := (s.tbase.sec.toNat * duPerS + s.tbase.subs + t.toNat : Nat)
  let off : Int := if s.on Reg.TBASE_CFG_SCALE then sx 16 (s.lv Reg.TBASE_UTC_OFFSET) * duPerS else 0
  ((n - off) % ((2 ^ 48 * duPerS : Nat) : Int)).toNat

/-- How far the epoch has been slewed since device time `t` (R62, R205). -/
def slewedSince (s : State) (t : Time) : Int :=
  s.tbase.slews.foldl (fun a e =>
    let (x, y, _, m) := e
    if tDiff y t ≤ 0 then a else if 0 ≤ tDiff x t then a + m else a + m * tDiff y t / tDiff y x) 0

/-- Mapped time of a device time that may lie back, by the epoch as it stood then (R60, R205). [DEDUCED: log 122] -/
def mappedAt (s : State) (t : Time) : Nat := (((mappedUnits s t : Int) - slewedSince s t) % ((2 ^ 48 * duPerS : Nat) : Int)).toNat

/-! ### causes of record flags -/

/-- A cause of a record flag begins. [DEDUCED: log 13] -/
def causeOn (flag : Nat) (s : State) : State := { s with causes := ⟨flag, s.time, none⟩ :: s.causes }

/-- The open intervals of a cause end. [DEDUCED: log 13] -/
def causeOff (flag : Nat) (s : State) : State :=
  { s with causes := s.causes.map fun c => if c.flag = flag ∧ c.till.isNone then { c with till := some s.time } else c }

/-- The causes whose interval overlaps the device times `a` to `b` (R374): a flag bit each, and bit 16 + n for TWIN_TAKEOVER on
lane `n`. -/
def causesOver (s : State) (a b : Time) : Nat :=
  s.causes.foldl (fun acc c =>
    if tBefore b c.from_ then acc
    else match c.till with
      | some e => if tBefore e a then acc else acc ||| 2 ^ c.flag
      | none => acc ||| 2 ^ c.flag) 0

/-- The flags of the whole device over an interval. -/
def flagsOver (s : State) (a b : Time) : Nat := causesOver s a b % 2 ^ 8

/-- The flags of a lane over an interval (R374, R509). -/
def laneFlags (s : State) (n : Lane) (a b : Time) : Nat :=
  let c := causesOver s a b
  c % 2 ^ 8 ||| c / 2 ^ (16 + n.val) % 2 * 2 ^ 8

/-! ### record memory -/

/-- The byte at a record-memory address (R349). [DESIGN CHOICE: log 4] -/
def memByte (m : List Host.Cell) (a : Nat) : Byte := Amap.get m a 0

/-- Store a byte, keeping the canonical form. [DESIGN CHOICE: log 4] -/
def memPut (a : Nat) (b : Byte) (m : List Host.Cell) : List Host.Cell := if b = 0 then Amap.del m a else Amap.put a b m

/-- Bytes from an address on. [DESIGN CHOICE: log 64] -/
def memRead (s : State) (a n : Nat) : List Byte := (List.range n).map fun i => memByte s.mem (a + i)

/-- Put bytes from an address on. -/
def memFill : Nat → List Byte → List Host.Cell → List Host.Cell
  | _, [], m => m
  | a, b :: r, m => memFill (a + 1) r (memPut a b m)

/-- Store bytes from an address on; a code word written whole is good again (R365). [DESIGN CHOICE: log 64] -/
def memWrite (a : Nat) (l : List Byte) (s : State) : State :=
  { s with
    mem := memFill a l s.mem
    poison := Amap.drop (fun w => decide (a ≤ 16 * w ∧ 16 * w + 16 ≤ a + l.length)) s.poison }

/-- Some byte of a range lies in an uncorrectable code word. -/
def poisoned (s : State) (a n : Nat) : Bool := s.poison.any fun e => decide (a < 16 * e.1 + 16 ∧ 16 * e.1 < a + n)

/-- The canonical form of memory: addresses strictly rising, no byte that reads as an unlisted one. [DESIGN CHOICE: log 4] -/
def memWf : List Host.Cell → Bool
  | [] => true
  | [(_, b)] => b != 0
  | (a, b) :: (c, d) :: r => b != 0 && a < c && memWf ((c, d) :: r)

/-- Base and size in bytes of a region (R353): 0 corner turn, 1 and 2 history rings, 3 segments, 4 streams, 5 contexts,
6 traces, 7 mirror staging. -/
def regionBytes (s : State) (e : Nat) : Nat × Nat :=
  let r := Amap.get s.regions e (0, 0)
  (r.1 * 2 ^ 20, r.2 * 2 ^ 20)

/-! ### lanes -/

/-- Lane state of R46: 0 OFF, 1 STARTING, 2 RUNNING, 3 DRAINING. -/
def laneStateF (n : Lane) : Fld := if n = 0 then Reg.SYS_MODE_STATUS_L0_STATE else Reg.SYS_MODE_STATUS_L1_STATE

def State.laneState (s : State) (n : Lane) : Nat := s.st (laneStateF n)

/-- SYS_LANE_MODE.Ln and the DAS sub-mode. -/
def laneModeF (n : Lane) : Fld := if n = 0 then Reg.SYS_LANE_MODE_L0 else Reg.SYS_LANE_MODE_L1
def laneSubF (n : Lane) : Fld := if n = 0 then Reg.SYS_LANE_DAS_SUB_L0 else Reg.SYS_LANE_DAS_SUB_L1

/-- The lane mode in force, and the DAS mode it implies: the sub-mode in DUAL, else the lane mode (R45). -/
def State.laneMode (s : State) (n : Lane) : Nat := s.lv (laneModeF n)
def State.dasMode (s : State) (n : Lane) : Nat := if s.laneMode n = 6 then s.lv (laneSubF n) else s.laneMode n

/-- The tick-source lane (R25). -/
def State.srcLane (s : State) : Lane := if s.lv Reg.MERID_CFG_SRC = 0 ∨ s.mode = 5 then 0 else 1

/-- The period of a lane in ns: T_M of the source lane, N × T_M of the other (R25); in B50 mode B50_PERIOD. -/
def State.lanePeriod (s : State) (n : Lane) : Nat :=
  if s.mode = 5 then s.lv Reg.B50_PERIOD else if n = s.srcLane then s.lv Reg.MERID_PERIOD_PERIOD_NS else s.lv Reg.MERID_DIV_N * s.lv Reg.MERID_PERIOD_PERIOD_NS

/-- MERID_TICK_COUNT (R27). -/
def State.tickCount (s : State) : Nat := s.st2 Reg.MERID_TICK_COUNT_LO Reg.MERID_TICK_COUNT_HI

/-- `v` lies in the future of tick count `c` (R27). -/
def tickAhead (v c : Nat) : Bool := 1 ≤ (v + 2 ^ 40 - c) % 2 ^ 40 && (v + 2 ^ 40 - c) % 2 ^ 40 ≤ 2 ^ 39 - 1

/-- An accepted commit of the page waits and its shadow words are as they were (R33). -/
def State.commitReady (s : State) (page : Nat) : Bool := s.commits.any fun c => c.page == page && !c.stale

/-- The value a field will hold at the first launch under the next configuration (R53): shadow for RESTART fields, the
pending commit's value for COMMIT fields, else the value in force. -/
def State.nx (s : State) (f : Fld) : Nat :=
  if f.eff = .restart then s.sh f
  else if f.eff = .commit then (if s.commitReady f.page then s.sh f else s.lv f)
  else s.lv f

/-- MERID_APPLY_TICK (R36). -/
def State.applyTick (s : State) : Nat := s.lv Reg.MERID_APPLY_TICK_LO + 2 ^ 32 * s.lv Reg.MERID_APPLY_TICK_HI

/-- Commits are not held past source tick count `c` (R36). -/
def State.commitsOpen (s : State) (c : Nat) : Bool :=
  !s.on Reg.MERID_APPLY_CTRL_HOLD || s.merid.applyLate || !tickAhead s.applyTick c

/-- The gate function of R21: ACT_OUT and not PEER_ACT_IN and EMIT_EN. -/
def State.gateOpen (s : State) : Bool :=
  s.stOn Reg.LDRV_GATE_STATUS_ACT_OUT && !s.stOn Reg.LDRV_GATE_STATUS_PEER_ACT_IN && s.stOn Reg.LDRV_GATE_STATUS_EMIT_EN

/-- A shot may be lit: the gate function is true and the claim is complete (R110, R111, R498). -/
def State.emissionOn (s : State) : Bool := s.gateOpen && s.twin.claim == 3

end Sys2Proof.Machine
end

