-- ==== Sys2Proof/Machine/Arith.lean ====
section
/-!
DEFINITION. Integer arithmetic for the rules that state a result as the rounding of a real function: square root, sine
and cosine, arctangent, logarithm and exponential in fixed point with 96 fraction bits (DEDUCED: where a rule rounds a
real value, the model rounds this value, whose error is below 2⁻⁸⁰ of full scale).
-/

namespace Sys2Proof.Machine

/-- Square root, one bit at a time. -/
def isqrtGo : Nat → Nat → Nat → Nat
  | 0, _, r => r
  | k + 1, n, r => if (r + 2 ^ k) * (r + 2 ^ k) ≤ n then isqrtGo k n (r + 2 ^ k) else isqrtGo k n r

/-- The integer part of the square root. -/
def isqrt (n : Nat) : Nat := isqrtGo (n.log2 / 2 + 1) n 0

/-- The square root rounded to the nearest integer. [DEDUCED: log 10] -/
def isqrtRound (n : Nat) : Nat := (isqrt (4 * n) + 1) / 2

/-- The unit of the fixed-point functions. -/
def fxOne : Nat := 2 ^ 96

/-- π and ln 2 in units of 2⁻⁹⁶. -/
def fxPi : Nat := 1069028584064966747859680373161870783300 / 2 ^ 32
def fxLn2 : Nat := 235865763225513294137944142764154484399 / 2 ^ 32

/-- The fixed-point product. -/
def fxMul (a b : Int) : Int := a * b / (fxOne : Int)

/-- Horner's rule for `Σ c_j x^j`, lowest coefficient first. [DEDUCED: log 10] -/
def fxPoly (x : Int) : List Int → Int
  | [] => 0
  | c :: r => c + fxMul x (fxPoly x r)

/-- Factorial. -/
def fact : Nat → Nat
  | 0 => 1
  | n + 1 => (n + 1) * fact n

/-- Coefficients of cosine and sine in x², and of arctangent over x in x². -/
def cosCoef : List Int := (List.range 16).map fun j => (if j % 2 = 0 then 1 else -1) * ((fxOne / fact (2 * j) : Nat) : Int)
def sinCoef : List Int := (List.range 16).map fun j => (if j % 2 = 0 then 1 else -1) * ((fxOne / fact (2 * j + 1) : Nat) : Int)
def atanCoef : List Int := (List.range 26).map fun j => (if j % 2 = 0 then 1 else -1) * ((fxOne / (2 * j + 1) : Nat) : Int)
def atanhCoef : List Int := (List.range 40).map fun j => ((fxOne / (2 * j + 1) : Nat) : Int)
def expCoef : List Int := (List.range 28).map fun j => ((fxOne / fact j : Nat) : Int)

/-- Cosine and sine of an angle of 0 to π/4, in fixed point. -/
def cosSinSmall (x : Int) : Int × Int :=
  let y := fxMul x x
  (fxPoly y cosCoef, fxMul x (fxPoly y sinCoef))

/-- Cosine and sine of `a / n` turns. [DEDUCED: log 10] -/
def cosSinTurn (a : Int) (n : Nat) : Int × Int :=
  let m := (a % (n : Int)).toNat
  -- the octant and the angle inside it, in units of 2π / (8 n)
  let e := 8 * m
  let oct := e / n
  let r := e - oct * n
  let ang (k : Nat) : Int := ((k * fxPi / (4 * n) : Nat) : Int)
  let cs := if oct % 2 = 0 then cosSinSmall (ang r) else cosSinSmall (ang (n - r))
  let c := cs.1
  let s := cs.2
  match oct with
  | 0 => (c, s) | 1 => (s, c) | 2 => (-s, c) | 3 => (-c, s)
  | 4 => (-c, -s) | 5 => (-s, -c) | 6 => (s, -c) | _ => (c, -s)

/-- `z / (1 + √(1 + z²))`: the tangent of half the angle. -/
def halfTan (z : Nat) : Nat := z * fxOne / (fxOne + isqrt (fxOne * fxOne + z * z))

/-- Arctangent of a tangent of 0 to 1, in radians. -/
def atanUnit (z : Nat) : Int :=
  let h : Int := halfTan (halfTan (halfTan z))
  8 * fxMul h (fxPoly (fxMul h h) atanCoef)

/-- The argument of `x + i y` in radians, from −π to π; that of 0 is free, by the use it is taken for. [DESIGN CHOICE: log 108] -/
def argRad (use : Nat) (x y : Int) : Int :=
  let ax := x.natAbs
  let ay := y.natAbs
  if ax = 0 ∧ ay = 0 then divRound ((Config.argOfZero use).toInt * (2 * fxPi : Nat)) (2 ^ 24) else
    let t := if ay ≤ ax then atanUnit (ay * fxOne / ax) else ((fxPi / 2 : Nat) : Int) - atanUnit (ax * fxOne / ay)
    let u := if x < 0 then (fxPi : Int) - t else t
    if y < 0 then -u else u

/-- The argument of `x + i y` in units of 2π / 2^b, rounded to nearest, as an integer. [DEDUCED: log 10] -/
def argTurns (use b : Nat) (x y : Int) : Int := divRound (argRad use x y * 2 ^ b) (2 * fxPi)

/-- Natural logarithm of `a / b` (both positive). [DEDUCED: log 10] -/
def lnFx (a b : Nat) : Int :=
  -- m in [1, 2) with a / b = m 2^e
  let e : Int := (a.log2 : Int) - (b.log2 : Int)
  let num := if e < 0 then a * 2 ^ e.natAbs else a
  let den := if e < 0 then b else b * 2 ^ e.natAbs
  let z : Int := ((num : Int) - den) * fxOne / ((num : Int) + den)
  e * fxLn2 + 2 * fxMul z (fxPoly (fxMul z z) atanhCoef)

/-- Exponential of a fixed-point number. [DEDUCED: log 10] -/
def expFx (x : Int) : Int :=
  let k := x / (fxLn2 : Int)
  let r := x - k * fxLn2
  let p := fxPoly r expCoef
  if 0 ≤ k then p * 2 ^ k.toNat else p / 2 ^ (-k).toNat

/-! ### almanac values -/

/-- The index of lane `n`'s item block (R473). -/
def almLane (n : Lane) : Nat := if n = 0 then 0x000 else 0x200

/-- The kind of an item (R472, R473): 0 OFFSET, 1 GAIN, 2 PHASE, 3 reserved. -/
def almKind (i : Nat) : Nat :=
  if i < 0x400 then
    let j := i % 0x200
    if j < 0x010 then 0 else if j < 0x020 then 1 else if j < 0x030 then 0
    else if j < 0x032 then 1 else if j < 0x035 then 0
    else if 0x040 ≤ j ∧ j < 0x080 then 0
    else if 0x080 ≤ j ∧ j < 0x130 then 1
    else if 0x130 ≤ j ∧ j < 0x1E0 then 2 else 3
  else if i < 0x488 then 0
  else if i < 0x48C then 0 else if i < 0x490 then 1
  else if i < 0x4A0 then 1
  else if i = 0x4A0 then 0
  else if 0x4A8 ≤ i ∧ i < 0x4AB then 0
  else if 0x4AB ≤ i ∧ i < 0x4B2 then 1
  else if 0x4C0 ≤ i ∧ i < 0x4DC then 1
  else if 0x4E0 ≤ i ∧ i < 0x4E8 then 0 else 3

/-- Items without a user layer (R473). -/
def almFactoryOnly (i : Nat) : Bool :=
  (i < 0x400 && 0x040 ≤ i % 0x200 && i % 0x200 < 0x080) || (0x488 ≤ i && i < 0x490) || i == 0x4A0 || (0x4E0 ≤ i && i < 0x4E8)

/-- The range within which an item's effective value must lie (R145, R472): ±32,767 fs for a skew, 32 bits else. -/
def almRange (i : Nat) : Int := if i < 0x400 ∧ 0x020 ≤ i % 0x200 ∧ i % 0x200 < 0x030 then 32767 else 2 ^ 31 - 1

/-- F and U combined, before saturation (R472). -/
def almCombine (i : Nat) (f u : Int) : Int :=
  match almKind i with
  | 1 => f + u + divRound (f * u) (2 ^ 20)
  | 2 => sx 16 (ux 16 (f + u))
  | _ => f + u

/-- E, saturated; and whether it saturated (R472). [DEDUCED: log 86] -/
def almSat (i : Nat) (v : Int) : Int × Bool :=
  let r := almRange i
  let lo := if r = 32767 then -r else -r - 1
  if v < lo then (lo, true) else if r < v then (r, true) else (v, false)

/-- The effective value of an item in a map of effective values (R475). [DESIGN CHOICE: log 82] -/
def almVal (factory eff : Amap Word) (i : Nat) : Int :=
  match Amap.find i eff with
  | some w => sx 32 w.toNat
  | none => (almSat i (almCombine i (sx 32 (Amap.get factory i 0).toNat) 0)).1

/-- Interpolation of a range item in |f_c| (R474): `base` is the index of its point 0, `f` the centre in units of R91.
The result is in units of the item's LSB, rounded down. [DEDUCED: log 11; DESIGN CHOICE: log 82] -/
def almInterp (factory eff : Amap Word) (base : Nat) (f : Int) : Int :=
  -- 50 MHz is 107,374,182.4 units of R91
  let a := 10 * f.natAbs
  let step := 1073741824
  let m := a / step
  if 10 ≤ m then almVal factory eff (base + 10)
  else
    let lo := almVal factory eff (base + m)
    let hi := almVal factory eff (base + m + 1)
    lo + (hi - lo) * ((a % step : Nat) : Int) / step

/-! ### budget use (R37) -/

/-- The use of a block for its latest frame, and its peak (R37). [DESIGN CHOICE: log 106] -/
def budgetUsed (b u : Nat) (s : State) : State :=
  { s with budget := Amap.put b (u, max u (Amap.get s.budget b (0, 0)).2) s.budget }

/-- A block has finished a frame's work (R37): when is not modelled. [DESIGN CHOICE: log 106] -/
def frameDone (b : Nat) (s : State) : State :=
  budgetUsed b (Config.budgetUse s.free).toNat { s with free := s.free + 1 }

end Sys2Proof.Machine
end

