-- ==== Sys2Proof/Machine/Records.lean ====
section
/-!
DEFINITION. Forming records: the streams that select a product, the records being formed, and their hand-over to the
codec (R10, R335, R373, R378, R379).
-/

namespace Sys2Proof.Machine

/-- The streams of a product that a test of their selection admits (R10). -/
def State.streamsOf (s : State) (product : Nat) (p : Selection → Bool) : List Stream :=
  s.strm.streams.filter fun x => x.sel.product == product && p x.sel

/-- Those of them that were bound before `t`, where a frame or a period of their source begins (R379). -/
def State.streamsAt (s : State) (product : Nat) (t : Time) (p : Selection → Bool) : List Stream :=
  (s.streamsOf product p).filter fun x => decide (0 < tDiff t x.since)

/-- The context slot `c`. -/
def State.ctx (s : State) (c : Nat) : Ctx := Amap.get s.cmp.slots c {}

/-- Change a context slot. -/
def State.setCtx (c : Nat) (x : Ctx) (s : State) : State := { s with cmp := { s.cmp with slots := Amap.put c x s.cmp.slots } }

/-- Change the stream `sid`. -/
def State.updStream (sid : Nat) (f : Stream → Stream) (s : State) : State :=
  { s with strm := { s.strm with streams := s.strm.streams.map fun x => if x.sid = sid then f x else x } }

/-- A record of a paused stream becomes ready: it is not formed, and GAP is pending (R337). -/
def pauseDropAt (c : Nat) (s : State) : State :=
  (s.bump Reg.CMP_PAUSE_DROPS).setCtx c { s.ctx c with gapPending := true, resetPending := true }

/-- A record of the stream becomes ready for the compress engines with the stream's next SEQ (R335, R373); the first one
after a paused period carries GAP (R337). -/
def deliver (x : Stream) (r : Rec) (s : State) : State :=
  let c := s.ctx x.slot
  if c.paused then pauseDropAt x.slot s
  else
    let fl := (if c.gapPending then r.flags ||| 0x40 else r.flags) ||| (if c.taken then 0x100 else 0) |||
      (if [0x05, 0x06, 0x07, 0x08, 0x0B, 0x0C, 0x0D].contains r.product then 0 else laneFlags s (Fin.ofNat 2 x.sel.lane) r.time r.till)
    let s1 := s.setCtx x.slot { c with nextSeq := (c.nextSeq + 1) % 2 ^ 32, gapPending := false, taken := false }
    { s1 with cmp := { s1.cmp with
        ready := s1.cmp.ready ++ [⟨x.slot, c.nextSeq, { r with sid := x.sid, flags := fl }, s.time⟩] } }

/-! ### buffers of the stream region (R337) -/

/-- Data bytes of a buffer. -/
def bufData : Nat := 65520

/-- Buffers in the stream-buffer region. -/
def bufTotal (s : State) : Nat := (regionBytes s 4).2 / 65536

/-- Buffers that chains hold. -/
def bufsUsed (s : State) : List Nat := s.cmp.slots.flatMap fun e => e.2.bufs

/-- The lowest free buffer. [DEDUCED: log 59] -/
def freeBuf (s : State) : Option Nat :=
  let used := bufsUsed s
  (List.range (min (used.length + 1) (bufTotal s))).find? fun b => !used.contains b

/-- CMP_BUF_FREE and a slot's BUFS follow the chains. -/
def syncBufs (s : State) : State :=
  (s.setSt Reg.CMP_BUF_TOTAL (bufTotal s)).setSt Reg.CMP_BUF_FREE (bufTotal s - (bufsUsed s).length)

/-- A consumer still holds a record of the stream. [DEDUCED: log 68] -/
def streamHeld (s : State) (sid : Nat) : Bool := s.strm.subs.any fun e => e.2.sels.any fun k => k.sid == sid && !k.todo.isEmpty

/-- Unbind a stopping stream once none of its records is open (R379) and no record in delivery is left (R384): its slot gives
up what it holds. -/
def stopAtBoundary (sid : Nat) (s : State) : State :=
  match s.strm.streams.find? (fun x => x.sid = sid) with
  | some x =>
    if x.stopping && x.opens.isEmpty && !streamHeld s sid then
      let l := s.strm.streams.filter fun y => decide (y.sid ≠ sid)
      let s1 := { s with strm := { s.strm with streams := l }
                         cmp := { s.cmp with ready := s.cmp.ready.filter fun y => y.slot != x.slot } }
      syncBufs ((s1.setCtx x.slot { s1.ctx x.slot with bound := false, sid := 0, paused := false, held := none, bufs := [], recs := [] }).setSt
        Reg.STRM_STREAMS l.length)
    else s
  | none => s

/-- Close the open record `key` of a stream, as it stands. -/
def closeOpen (sid key : Nat) (s : State) : State :=
  match s.strm.streams.find? (fun x => x.sid = sid) with
  | some x =>
    match Amap.find key x.opens with
    | some r => stopAtBoundary sid (deliver x r (s.updStream sid fun y => { y with opens := Amap.del y.opens key }))
    | none => s
  | none => s

/-- Change the open record `key` of a stream, starting it from `r0` where none is open; a stopping stream starts none. -/
def growOpen (x : Stream) (key : Nat) (r0 : Rec) (f : Rec → Rec) (s : State) : State :=
  match s.strm.streams.find? (fun y => y.sid = x.sid) with
  | some y =>
    match Amap.find key y.opens with
    | some r => s.updStream x.sid fun z => { z with opens := Amap.put key (f r) z.opens }
    | none => if y.stopping then s else s.updStream x.sid fun z => { z with opens := Amap.put key (f r0) z.opens }
  | none => s

/-- The open record `key` of the stream `sid`. -/
def openRec (s : State) (sid key : Nat) : Option Rec :=
  (s.strm.streams.find? fun x => x.sid = sid).bind fun x => Amap.find key x.opens

/-- Put an entry of an entry product into every stream that selects it; the record closes at the selection's count of
entries, at most 64 (R378). `r0` starts a record, `upd` is what each entry changes in its header. -/
def addEntryWith (product : Nat) (p : Selection → Bool) (key : Nat) (r0 : Selection → Rec) (upd : Rec → Rec) (entry : List Byte)
    (flags : Nat) (s : State) : State :=
  (s.streamsOf product p).foldl
    (fun s x =>
      let s1 := growOpen x key (r0 x.sel)
        (fun r => upd { r with body := r.body ++ entry, pointCount := r.pointCount + 1, flags := r.flags ||| flags }) s
      match openRec s1 x.sid key with
      | some r => if min x.sel.frames 64 ≤ r.pointCount then closeOpen x.sid key s1 else s1
      | none => s1)
    s

/-- The same where every selection starts the same record and an entry changes nothing else. -/
def addEntry (product : Nat) (p : Selection → Bool) (key : Nat) (r0 : Rec) (entry : List Byte) (flags : Nat) (s : State) : State :=
  addEntryWith product p key (fun _ => r0) (fun r => r) entry flags s

/-- A record of one selection is formed whole. -/
def addRecord (x : Stream) (r : Rec) (s : State) : State :=
  if x.stopping then stopAtBoundary x.sid s else deliver x r s

/-- The part of a selection's range that fits `total` points: first and count, none where FIRST lies beyond (R378, R379). -/
def selRange (x : Selection) (total : Nat) : Option (Nat × Nat) :=
  if total ≤ x.first then none
  else some (x.first, if x.count = 0 then total - x.first else min x.count (total - x.first))

/-- One slot shot's part of a frame product goes into every stream of the lane that selects it (R163, R186): `bytes` gives
the payload of a range, `last` says that it completes a lane frame, `till` ends the covered interval, `flags` gives the
flags by range. The record closes at the selection's count of lane frames. -/
def addFrame (product width : Nat) (n : Lane) (t till : Time) (total : Nat) (last : Bool) (bytes : Nat → Nat → List Byte)
    (flags : Nat → Nat → Nat) (s : State) : State :=
  (s.streamsAt product t fun x => x.lane == n.val).foldl
    (fun s x =>
      match selRange x.sel total with
      | none => s
      | some (a, c) =>
        let r0 : Rec := { product := product, width := width, time := t
                          firstPoint := BitVec.ofNat 32 (n.val * 2 ^ 31 + a), pointCount := c }
        let s1 := growOpen x 0 r0
          (fun r => { r with body := r.body ++ bytes a c, flags := r.flags ||| flags a c, till := till
                             frameCount := if last then r.frameCount + 1 else r.frameCount }) s
        match openRec s1 x.sid 0 with
        | some r => if last && x.sel.frames ≤ r.frameCount then closeOpen x.sid 0 s1 else s1
        | none => s1)
    s

/-- Close every open record of the lane's products as it stands (R50, R51). -/
def closeLane (n : Lane) (products : List Nat) (s : State) : State :=
  (s.strm.streams.filter fun x => products.contains x.sel.product && x.sel.lane == n.val).foldl
    (fun s x => x.opens.foldl (fun s e => closeOpen x.sid e.1 s) s) s

/-- A 40-bit packed complex word (R11, R12). -/
def packComplex (z : Int × Int) : Nat := ux 20 z.1 * 2 ^ 20 + ux 20 z.2

end Sys2Proof.Machine
end

