-- ==== Sys2Proof/Machine/TimeBase.lean ====
section
/-!
DEFINITION. The reference, time and PPS commands (chapter 3, R57 to R72).
-/

namespace Sys2Proof.Machine

open Host (Outcome)

/-- The outcome of a command that goes on. -/
abbrev Res := Host.Outcome State Fault Refusal

/-- REFCLK is declared lost, unless it is already (R65, R69): also where REF_LOST still stands from start-up (R68) or from a loss whose
slew-back has begun, which ends. The covered interval of R66 then goes on. [DEDUCED: log 13] -/
def declareRefLoss (s : State) : State :=
  if s.tbase.refDown then s
  else
    let s1 := s.when (!s.stOn Reg.TBASE_STATUS_REF_LOST) (causeOn 0)
    let s2 := { s1 with tbase := { s1.tbase with refDown := true } }
    ((((s2.setSt Reg.TBASE_STATUS_SLEWING 0).setSt Reg.TBASE_STATUS_REF_LOST 1).bump Reg.TBASE_REF_LOSSES).raise 0x012 0).b50Raise 5

/-- The limit of a frequency window in 0.01 ppm (R64). -/
def refLimit (s : State) : Nat := if s.stOn Reg.TBASE_STATUS_XTAL_CAL then 5000 else 6000

/-- REFCLK is judged present (R64); when it was lost, the return begins and the clocks leave the crystal (R67). [DEDUCED: log 13] -/
def refPresent (s : State) : State :=
  let s0 := { s with tbase := { s.tbase with refDown := false } }
  let s1 := (s0.setSt Reg.TBASE_STATUS_REF_PRESENT 1).setSt Reg.TBASE_STATUS_XTAL_CAL 1
  if s.stOn Reg.TBASE_STATUS_REF_LOST then (s1.setSt Reg.TBASE_STATUS_SLEWING 1).setSt Reg.TBASE_STATUS_HOLDOVER 0 else s1

/-- REF_WINDOW (R64, R65, R67). While FORCE_HOLD is 1 the edges are ignored (R69). -/
def execRefWindow (t : Time) (err : Int) (s : State) : Res :=
  let s0 := advance t s
  .next (if s0.on Reg.TBASE_CFG_FORCE_HOLD then s0 else
    let s1 := s0.setStI Reg.TBASE_REF_FREQ_ERR (satS 16 err)
    if err.natAbs ≤ refLimit s1 then refPresent s1
    else declareRefLoss (s1.setSt Reg.TBASE_STATUS_REF_PRESENT 0))

/-- REF_LOST (R65). -/
def execRefLost (t : Time) (s : State) : Res :=
  let s0 := advance t s
  .next (if s0.on Reg.TBASE_CFG_FORCE_HOLD then s0 else declareRefLoss (s0.setSt Reg.TBASE_STATUS_REF_PRESENT 0))

/-- HOLDOVER_CHANGEOVER (R65): the clocks are on the crystal. -/
def execHoldoverChangeover (t : Time) (s : State) : Res :=
  .next ((advance t s).when (s.stOn Reg.TBASE_STATUS_REF_LOST) (State.setSt Reg.TBASE_STATUS_HOLDOVER 1))

/-- REF_BACK (R67): slew-back completes. [DEDUCED: log 13] -/
def execRefBack (t : Time) (s : State) : Res :=
  let s0 := advance t s
  .next (if s0.stOn Reg.TBASE_STATUS_SLEWING then
    causeOff 0 ((((s0.setSt Reg.TBASE_STATUS_SLEWING 0).setSt Reg.TBASE_STATUS_HOLDOVER 0).setSt
      Reg.TBASE_STATUS_REF_LOST 0).raise 0x012 1)
  else s0)

/-- FORCE_HOLD_SET (R69). -/
def execForceHoldSet (q : Requester) (t : Time) (s : State) : Res :=
  .next ((advance t s).shadowWrite q 0x012 fun s => declareRefLoss (s.setNow Reg.TBASE_CFG_FORCE_HOLD 1))

/-- FORCE_HOLD_CLEAR (R69): the return under R67 starts with the next window judged present. -/
def execForceHoldClear (q : Requester) (t : Time) (s : State) : Res :=
  .next ((advance t s).shadowWrite q 0x012 (State.setNow Reg.TBASE_CFG_FORCE_HOLD 0))

/-- The staged epoch words (R61). -/
def stagedSubs (s : State) (lo : Word) : Nat := lo.toNat + 2 ^ 32 * s.sh Reg.TBASE_EPOCH_SUBS_HI
def stagedSec (s : State) : BitVec 48 :=
  BitVec.ofNat 48 (s.sh Reg.TBASE_EPOCH_SEC_LO + 2 ^ 32 * s.sh Reg.TBASE_EPOCH_SEC_HI)

/-- The epoch takes the staged words, or EPOCH_REJECT is raised (R61). A cancelled adjustment raises no ADJ_DONE. [DEDUCED: log 109] -/
def epochCommit (lo : Word) (s : State) : State :=
  let s0 := s.setNow Reg.TBASE_EPOCH_SUBS_LO lo.toNat
  if 127999999999 < stagedSubs s lo then s0.raise 0x012 6
  else
    let s1 := { s0 with tbase := { s0.tbase with sec := stagedSec s, subs := stagedSubs s lo, adjFrac := 0, slews := [] } }
    (((s1.setSt Reg.TBASE_ADJ_LEFT 0).setSt Reg.TBASE_STATUS_ADJ_BUSY 0).bump Reg.TBASE_EPOCH_SETS).raise 0x012 4

/-- A value is added to the remaining adjustment (R62). The sum is a 32-bit two's complement register. -/
def adjWrite (adj : Word) (s : State) : State :=
  let left := sx 32 (s.st Reg.TBASE_ADJ_LEFT + adj.toNat)
  let s1 := s.setStI Reg.TBASE_ADJ_LEFT left
  if left = 0 then
    (s1.setSt Reg.TBASE_STATUS_ADJ_BUSY 0).raiseIf (s.stOn Reg.TBASE_STATUS_ADJ_BUSY) 0x012 7
  else s1.setSt Reg.TBASE_STATUS_ADJ_BUSY 1

/-- TBASE_ADJ (R62). -/
def execTbaseAdj (q : Requester) (t : Time) (adj : Word) (s : State) : Res :=
  .next ((advance t s).shadowWrite q 0x012 (adjWrite adj))

/-- ADJ_DONE (R62): device time reaches the instant at which the remaining adjustment is 0; `advance` raises ADJ_DONE. -/
def execAdjDone (t : Time) (s : State) : Res := .next (advance t s)

/-- EPOCH_WRAP (R63): device time wraps to 0. -/
def execEpochWrap (s : State) : Res :=
  .next ({ epochWrapped (slewEpoch (2 ^ 64 - s.time.toNat) s) with time := 0 })

/-- TIME_SNAPSHOT_READ (R59) at `t`. [DEDUCED: log 18] -/
def execTimeSnapshotRead (q : Requester) (t : Time) (pps : Bool) (s : State) : Res :=
  let s0 := advance t s
  .next (s0.busRead q 0x012 fun s =>
    if pps then
      (((s.takeSnap q (regAddr 0x012 0x828) (s.st Reg.TBASE_PPS_STAMP_HI)).takeSnap q (regAddr 0x012 0x82C)
        (s.st Reg.TBASE_PPS_ERR_LO)).takeSnap q (regAddr 0x012 0x830) (s.st Reg.TBASE_PPS_ERR_HI)).answer
          (s.st Reg.TBASE_PPS_STAMP_LO)
    else
      let m := mappedUnits s s.time
      let sec := m / duPerS
      let subs := m % duPerS
      (((((s.takeSnap q (regAddr 0x012 0x804) (s.time.toNat / 2 ^ 32)).takeSnap q (regAddr 0x012 0x808) subs).takeSnap q
        (regAddr 0x012 0x80C) (subs / 2 ^ 32)).takeSnap q (regAddr 0x012 0x810) sec).takeSnap q (regAddr 0x012 0x814)
          (sec / 2 ^ 32)).answer s.time.toNat)

end Sys2Proof.Machine
end

