-- ==== Sys2Proof/Machine/Tdc.lean ====
section
/-!
DEFINITION. The interval unit: stamps, queues, interval engines and launch stamping (chapter 3, R73 to R85).
-/

namespace Sys2Proof.Machine

/-! ### staging -/

/-- When a stamp staged at `t` leaves the buffer: 20 ns after the one before it (R76). [DEDUCED: log 16] -/
def leaveTime (c : TdcChan) (t : Time) : Time :=
  match c.staging.getLast? with
  | some e => (if tBefore t e.1 then e.1 else t) + nsT 20
  | none => t + nsT 20

/-! ### interval engines -/

def State.iv (s : State) (m : Nat) : IvEngine := Amap.get s.tdc.engines m {}

def State.setIv (m : Nat) (e : IvEngine) (s : State) : State :=
  { s with tdc := { s.tdc with engines := Amap.put m e s.tdc.engines } }

/-- Signed difference of stamps in quarters of an LSB, modulo 2⁶⁶. -/
def quarterDiff (b a : Nat) : Int := sx 66 ((b + 2 ^ 66 - a % 2 ^ 66) % 2 ^ 66)

/-- W of an engine, in quarters of an LSB (R79). -/
def ivWindow (s : State) (m : Nat) : Int := (s.lv (Reg.TDC_IVm_WIN.ix m) * duPerNs * 4 : Nat)

/-- Standard deviation in units of 2⁻⁸ LSB, 32 bits, saturating (R81). [DEDUCED: log 11, 17] -/
def ivStd (e : IvEngine) : Nat :=
  if e.n ≤ 1 then 0 else min (2 ^ 32 - 1) (isqrt (65536 * (e.n * e.sq - (e.sum * e.sum).toNat) / (e.n * (e.n - 1))))

/-- A result set is latched, and with CONT = 0 the engine stops (R81, R82). -/
def ivLatch (m : Nat) (s : State) : State :=
  let e := s.iv m
  let mean := divRound (e.sum * 256) e.n
  let s1 := if e.unread then s.bump (Reg.TDC_IVm_OVERWRITE.ix m) else s
  let s2 := s1.setSt2 (Reg.TDC_IVm_MEAN_LO.ix m) (Reg.TDC_IVm_MEAN_HI.ix m) (ux 56 mean)
  let s3 := s2.setSt (Reg.TDC_IVm_STD.ix m) (ivStd e)
  let s4 := s3.setSt2 (Reg.TDC_IVm_MIN_LO.ix m) (Reg.TDC_IVm_MIN_HI.ix m) (ux 48 e.least)
  let s5 := s4.setSt2 (Reg.TDC_IVm_MAX_LO.ix m) (Reg.TDC_IVm_MAX_HI.ix m) (ux 48 e.most)
  let s6 := (s5.setSt (Reg.TDC_IVm_STATUS_DONE.ix m) 1).raise 0x013 (8 + m)
  let cont := s.on (Reg.TDC_IVm_CFG_CONT.ix m)
  let e1 := { e with n := 0, sum := 0, sq := 0, least := 0, most := 0, unread := true }
  (s6.setIv m (if cont then e1 else { e1 with starts := [], stops := [], stopped := true })).setSt
    (Reg.TDC_IVm_STATUS_COLLECTED.ix m) (if cont then 0 else e.n)

/-- A paired interval of `d` quarters is classified and, if `good`, enters the statistics (R80, R81). A stamp marked DL_UNLOCKED takes part in
pairing and classification; only its result is left out. [DEDUCED: log 17] -/
def ivResult (m : Nat) (d : Int) (good : Bool) (s : State) : State :=
  let v : Int := if d.natAbs < 4 then 0 else divRound d 4
  let s1 := if d.natAbs < 4 then s.bump (Reg.TDC_IVm_TIE.ix m)
    else if d < 0 then s.bump (Reg.TDC_IVm_REVERSED.ix m) else s
  if good then
    let e := s1.iv m
    let e1 := { e with
      n := e.n + 1, sum := e.sum + v, sq := e.sq + (v * v).toNat
      least := if e.n = 0 then v else min e.least v
      most := if e.n = 0 then v else max e.most v }
    let s2 := (s1.setIv m e1).setSt (Reg.TDC_IVm_STATUS_COLLECTED.ix m) e1.n
    if s.lv (Reg.TDC_IVm_N.ix m) ≤ e1.n then ivLatch m s2 else s2
  else s1

/-- Period mode (R79). -/
def ivPeriodEdge (m : Nat) (q : Nat) (good : Bool) (s : State) : State :=
  let e := s.iv m
  let s1 := s.setIv m { e with starts := [(q, good)] }
  match e.starts with
  | (a, g) :: _ =>
    if ivWindow s m < quarterDiff q a then s1.bump (Reg.TDC_IVm_UNPAIRED.ix m)
    else ivResult m (quarterDiff q a) (g && good) s1
  | [] => s1

/-- A start in next-stop mode (R79). [DEDUCED: log 17] -/
def ivNextStart (m : Nat) (q : Nat) (good : Bool) (s : State) : State :=
  let e := s.iv m
  let s1 := s.setIv m { e with starts := [(q, good)] }
  match e.starts with
  | (a, _) :: _ => if quarterDiff q a ≤ ivWindow s m then s1.bump (Reg.TDC_IVm_UNPAIRED.ix m) else s1
  | [] => s1

/-- A stop in next-stop mode (R79, R80). [DEDUCED: log 17] -/
def ivNextStop (m : Nat) (q : Nat) (good : Bool) (s : State) : State :=
  let e := s.iv m
  match e.starts with
  | (a, g) :: _ =>
    if 0 ≤ quarterDiff q a ∧ quarterDiff q a ≤ ivWindow s m then
      ivResult m (quarterDiff q a) (g && good) (s.setIv m { e with starts := [] })
    else s.bump (Reg.TDC_IVm_ORPHAN.ix m)
  | [] => s.bump (Reg.TDC_IVm_ORPHAN.ix m)

/-- In nearest mode, a stop that no start can take any more is dropped, an untaken one counted ORPHAN (R80). [DEDUCED: log 17] -/
def ivPrune (m : Nat) (now : Nat) (s : State) : State :=
  let e := s.iv m
  let w := ivWindow s m
  let alive := fun (p : Nat × Bool × Bool) =>
    decide (quarterDiff now p.1 ≤ w) || e.starts.any fun a => decide ((quarterDiff p.1 a.1).natAbs ≤ w)
  let gone := e.stops.filter fun p => !alive p
  (s.setIv m { e with stops := e.stops.filter alive }).bumpBy (Reg.TDC_IVm_ORPHAN.ix m)
    (gone.filter fun p => !p.2.1).length

/-- The stop nearest to `a` within `w`, the earlier of two equidistant ones (R79). [DEDUCED: log 17] -/
def nearestStop (a : Nat) (w : Int) (l : List (Nat × Bool × Bool)) : Option (Nat × Bool × Bool) :=
  l.foldl (fun best p =>
    if w < ((quarterDiff p.1 a).natAbs : Int) then best else
    match best with
    | none => some p
    | some b =>
      let dp := (quarterDiff p.1 a).natAbs
      let db := (quarterDiff b.1 a).natAbs
      if dp < db ∨ (dp = db ∧ quarterDiff p.1 b.1 < 0) then some p else some b) none

/-- The oldest start of an engine in nearest mode is decided (R79). [DEDUCED: log 17] -/
def ivDecideNearest (m : Nat) (s : State) : State :=
  let e := s.iv m
  match e.starts with
  | [] => s
  | (a, g) :: rest =>
    let s1 := s.setIv m { e with starts := rest }
    match nearestStop a (ivWindow s m) e.stops with
    | none => s1
    | some p =>
      if p.2.1 then s1.bump (Reg.TDC_IVm_UNPAIRED.ix m)
      else
        ivResult m (quarterDiff p.1 a) (g && p.2.2)
          (s1.setIv m { e with starts := rest, stops := e.stops.map fun x => if x.1 = p.1 then (x.1, true, x.2.2) else x })

/-- An edge of channel `ch` reaches engine `m`. -/
def ivEdge (ch : Nat) (q : Nat) (good : Bool) (s : State) (m : Nat) : State :=
  let e := s.iv m
  if !s.on (Reg.TDC_IVm_CFG_EN.ix m) || e.stopped then s else
    let isStart := s.lv (Reg.TDC_IVm_CFG_START.ix m) == ch
    let isStop := s.lv (Reg.TDC_IVm_CFG_STOP.ix m) == ch
    if s.on (Reg.TDC_IVm_CFG_PERIOD.ix m) then (if isStart then ivPeriodEdge m q good s else s)
    else if s.on (Reg.TDC_IVm_CFG_NEAREST.ix m) then
      let e1 := if isStart then { e with starts := e.starts ++ [(q, good)] } else e
      let e2 := if isStop then { e1 with stops := e1.stops ++ [(q, false, good)] } else e1
      if isStart || isStop then ivPrune m q (s.setIv m e2) else s
    else
      -- a stop with a stamp at or after the start pairs with it: on one channel the stop is taken first
      let s1 := if isStop then ivNextStop m q good s else s
      if isStart && !(s1.iv m).stopped then ivNextStart m q good s1 else s1

/-- A commit of the TDC page restarts the collections (R88). -/
def ivRestart (s : State) : State :=
  [0, 1, 2, 3].foldl (fun s m =>
    (s.setIv m { s.iv m with starts := [], stops := [], n := 0, sum := 0, sq := 0, least := 0, most := 0, stopped := false }).setSt
      (Reg.TDC_IVm_STATUS_COLLECTED.ix m) 0) s

/-! ### launch edges -/

def State.setLaunch (n : Lane) (l : LaunchState) (s : State) : State :=
  { s with tdc := { s.tdc with launch := s.tdc.launch.set n l } }

/-- A gate pulse that has no edge yet takes one within E ± WIN (R83). -/
def pairLaunch (st : Time) (locked : Bool) (w : LaunchWait) : LaunchWait :=
  if w.edge.isNone && decide ((tDiff st w.expect).natAbs ≤ w.win) then { w with edge := some (tDiff st w.expect, locked) } else w

/-- A rising edge of channel `ch` is offered to every gate pulse that a lane awaits, each with its own window, and remembered for as
long before a launch as a window can open (R83). -/
def launchEdge (ch : Nat) (st : Time) (locked : Bool) (s : State) (n : Lane) : State :=
  if s.lv (Reg.TDC_LAUNCHn_CFG_EN.ix n) = 0 ∨ s.lv (Reg.TDC_LAUNCHn_CFG_CH.ix n) ≠ ch then s else
    let l := s.tdc.launch.get n
    s.setLaunch n { l with
      recent := (st, locked) :: l.recent.filter fun e => decide (tDiff st e.1 ≤ 65535), waits := l.waits.map (pairLaunch st locked) }

/-- The launch edge of a gate pulse is awaited; an edge that its window held before it is the first (R83). -/
def awaitLaunch (n : Lane) (w : LaunchWait) (s : State) : State :=
  let l := s.tdc.launch.get n
  s.setLaunch n { l with waits := l.waits ++ [l.recent.reverse.foldl (fun w e => pairLaunch e.1 e.2 w) w] }

/-- The mean of the last 64 valid Δ_L, in 2⁻⁸ LSB for the register (R88), low bits dropped, and rounded to whole LSB, ties upward (R85). [DEDUCED: log 11] -/
def launchMean (l : List Int) : Int := if l.isEmpty then 0 else sumI l * 256 / (l.length : Int)
def launchMeanLsb (l : List Int) : Int := if l.isEmpty then 0 else divRound (sumI l) l.length

/-! ### the commands -/

/-- A stamp in quarters of an LSB (R73): the converter's count with its phase and tap, and the almanac's delay-line constants of the tap and
the channel; an internal command's instant is exact (R75). [DEDUCED: log 112] -/
def stampQuarters (s : State) (ch src : Nat) (raw : Time) : Nat :=
  if 12 ≤ src ∧ src ≤ 16 then raw.toNat * 4
  else
    let k := almVal s.alm.factory s.alm.eff (0x400 + 16 * ch + raw.toNat % 16) + almVal s.alm.factory s.alm.eff (0x480 + ch)
    ux 66 ((raw.toNat * 4 : Nat) + k)

/-- The edge kinds that EDGE selects (R88). -/
def edgeSelected (cfg : Nat) (rising : Bool) : Bool := if rising then cfg % 2 == 1 else cfg / 2 == 1

/-- The TIMESTAMPS entry of a stamp (R78). [DEDUCED: log 18] -/
def stampEntry (st : Time) (m : Word) : List Byte := leBytes 8 st.toNat ++ leBytes 4 m.toNat

/-- An edge that the dead time allows is stamped (R73, R76, R78, R79, R83). [DEDUCED: log 16, 112] -/
def stampEdge (ch src : Nat) (raw : Time) (rising : Bool) (s0 : State) : State :=
  let s := drainStaging ch raw s0
  let c := s.tdcChan ch
  if 16 ≤ c.staging.length then
    ((s.setTdcChan ch { c with gapStage := true }).bump (Reg.TDC_CHn_STAGE_DROPS.ix ch)).raise 0x013 ch
  else
    let q := stampQuarters s ch src raw
    let st : Time := BitVec.ofNat 64 ((q + 2) / 4)
    let locked := s.stOn Reg.TDC_STATUS_DL_LOCK
    let m : Nat := 1 + 2 * bit rising + 4 * bit (s.stOn Reg.TBASE_STATUS_REF_LOST) + 8 * bit (!locked) +
      16 * bit c.gapStage + 256 * src
    let mw := BitVec.ofNat 32 m
    let s1 := s.setTdcChan ch { c with
      last := some raw, gapStage := false, staging := c.staging ++ [(leaveTime c raw, st, mw)] }
    let s2 := if s1.on (Reg.TDC_CHn_CFG_STREAM_EN.ix ch) then
        addEntry 0x0C (fun x => x.src / 2 ^ ch % 2 == 1) ch
          { product := 0x0C, width := 3, time := s1.merid.lastTick, till := raw, firstPoint := BitVec.ofNat 32 ch }
          (stampEntry st mw) (flagsOver s1 raw raw) s1
      else s1
    let s3 := [0, 1, 2, 3].foldl (ivEdge ch q locked) s2
    if rising then launchEdge ch st locked (launchEdge ch st locked s3 0) 1 else s3

/-- An edge of source `src` reaches channel `ch` where the channel selects it (R75, R76, R88). -/
def channelEdge (src : Nat) (t : Time) (rising : Bool) (s : State) (ch : Nat) : State :=
  if s.lv (Reg.TDC_CHn_CFG_SRC.ix ch) ≠ src ∨ edgeSelected (s.lv (Reg.TDC_CHn_CFG_EDGE.ix ch)) rising = false then s
  else match (s.tdcChan ch).last with
    | some a => if (tDiff t a).natAbs < 4 * duPerNs then s.bump (Reg.TDC_CHn_DEAD.ix ch) else stampEdge ch src t rising s
    | none => stampEdge ch src t rising s

/-- An edge of a source feeds every channel that selects it (R75). -/
def sourceEdge (src : Nat) (t : Time) (rising : Bool) (s : State) : State :=
  (List.range 8).foldl (channelEdge src t rising) s

/-- The rising edge of a source that an event of the device, or another row of the table, brings (R75). -/
def stampSource (src : Nat) (t : Time) (s : State) : State := sourceEdge src t true s

/-- TDC_EDGE (R75, R76): an edge at TI0 to TI7, or the rising edge of REF. The other sources are stamped where their own events come. [DESIGN CHOICE: log 15] -/
def execTdcEdge (src : Fin 32) (count : BitVec 57) (fine : BitVec 7) (rising : Bool) (s : State) : Res :=
  let t : Time := count ++ fine
  let s0 := advance t s
  .next (if src.val < 8 ∨ (src.val = 10 ∧ rising = true) then sourceEdge src.val t rising s0 else s0)

/-- IV_WINDOW_END (R79, R81): start + W has passed for the oldest start of a collecting engine in nearest mode. -/
def execIvWindowEnd (m : Fin 4) (t : Time) (s : State) : Res :=
  let s0 := advance t s
  let passed := match (s0.iv m).starts with
    | (a, _) :: _ => decide (ivWindow s0 m ≤ quarterDiff (t.toNat * 4) a)
    | [] => false
  .next (if s0.on (Reg.TDC_IVm_CFG_EN.ix m) && !(s0.iv m).stopped && s0.on (Reg.TDC_IVm_CFG_NEAREST.ix m) &&
      !s0.on (Reg.TDC_IVm_CFG_PERIOD.ix m) && passed then
    ivPrune m (t.toNat * 4) (ivDecideNearest m s0) else s0)

/-- QDATA_POP (R77). -/
def execQdataPop (q : Requester) (s : State) (t : Time := 0) : Res :=
  .next ((advance t s).busRead q 0x013 fun s =>
    let ch := s.winIndex q 0x013 % 8
    let c := s.tdcChan ch
    match c.queue with
    | [] => ((s.takeSnap q (regAddr 0x013 0xC08) 0).takeSnap q (regAddr 0x013 0xC0C) 0).answer 0
    | (st, m) :: rest =>
      (((s.setTdcChan ch { c with queue := rest }).takeSnap q (regAddr 0x013 0xC08) (st.toNat / 2 ^ 32)).takeSnap q
        (regAddr 0x013 0xC0C) m.toNat).answer st.toNat)

/-- IV_RESULT_READ (R82). -/
def execIvResultRead (q : Requester) (m : Fin 4) (s : State) : Res :=
  .next (s.busRead q 0x013 fun s =>
    let snap := fun (f : Fld) (s : State) => s.takeSnap q (regAddr 0x013 (f.ix m).off) (s.st (f.ix m))
    let s1 := snap Reg.TDC_IVm_MAX_HI (snap Reg.TDC_IVm_MAX_LO (snap Reg.TDC_IVm_MIN_HI (snap Reg.TDC_IVm_MIN_LO
      (snap Reg.TDC_IVm_STD (snap Reg.TDC_IVm_MEAN_HI s)))))
    (s1.setIv m { s1.iv m with unread := false }).answer (s.st (Reg.TDC_IVm_MEAN_LO.ix m)))

/-- DL_UNLOCK (R74). -/
def execDlUnlock (t : Time) (s : State) : Res :=
  let s0 := advance t s
  .next (if s0.stOn Reg.TDC_STATUS_DL_LOCK then (s0.setSt Reg.TDC_STATUS_DL_LOCK 0).raise 0x013 14 else s0)

/-- DL_LOCK (R74): the delay lines lock once the PLLs have. -/
def execDlLock (t : Time) (s : State) : Res :=
  .next ((advance t s).when (s.stOn Reg.TBASE_STATUS_PLL_LOCK) (State.setSt Reg.TDC_STATUS_DL_LOCK 1))

/-! ### PPS (R70 to R72) -/

/-- The interval of two PPS_IN edges is 1 s ± 100 µs (R70). [DEDUCED: log 14] -/
def ppsInWindow (a b : Time) : Bool :=
  (1000000000 - 100000) * duPerNs ≤ (tDiff b a).toNat && (tDiff b a).toNat ≤ (1000000000 + 100000) * duPerNs

/-- A used PPS_IN edge (R71). [DEDUCED: log 14] -/
def ppsUse (t : Time) (s : State) : State :=
  let m := mappedUnits s t % duPerS
  let err : Int := if m < duPerS / 2 then m else (m : Int) - duPerS
  let s1 := (s.setSt2 Reg.TBASE_PPS_STAMP_LO Reg.TBASE_PPS_STAMP_HI t.toNat)
  let s2 := s1.setSt2 Reg.TBASE_PPS_ERR_LO Reg.TBASE_PPS_ERR_HI (ux 40 err)
  s2.raise 0x012 8

/-- PPS_IN_EDGE (R70, R71, R75). An edge outside the window leaves PPS lost without a loss of its own. [DEDUCED: log 14, 111] -/
def execPpsInEdge (t : Time) (s : State) : Res :=
  let s0 := stampSource 8 t (advance t s)
  let s1 := { s0 with tbase := { s0.tbase with ppsLast := some t } }
  .next (match s.tbase.ppsLast with
    | none => s1
    | some a =>
      if ppsInWindow a t then
        ppsUse t ((s1.setSt Reg.TBASE_STATUS_PPS_PRESENT 1).raiseIf (!s.stOn Reg.TBASE_STATUS_PPS_PRESENT) 0x012 3)
      else (s1.bump Reg.TBASE_PPS_BAD).setSt Reg.TBASE_STATUS_PPS_PRESENT 0)

/-- PPS_LOST (R70). -/
def execPpsLost (t : Time) (s : State) : Res :=
  let s0 := advance t s
  .next (if s0.stOn Reg.TBASE_STATUS_PPS_PRESENT then
    ((s0.setSt Reg.TBASE_STATUS_PPS_PRESENT 0).bump Reg.TBASE_PPS_LOSSES).raise 0x012 2
  else s0)

/-- `t` is an instant at which PPS_OUT rises: a whole second of mapped time plus the trim, within the ±1 ns of R72. -/
def ppsOutDue (s : State) (t : Time) : Bool :=
  let trim := sx 16 (s.lv Reg.TBASE_PPS_OUT_TRIM)
  let m := ((mappedUnits s t : Int) - trim * duPerNs) % (duPerS : Int)
  decide (m ≤ duPerNs ∨ (duPerS : Int) - duPerNs ≤ m)

/-- A PPS_OUT rise at `t` comes too soon after the previous one (R72); WIDTH_MS is taken as written, also outside 1 to 500. [DESIGN CHOICE: log 110] -/
def ppsOutTooSoon (s : State) (t : Time) : Bool :=
  match s.tbase.ppsRise with
  | none => false
  | some p => (tDiff t p).toNat < (s.lv Reg.TBASE_PPS_OUT_WIDTH_MS + 100) * 1000000 * duPerNs

/-- PPS_OUT_RISE (R72, R75). -/
def execPpsOutRise (t : Time) (s : State) : Res :=
  let s0 := advance t s
  .next (if s0.on Reg.TBASE_PPS_OUT_EN && ppsOutDue s0 t then
    if ppsOutTooSoon s0 t then s0.bump Reg.TBASE_PPS_OUT_SUPPRESSED
    else
      let w := s0.lv Reg.TBASE_PPS_OUT_WIDTH_MS
      stampSource 9 t ({ s0 with tbase := { s0.tbase with ppsRise := some t, ppsWidth := w, ppsHigh := true } }.emit (.ppsOut t true))
  else s0)

/-- PPS_OUT_FALL (R72): by `t` the pulse has been high for its width, and it has fallen then. -/
def execPpsOutFall (t : Time) (s : State) : Res :=
  let s0 := advance t s
  let fall := s0.tbase.ppsRise.map fun r => r + nsT (s0.tbase.ppsWidth * 1000000)
  .next (match fall with
    | some f =>
      if s0.tbase.ppsHigh && !tBefore t f then { s0 with tbase := { s0.tbase with ppsHigh := false } }.emit (.ppsOut f false) else s0
    | none => s0)

end Sys2Proof.Machine
end

