-- ==== Sys2Proof/Machine/Light.lean ====
section
/-!
DEFINITION. Light drive and constellation synthesis (chapter 4, R90 to R114).
-/

namespace Sys2Proof.Machine

/-! ### the constellation -/

/-- A field of slot `k` of a per-lane page. -/
def slotF (f : Fld) (n : Lane) (k : Nat) : Fld := (f.pg n).ix k

/-- Slot `k` of lane `n` is enabled in the configuration `c`. -/
def slotEn (c : RegFile) (n : Lane) (k : Nat) : Bool := RegFile.get c (slotF Reg.SYNn_SLOTk_CFG_EN n k) != 0

/-- The enabled slots of a lane. -/
def slotsOf (c : RegFile) (n : Lane) : List Nat := (List.range 8).filter (slotEn c n)

/-- Bandwidth of slot `k` in MHz (R90). -/
def slotBw (c : RegFile) (n : Lane) (k : Nat) : Nat := 25 * 2 ^ RegFile.get c (slotF Reg.SYNn_SLOTk_CFG_BW n k)

/-- Pulse length of slot `k` in ns. -/
def slotLen (c : RegFile) (n : Lane) (k : Nat) : Nat := RegFile.get c (slotF Reg.SYNn_SLOTk_LEN n k)

/-- The longest pulse of the constellation. -/
def maxLen (c : RegFile) (n : Lane) : Nat := (slotsOf c n).foldl (fun m k => max m (slotLen c n k)) 0

/-- An entry of the slot table breaks R90 or R91. `edge` is the EDGE that is checked. -/
def slotBad (c : RegFile) (edge : Nat) (n : Lane) (k : Nat) : Bool :=
  let shape := RegFile.get c (slotF Reg.SYNn_SLOTk_CFG_SHAPE n k)
  let len := slotLen c n k
  let bwc := RegFile.get c (slotF Reg.SYNn_SLOTk_CFG_BW n k)
  let b := slotBw c n k
  -- f_c and B / 2 in units of 2 GHz / 2³², times 1,000: 1 MHz is 2,147,483.648
  let f := sx 32 (RegFile.get c (slotF Reg.SYNn_SLOTk_FREQ n k)) * 1000
  let h : Int := (b * 2147483648 / 2 : Nat)
  let lim : Int := 500 * 2147483648
  5 < bwc || 2 < shape ||
  (shape == 0 && (len < 20 || 10000 < len || len * b < 1000 || len < 4 * edge)) ||
  (shape != 0 && (len < 200 || 20000 < len)) ||
  decide (f - h < -lim) || decide (lim < f + h)

/-- CHIRP_RATE (R93): round(256 · B · 2³² / (f_DAC² · T_p)). -/
def chirpRate (c : RegFile) (n : Lane) (k : Nat) : Nat :=
  if slotEn c n k && RegFile.get c (slotF Reg.SYNn_SLOTk_CFG_SHAPE n k) != 0 && slotLen c n k != 0 then
    -- B in MHz, T_p in ns: f_DAC² T_p = 4e18 × T_p e-9
    (divRound (256 * slotBw c n k * 1000000 * 2 ^ 32 : Nat) (4000000000 * slotLen c n k)).toNat
  else 0

/-- CHIRP_RATE of a lane follows its slot table in force (R93). -/
def syncChirp (n : Lane) (s : State) : State :=
  (List.range 8).foldl (fun s k => s.setSt (slotF Reg.SYNn_SLOTk_CHIRP_RATE n k) (chirpRate s.live n k)) s

/-- The offset O_k in ns of slot `k` (R28): T_M · k / K in RATE, else 0. -/
def slotOffset (mode periodNs k slots : Nat) : Nat := if mode = 1 ∧ slots ≠ 0 then periodNs * k / slots else 0

/-- The slots that one gate pulse commanded as slot `k` covers: the slot itself in RATE, else all (R99). -/
def pulseSlots (s : State) (n : Lane) (k : Nat) : List Nat :=
  if s.dasMode n = 1 then (slotsOf s.live n).filter (· == k)
  else if k = 0 then slotsOf s.live n else []

/-! ### the waveform -/

/-- The amplitude envelope at half-nanosecond `i` of a pulse of `len` ns, in units of 2⁻⁹⁶ (R90): raised-cosine edges of
EDGE ns, a Tukey window of taper TAPER / 16, or 1. -/
def envelope (shape len taper edge i : Nat) : Int :=
  let rise (d span : Nat) : Int := -- (1 − cos(π d / span)) / 2
    ((fxOne : Int) - (cosSinTurn d (2 * span)).1) / 2
  -- the length of one flank in units of 1/32 ns, and the distance to the nearer end in the same unit
  let flank := if shape = 0 then 32 * edge else if shape = 2 then len * taper else 0
  let d := min (16 * i) (32 * len - 16 * i)
  if flank = 0 ∨ flank ≤ d then fxOne else rise d flank

/-- The waveform of one slot at an amplitude, before the trims (R92 to R94): 2 · T_p sample pairs. [DEDUCED: log 11, 26] -/
def waveAt (amp : Nat) (c : RegFile) (n : Lane) (k : Nat) : List (Int × Int) :=
  let shape := RegFile.get c (slotF Reg.SYNn_SLOTk_CFG_SHAPE n k)
  let len := slotLen c n k
  let ph0 := RegFile.get c (slotF Reg.SYNn_SLOTk_PHASE n k)
  let down := RegFile.get c (slotF Reg.SYNn_SLOTk_CFG_DIR n k) != 0
  let rate : Int := if down then -(chirpRate c n k : Int) else chirpRate c n k
  let fc := sx 32 (RegFile.get c (slotF Reg.SYNn_SLOTk_FREQ n k))
  -- B / 2 in NCO units with 8 fraction bits
  let half : Int := divRound (256 * slotBw c n k * 2 ^ 32 : Nat) 4000
  let f0 := if shape = 0 then fc * 256 else if down then fc * 256 + half else fc * 256 - half
  let edge := min (RegFile.get c (slotF Reg.SYNn_SLOTk_CFG_EDGE n k)) (len / 4)
  let taper := RegFile.get c (slotF Reg.SYNn_SLOTk_CFG_TAPER n k)
  (List.range (2 * len)).map fun i =>
    -- phase in units of 2π / 2⁴⁰: the start phase, i steps of the start frequency, and the chirp's accumulated steps
    let th : Int := (ph0 * 2 ^ 24 : Nat) + i * f0 + rate * ((i * (i - 1) / 2 : Nat) : Int)
    let cs := cosSinTurn th (2 ^ 40)
    let w := envelope shape len taper edge i
    (divRound (8191 * amp * fxMul w cs.1) (4096 * fxOne), divRound (8191 * amp * fxMul w cs.2) (4096 * fxOne))

/-- The waveform of one slot at its AMP. [DEDUCED: log 11, 26] -/
def slotWave (c : RegFile) (n : Lane) (k : Nat) : List (Int × Int) := waveAt (RegFile.get c (slotF Reg.SYNn_SLOTk_AMP n k)) c n k

/-- Add waveforms sample by sample. [DEDUCED: log 26] -/
def addWaves : List (Int × Int) → List (Int × Int) → List (Int × Int)
  | [], b => b
  | a, [] => a
  | (x, y) :: a, (u, v) :: b => (x + u, y + v) :: addWaves a b

/-- Tap `j` of the 15-tap filter of R96 in units of 2⁻¹⁶ / 10: the last one makes the low-frequency gain 0.90. [DEDUCED: log 26] -/
def sincTap (j : Nat) : Int :=
  if j < 14 then Config.sincTap j else 589824 - sumI ((List.range 14).map Config.sincTap)

/-- One component of a waveform through the filter of R96. [DEDUCED: log 26] -/
def sincFilter (x : List Int) : List Int :=
  let a := List.replicate 7 0 ++ x
  (List.range x.length).map fun i => divRound (sumI ((List.range 15).map fun j => sincTap j * a.getD (i + 14 - j) 0)) 655360

/-- The DAC samples of a gate pulse and how many of them saturated (R94 to R96): the sum of the slots, filtered, with the trims, then
saturated. [DEDUCED: log 26] -/
def pulseWave (c : RegFile) (n : Lane) (slots : List Nat) : List (Int × Int) × Nat :=
  let sum := slots.foldl (fun w k => addWaves w (slotWave c n k)) []
  let ti := sx 16 (RegFile.get c (Reg.SYNn_BIAS_I_TRIM.pg n))
  let tq := sx 16 (RegFile.get c (Reg.SYNn_BIAS_Q_TRIM.pg n))
  let comp := if RegFile.get c (Reg.SYNn_CFG_SINC_COMP.pg n) = 0 then sum else (sincFilter (sum.map (·.1))).zip (sincFilter (sum.map (·.2)))
  let raw := comp.map fun p => (p.1 + ti, p.2 + tq)
  let clip := fun (x : Int) => max (-8191) (min 8191 x)
  (raw.map fun p => (clip p.1, clip p.2), (raw.filter fun p => 8191 < p.1.natAbs ∨ 8191 < p.2.natAbs).length)

/-! ### emission -/

/-- The pumps of a lane (chapter 4, reference arrangement). -/
def pumpLane (m : Nat) : Lane := if m < 2 then 0 else 1

/-- A latched fault holds pump `m`, or laser `i`, off (R103, R108). -/
def pumpFaulty (s : State) (m : Nat) : Bool := (s.st Reg.LDRV_FAULT_PUMP_OPEN ||| s.st Reg.LDRV_FAULT_OVERCURRENT) / 2 ^ m % 2 == 1
def laserFaulty (s : State) (i : Nat) : Bool := (s.st Reg.LDRV_FAULT_LD_OPEN_GND ||| s.st Reg.LDRV_FAULT_LD_LOAD_SHORT) / 2 ^ i % 2 == 1

/-- A fault inhibits the lane's emission (R108). -/
def laneFaulty (s : State) (n : Lane) : Bool :=
  s.stOn (Reg.SYNn_FAULT_GATE_OPEN_GND.pg n) || s.stOn (Reg.SYNn_FAULT_GATE_LOAD_SHORT.pg n) ||
  s.stOn (Reg.SYNn_FAULT_MOD_I_OPEN.pg n) || s.stOn (Reg.SYNn_FAULT_MOD_Q_OPEN.pg n) ||
  (List.range 4).any fun m => pumpLane m == n && pumpFaulty s m

/-- Emission of a lane is inhibited by a fault, or held for a supply dip under LIGHT_HOLD or for the temperature (R108, R111, R563, R571). -/
def laneInhibited (s : State) (n : Lane) : Bool :=
  laneFaulty s n || s.stOn Reg.SYS_SUPPLY_HOLDING

/-- What the modulator outputs of a lane hold between pulses (R94): the trims, or with the gate function false zero (R109). -/
def idleLevel (s : State) (n : Lane) : Int × Int :=
  if s.gateOpen then (sx 16 (s.lv (Reg.SYNn_BIAS_I_TRIM.pg n)), sx 16 (s.lv (Reg.SYNn_BIAS_Q_TRIM.pg n))) else (0, 0)

/-- The outputs between pulses follow the gate function and the trims in force. -/
def syncIdle (s : State) : State := { s with drive := { s.drive with idle := ⟨idleLevel s 0, idleLevel s 1⟩ } }

/-- SYNn_STATUS.EMIT follows the gate, the claim and the inhibits; that of B50 the gate function alone (R538); so do the outputs between
pulses. -/
def syncEmit (s0 : State) : State :=
  let s := syncIdle s0
  ((s.setSt (Reg.SYNn_STATUS_EMIT.pg 0) (bit (s.emissionOn && !laneInhibited s 0))).setSt (Reg.SYNn_STATUS_EMIT.pg 1)
    (bit (s.emissionOn && !laneInhibited s 1))).setSt Reg.B50_STATUS_EMIT (bit s.gateOpen)

/-- `k` dark slot shots of a lane are counted, the first after a lit one raising DARK (R111); B50 counts them of its own. -/
def countDark (n : Lane) (k : Nat) (slots : List Nat) (s : State) : State :=
  let l := s.shots.get n
  let s1 := ((s.bumpBy (Reg.SYNn_DARK_SHOTS.pg n) k).setSt (Reg.SYNn_STATUS_DARK.pg n) 1).raiseIf
    (l.lastDark != some true) (0x01A + n) 0
  let s1 := if s.mode = 5 then (s1.bumpBy Reg.B50_DARK_FRAMES k).when (l.lastDark != some true) (State.b50Raise 2) else s1
  let dark := (List.range 8).filter fun k => slots.contains k || l.slotDark.contains k
  { s1 with
    shots := s1.shots.set n { s1.shots.get n with lastDark := some true, slotDark := dark }
    rxf := s1.rxf.set n { s1.rxf.get n with frameDark := true } }

/-- Shots of a lane whose gate pulse covers `t` become dark (R111). [DEDUCED: log 28] -/
def darkenLane (t : Time) (s : State) (n : Lane) : State :=
  let l := s.shots.get n
  let hit := fun (x : Shot) => !x.dark && !tBefore t x.at_ && !tBefore x.gateEnd t
  let slots := ((l.shots ++ l.traced).filter hit).map (·.slot)
  let dim := fun (x : Shot) => if hit x then { x with dark := true } else x
  if slots.isEmpty then s else
    countDark n slots.length slots { s with shots := s.shots.set n { l with shots := l.shots.map dim, traced := l.traced.map dim } }

/-! ### loops -/

def State.loop (s : State) (i : Nat) : Loop := Amap.get s.loops i {}
def State.setLoop (i : Nat) (l : Loop) (s : State) : State := { s with loops := Amap.put i l s.loops }

/-- The SET register that a loop's output follows while the loop does not run (R104, R106). -/
def loopSet (s : State) (i : Nat) : Nat :=
  if i < 2 then s.lv (Reg.LDRV_LDn_SET.ix i)
  else if i < 6 then s.lv (Reg.LDRV_PCm_SET.ix (i - 2))
  else s.lv (Reg.LDRV_SETn.ix (s.lv (Reg.LDRV_WLw_CFG_SET.ix (i - 6))))

/-- The loop runs: its output is enabled, drives and no fault holds it off, and its MODE is 1 (R106, R108). -/
def loopRuns (s : State) (i : Nat) : Bool :=
  if i < 2 then s.on (Reg.LDRV_LDn_CFG_EN.ix i) && s.on (Reg.LDRV_LDn_CFG_MODE.ix i) && !laserFaulty s i
  else if i < 6 then
    s.on (Reg.LDRV_PCm_CFG_EN.ix (i - 2)) && s.on (Reg.LDRV_PCm_CFG_MODE.ix (i - 2)) && s.gateOpen &&
      !s.stOn Reg.SYS_SUPPLY_HOLDING && !pumpFaulty s (i - 2) && s.st Reg.LDRV_GATE_STATUS_RAMPING / 2 ^ (i - 2) % 2 == 0
  else s.on (Reg.LDRV_WLw_CFG_EN.ix (i - 6))

/-- The output code of a loop that does not run (R102 to R104, R106, R108): the SET register, for a laser up to its limit; 0 where the output
is off. -/
def idleCode (s : State) (i : Nat) : Nat :=
  if i < 2 then (if s.on (Reg.LDRV_LDn_CFG_EN.ix i) && !laserFaulty s i then min (loopSet s i) (s.lv (Reg.LDRV_LDn_LIMIT.ix i)) else 0)
  else if i < 6 then
    (if s.on (Reg.LDRV_PCm_CFG_EN.ix (i - 2)) && s.gateOpen && !s.stOn Reg.SYS_SUPPLY_HOLDING && !pumpFaulty s (i - 2) then loopSet s i else 0)
  else loopSet s i

/-- A loop that does not run starts anew when it runs again; a pump loop that waits for its ramp keeps its accumulator. [DEDUCED: log 27] -/
def idleLoop (s : State) (i : Nat) : State :=
  let keep := 2 ≤ i && i < 6 && s.on (Reg.LDRV_PCm_CFG_EN.ix (i - 2)) && s.on (Reg.LDRV_PCm_CFG_MODE.ix (i - 2))
  if loopRuns s i then s
  else (s.setLoop i { s.loop i with engaged := keep && (s.loop i).engaged }).setSt (Reg.LDRV_LOOP_OUT.ix i) (idleCode s i)

/-- The current of a sink at `t` in codes: it moves at 10 mA/ms, which is 10 of 3,815 codes in a nanosecond (R102). -/
def slewNow (x : Slew) (t : Time) : Nat :=
  let d := (max 0 (tDiff t x.since)).toNat * 10 / (3815 * duPerNs)
  if x.from_ ≤ x.to_ then min (x.from_ + d) x.to_ else max (x.from_ - d) x.to_

/-- The current of laser sink `i` now (R102). -/
def laserNow (s : State) (i : Nat) : Nat := slewNow (s.drive.lasers.get (Fin.ofNat 2 i)) s.time

/-- A sink's current heads for its output code, never above the limit (R102). [DEDUCED: log 27] -/
def headLaser (s : State) (i : Fin 2) : State :=
  let on_ := s.on (Reg.LDRV_LDn_CFG_EN.ix i) && !laserFaulty s i
  let aim := if on_ then min (s.st (Reg.LDRV_LOOP_OUT.ix i)) (s.lv (Reg.LDRV_LDn_LIMIT.ix i)) else 0
  if (s.drive.lasers.get i).to_ = aim then s
  else { s with drive := { s.drive with lasers := s.drive.lasers.set i { from_ := laserNow s i, since := s.time, to_ := aim } } }

/-- The outputs follow what has changed: enables, MODE, SET registers, limits, faults, the gate. -/
def syncDrive (s : State) : State := headLaser (headLaser ((List.range 8).foldl idleLoop s) 0) 1

/-- A pump's setpoint ramp begins (R103). -/
def rampPump (m : Nat) (s : State) : State :=
  { s with drive := { s.drive with ramps := Amap.put m (s.time, s.lv (Reg.LDRV_PCm_CFG_RAMP.ix m)) s.drive.ramps } }.setSt
    Reg.LDRV_GATE_STATUS_RAMPING (s.st Reg.LDRV_GATE_STATUS_RAMPING ||| 2 ^ m)

/-- A pump's setpoint code (R103): while it ramps, it rises linearly from 0 over RAMP ms. -/
def pumpCode (s : State) (m : Nat) : Nat :=
  let u := s.st (Reg.LDRV_LOOP_OUT.ix (2 + m))
  let r := Amap.get s.drive.ramps m (0, 0)
  let span := r.2 * 1000000 * duPerNs
  let d := (max 0 (tDiff s.time r.1)).toNat
  if s.st Reg.LDRV_GATE_STATUS_RAMPING / 2 ^ m % 2 = 1 ∧ d < span then u * d / span else u

/-- Start the ramp of every enabled pump that no fault holds off (R103). [DEDUCED: log 27] -/
def startRamps (s : State) : State :=
  (List.range 4).foldl (fun s m => if s.on (Reg.LDRV_PCm_CFG_EN.ix m) && !pumpFaulty s m then rampPump m s else s) s

/-- Raman shots whose TS_PULSE covers `t` become dark: they are not accumulated and are counted (R223). -/
def darkenRaman (t : Time) (s : State) (n : Lane) : State :=
  let l := s.raman.lanes.get n
  let hit := fun (x : RamanShot) => !tBefore t x.at_ && !tBefore x.pulseEnd t
  let k := (l.shots.filter hit).length
  if k = 0 then s else
    let ids := (l.shots.filter hit).map (·.period)
    let mark := fun (p : DtsPeriod) => if ids.contains p.id then { p with notAll := true } else p
    let l1 : RamanLane :=
      { l with shots := l.shots.filter (fun x => !hit x), per := l.per.map mark, ended := l.ended.map mark }
    let s1 := { s with raman := { s.raman with lanes := s.raman.lanes.set n l1 } }
    s1.bumpBy (Reg.DTS_Ln_DARK_SHOTS.ix n) k

/-- The lights go off: pulses in progress become dark, pump loops are reset (R106, R109, R111, R223). [DEDUCED: log 27] -/
def lightsOff (t : Time) (s : State) : State :=
  let s1 := (s.setSt Reg.LDRV_GATE_STATUS_RAMPING 0).emit (.gate false)
  let s2 := [2, 3, 4, 5].foldl (fun s i => { s with loops := Amap.upd s.loops i {} fun l => { l with acc := 0 } }) s1
  syncDrive <| syncEmit (darkenRaman t (darkenRaman t (darkenLane t (darkenLane t s2 0) 1) 0) 1)

/-- The lights may be on again: enabled pumps ramp (R103). [DEDUCED: log 27] -/
def lightsOn (s : State) : State := syncDrive (syncEmit (startRamps (s.emit (.gate true))))

/-- The gate function goes false: every light output goes off (R109). -/
def closeGate (t : Time) (s : State) : State :=
  lightsOff t (((s.setSt Reg.LDRV_GATE_STATUS_GATE 0).bump Reg.LDRV_GATE_CLOSURES).raise 0x018 1)

/-- The gate function goes true: unless emission is held, the lights may be on again. -/
def openGate (s : State) : State :=
  let s1 := (s.setSt Reg.LDRV_GATE_STATUS_GATE 1).raise 0x018 2
  if s.stOn Reg.SYS_SUPPLY_HOLDING then syncEmit s1 else lightsOn s1

/-- Emission is held off, for a dip or the temperature (R563, R571). -/
def holdLight (t : Time) (s : State) : State :=
  if s.stOn Reg.SYS_SUPPLY_HOLDING then s else lightsOff t (s.setSt Reg.SYS_SUPPLY_HOLDING 1)

/-- The hold ends. [DEDUCED: log 27] -/
def releaseLight (s : State) : State :=
  if s.stOn Reg.SYS_SUPPLY_HOLDING then
    let s1 := s.setSt Reg.SYS_SUPPLY_HOLDING 0
    if s1.gateOpen then lightsOn s1 else syncEmit s1
  else s

/-- A change of ball levels or of ACT_OUT, with what the gate function makes of it. -/
def gateChange (t : Time) (f : State → State) (s : State) : State :=
  let s1 := f s
  if s.gateOpen && !s1.gateOpen then closeGate t s1
  else if !s.gateOpen && s1.gateOpen then openGate s1 else s1

/-- The level at which a ball lets light through, or stops it. -/
def setBall (b : GateBall) (pass : Bool) (s : State) : State :=
  match b with
  | .emitEn => s.setSt Reg.LDRV_GATE_STATUS_EMIT_EN (bit pass)
  | .peerActIn =>
    let fell := pass && s.stOn Reg.LDRV_GATE_STATUS_PEER_ACT_IN && s.twin.claim == 1
    { s.setSt Reg.LDRV_GATE_STATUS_PEER_ACT_IN (bit !pass) with twin := { s.twin with claimAt := if fell then s.time else s.twin.claimAt } }
  | .actOut => s.setSt Reg.LDRV_GATE_STATUS_ACT_OUT (bit pass)

/-- GATE_CLOSED (R109). -/
def execGateClosed (b : GateBall) (t : Time) (s : State) : Res := .next (gateChange t (setBall b false) (advance t s))

/-- GATE_OPEN (R109). -/
def execGateOpen (b : GateBall) (t : Time) (s : State) : Res := .next (gateChange t (setBall b true) (advance t s))

/-! ### launches -/

/-- The shots of a gate pulse: they join the lane's shots, and a lit pulse's launch edge is awaited (R83). -/
def addShots (n : Lane) (slots : List Nat) (t : Time) (dark : Bool) (lenNs : Nat) (s : State) : State :=
  let l := s.shots.get n
  let r := s.lanes.get n
  let held := r.withheld
  let mk := fun (k : Nat) => ({
    id := l.nextId, slot := k, at_ := t, gateEnd := t + nsT (28 + lenNs), tick := r.lastTick, count := r.lastCount
    frame := r.frame, dark := dark, hole := held, withheld := held, lightBack := !dark && !held && l.slotDark.contains k, cfg := s.live, alm := s.alm.eff
    range := s.st (Reg.RXFn_STATUS_RANGE_CUR.pg n) } : Shot)
  let l1 := if s.laneMode n = 7 then { l with traced := slots.map mk, nextId := l.nextId + 1 }
    else { l with shots := l.shots ++ slots.map mk, nextId := l.nextId + 1 }
  let s1 := { s with shots := s.shots.set n l1 }
  if s.lv (Reg.TDC_LAUNCHn_CFG_EN.ix n) = 0 ∨ dark ∨ held then s1 else
    let w : LaunchWait := { shot := l.nextId, expect := t + BitVec.ofNat 64 (s.lv (Reg.TDC_LAUNCHn_NOM.ix n))
                            win := s.lv (Reg.TDC_LAUNCHn_CFG_WIN.ix n) }
    awaitLaunch n w s1

/-- A lit gate pulse: its instants (R100), waveform, clips, LIGHT_BACK (R95, R99, R112). -/
def litPulse (n : Lane) (slots : List Nat) (t : Time) (lenNs : Nat) (s : State) : State :=
  let l := s.shots.get n
  let w := pulseWave s.live n slots
  let s1 := (s.bumpBy (Reg.SYNn_CLIP_SAMPLES.pg n) w.2).raiseIf (w.2 != 0) (0x01A + n) 2
  let s2 := (s1.raiseIf (slots.any fun k => l.slotDark.contains k) (0x01A + n) 1).setSt (Reg.SYNn_STATUS_DARK.pg n) 0
  let s3 := { s2 with shots := s2.shots.set n { s2.shots.get n with
    lastDark := some false, slotDark := l.slotDark.filter fun k => !slots.contains k } }
  (s3.emit (.waveform n w.1)).emit (.launch n slots (t + nsT 28) (t + nsT (28 + s.lv (Reg.SYNn_GATE_TIME_LEAD.pg n)))
    (t + nsT (28 + lenNs)) (s.lv (Reg.SYNn_GATE_AMP.pg n)))

/-- A B50 gate pulse (R531, R534), lit or dark. -/
def b50Launch (t : Time) (s : State) : State :=
  let len := s.lv Reg.B50_PULSE
  let l := s.shots.get 0
  if !s.emissionOn || laneInhibited s 0 then
    countDark 0 1 [0] (addShots 0 [0] t true len s)
  else
    let s1 := addShots 0 [0] t false len s
    let s2 := (s1.raiseIf (l.slotDark.contains 0) 0x01A 1).setSt (Reg.SYNn_STATUS_DARK.pg 0) 0
    { s2 with shots := s2.shots.set 0 { s2.shots.get 0 with lastDark := some false, slotDark := [] } }.emit
      (.launch 0 [0] (t + nsT 28) (t + nsT 28) (t + nsT (28 + len)) (200 * s.lv Reg.B50_GATE_POL))

/-- The command instant of a slot in the lane's present frame (R28, R100). -/
def launchInstant (s : State) (n : Lane) (k : Nat) : Time :=
  (s.lanes.get n).lastTick + nsT (if s.mode = 5 then 0 else slotOffset (s.dasMode n) (s.lanePeriod n) k (slotsOf s.live n).length)

/-- A slot shot or gate pulse of a running lane at its command instant `t`. -/
def launchSlots (n : Lane) (slots : List Nat) (t : Time) (s0 : State) : State :=
  let len := s0.lv (Reg.SYNn_GATE_TIME_LEAD.pg n) + slots.foldl (fun m k => max m (slotLen s0.live n k)) 0 + s0.lv (Reg.SYNn_GATE_TIME_TAIL.pg n)
  let held := (s0.lanes.get n).withheld
  let dark := !held && (!s0.emissionOn || laneInhibited s0 n)
  let s1 := addShots n slots t dark len s0
  if held then s1 else if dark then countDark n slots.length slots s1 else stampSource (14 + n) t (litPulse n slots t len s1)

/-- SLOT_LAUNCH (R28, R100): each slot's command instant comes once in a frame. A lane that is not RUNNING, or a slot that has no pulse of its
own, launches nothing; a withheld frame only has its slot shots held (R480). -/
def execSlotLaunch (n : Lane) (k : Slot) (t : Time) (s : State) : Res :=
  let s1 := advance t s
  let slots := if s1.mode = 5 then (if n = 0 ∧ k.val = 0 then [0] else []) else if s1.laneMode n = 5 ∨ s1.laneMode n = 0 then [] else pulseSlots s1 n k
  let c := launchInstant s1 n k
  .next (if s1.laneState n ≠ 2 ∨ slots.isEmpty = true ∨ (s1.lanes.get n).launched.contains k.val = true ∨ s1.reached c = false then s1
    else
      let s2 := { s1 with lanes := s1.lanes.set n { s1.lanes.get n with launched := k.val :: (s1.lanes.get n).launched } }
      if s2.mode = 5 then b50Launch c s2 else launchSlots n slots c s2)

/-- Give Δ_L to the shots of a gate pulse. -/
def giveJitter (n : Lane) (id : Nat) (d : Int) (s : State) : State :=
  let l := s.shots.get n
  { s with shots := s.shots.set n { l with shots := l.shots.map fun x => if x.id = id then { x with jit := some d } else x } }

/-- LAUNCH_WINDOW_END (R83, R85). -/
def execLaunchWindowEnd (n : Lane) (t : Time) (s : State) : Res :=
  let s0 := advance t s
  let l := s0.tdc.launch.get n
  .next (match l.waits with
    | [] => s0
    | w :: rest =>
      match w.edge with
      | some (d, true) =>
        let v := (d :: l.valid).take 64
        let s1 := s0.setLaunch n { l with waits := rest, valid := v }
        giveJitter n w.shot d ((s1.setStI (Reg.TDC_LAUNCHn_LAST.ix n) d).setStI (Reg.TDC_LAUNCHn_MEAN.ix n) (launchMean v))
      | _ =>
        let s1 := s0.setLaunch n { l with waits := rest }
        giveJitter n w.shot (launchMeanLsb l.valid) ((s1.bump (Reg.TDC_LAUNCHn_MISS.ix n)).raise 0x013 (12 + n)))

/-- The highest output code: HI, for the lasers bounded by the current limit (R102, R106). -/
def loopHi (s : State) (i : Nat) : Nat :=
  if i < 2 then min (s.loop i).hi (s.lv (Reg.LDRV_LDn_LIMIT.ix i)) else (s.loop i).hi

/-- The input of a loop from the photodiode means: none where a wavelength loop's denominator is below 1 % (R106). A selection code that names
no photodiode reads 0. [DESIGN CHOICE: log 113] -/
def loopInput (s : State) (i : Nat) (mpd : List Nat) : Option Nat :=
  if i < 2 then some (mpd.getD (s.lv (Reg.LDRV_LDn_CFG_MPD.ix i)) 0)
  else if i < 6 then some (mpd.getD (s.lv (Reg.LDRV_PCm_CFG_MPD.ix (i - 2))) 0)
  else
    let den := mpd.getD (s.lv (Reg.LDRV_WLw_CFG_DEN.ix (i - 6))) 0
    if den * 100 < 65536 then none
    else some (min 262143 (65536 * mpd.getD (s.lv (Reg.LDRV_WLw_CFG_NUM.ix (i - 6))) 0 / den))

/-- TARGET − y, negated under POLARITY = 1 (R106). -/
def loopError (s : State) (i y : Nat) : Int :=
  if i < 2 then (s.lv (Reg.LDRV_LDn_TARGET.ix i) : Int) - y
  else if i < 6 then (s.lv (Reg.LDRV_PCm_TARGET.ix (i - 2)) : Int) - y
  else
    let e := (s.lv (Reg.LDRV_WLw_TARGET.ix (i - 6)) : Int) - y
    if s.on (Reg.LDRV_WLw_CFG_POLARITY.ix (i - 6)) then -e else e

/-- Clamp; where `lo` lies above `hi`, `lo` wins. [DESIGN CHOICE: log 113] -/
def clampI (x lo hi : Int) : Int := max lo (min x hi)

/-- The control law (R106): the new accumulator and the output code. [DEDUCED: log 27] -/
def loopLaw (kp ki : Nat) (lo hi : Nat) (acc e : Int) : Int × Int :=
  let a := clampI (acc + ki * e / 65536) ((lo : Int) * 65536) ((hi : Int) * 65536)
  (a, clampI (a / 65536 + kp * e / 4096) lo hi)

/-- The sample of a photocurrent in nA under a range code (R105): the full scale is 2¹⁶. [DEDUCED: log 114] -/
def mpdSample (range na : Nat) : Nat := min 65535 (na * 65536 / (20000 * 10 ^ range))

/-- The mean of photodiode `j` over the last `n` samples, low bits dropped. [DEDUCED: log 11] -/
def mpdMean (s : State) (n j : Nat) : Nat :=
  let l := s.drive.mpd.take n
  if l.isEmpty then 0 else l.foldl (fun a x => a + x.getD j 0) 0 / l.length

/-- New samples of the photodiodes, in nA and in order of time; the 1 ms means follow (R105). -/
def takeSamples (new : List (List Nat)) (s : State) : State :=
  let code := fun (x : List Nat) => (List.range 6).map fun j => mpdSample (s.lv Reg.LDRV_MPD_RANGE / 4 ^ j % 4) (x.getD j 0)
  let s1 := { s with drive := { s.drive with mpd := ((new.map code).reverse ++ s.drive.mpd).take 2000 } }
  (List.range 6).foldl (fun s j => s.setSt (Reg.LDRV_MPDj.ix j) (mpdMean s1 1000 j)) s1

/-- The means that a loop reads: of the last 10 samples, for a pump of its lane's frame (R105). -/
def loopMeans (s : State) (i : Nat) : List Nat :=
  (List.range 6).map (mpdMean s (if 2 ≤ i ∧ i < 6 then s.lanePeriod (pumpLane (i - 2)) / 1000 else 10))

/-- One update of a running loop. [DEDUCED: log 27] -/
def loopStep (i : Nat) (mpd : List Nat) (s : State) : State :=
  let l := s.loop i
  let acc0 := if l.engaged then l.acc else (loopSet s i : Int) * 65536
  match loopInput s i mpd with
  | none =>
    let lw := s.st Reg.LDRV_GATE_STATUS_LOW_LIGHT
    ((s.setLoop i { l with acc := acc0, engaged := true }).setSt Reg.LDRV_GATE_STATUS_LOW_LIGHT (lw ||| 2 ^ (i - 6))).raiseIf
      (lw / 2 ^ (i - 6) % 2 == 0) 0x018 (11 + (i - 6))
  | some y =>
    let r := loopLaw l.kp l.ki l.lo (loopHi s i) acc0 (loopError s i y)
    let s1 := (s.setLoop i { l with acc := r.1, engaged := true }).setSt (Reg.LDRV_LOOP_OUT.ix i) r.2.toNat
    if i < 6 then s1 else
      s1.setSt Reg.LDRV_GATE_STATUS_LOW_LIGHT (s.st Reg.LDRV_GATE_STATUS_LOW_LIGHT &&& (3 ^^^ 2 ^ (i - 6)))

/-- LOOP_UPDATE (R105, R106): `samples` are those taken since the last update of any loop. A loop that does not run lets its output follow
its SET register. [DEDUCED: log 27] -/
def execLoopUpdate (i : Fin 8) (samples : List (List Nat)) (s : State) : Res :=
  let s0 := takeSamples samples s
  .next (syncDrive (if loopRuns s0 i then loopStep i (loopMeans s0 i) s0 else s0))

/-- LOOP_SAT (R106): the output has stayed at LO or HI for SAT_MS. -/
def execLoopSat (i : Fin 8) (s : State) : Res :=
  let u := s.st (Reg.LDRV_LOOP_OUT.ix i)
  .next (s.raiseIf (loopRuns s i && (u == (s.loop i).lo || u == loopHi s i)) 0x018 (3 + i))

/-- A fault has latched: its output is off, and pulses in progress of the lanes whose emission it inhibits end dark (R108, R111). -/
def faultOff (s : State) : State :=
  let dim := fun (s : State) (n : Lane) => if laneFaulty s n then darkenRaman s.time (darkenLane s.time s n) n else s
  syncDrive (syncEmit (dim (dim s 0) 1))

/-- OVERCURRENT (R103). -/
def execOvercurrent (m : Fin 4) (sense : Nat) (s : State) : Res :=
  .next (if s.lv (Reg.LDRV_PCm_LIMIT.ix m) < sense then
    faultOff (((s.setSt Reg.LDRV_FAULT_OVERCURRENT (s.st Reg.LDRV_FAULT_OVERCURRENT ||| 2 ^ m.val)).setSt
      Reg.LDRV_GATE_STATUS_RAMPING (s.st Reg.LDRV_GATE_STATUS_RAMPING &&& (15 ^^^ 2 ^ m.val))).raise 0x018 0)
  else s)

/-- RAMP_DONE (R103): by `t` the setpoint has risen for RAMP ms. [DESIGN CHOICE: log 3] -/
def execRampDone (m : Fin 4) (s : State) (t : Time := 0) : Res :=
  let s0 := advance t s
  let r := Amap.get s0.drive.ramps m (0, 0)
  .next (if s0.st Reg.LDRV_GATE_STATUS_RAMPING / 2 ^ m.val % 2 = 1 ∧ ((r.2 * 1000000 * duPerNs : Nat) : Int) ≤ tDiff s0.time r.1 then
    syncDrive ((s0.setSt Reg.LDRV_GATE_STATUS_RAMPING (s0.st Reg.LDRV_GATE_STATUS_RAMPING &&& (15 ^^^ 2 ^ m.val))).raise 0x018 (13 + m))
  else s0)

/-! ### output checks -/

/-- Latch a SYNn fault (R108). -/
def synFault (n : Lane) (f : Fld) (s : State) : State := faultOff ((s.setSt (f.pg n) 1).raise (0x01A + n) 3)

/-- Latch bit `b` of an LDRV fault field (R108). -/
def ldrvFault (f : Fld) (b : Nat) (s : State) : State := faultOff ((s.setSt f (s.st f ||| 2 ^ b)).raise 0x018 0)

/-- OUTPUT_CHECK (R107, R108). A laser drives 20 mA from code 5,243 on, and a pump setpoint is 10 mV from code 2,622 on. -/
def execOutputCheck (c : DriveCheck) (s : State) : Res :=
  .next (match c with
    | .gateOff n mv => s.when (mv < 800) (synFault n Reg.SYNn_FAULT_GATE_OPEN_GND)
    | .gateOn n mv =>
      if mv < 600 then synFault n Reg.SYNn_FAULT_GATE_OPEN_GND s
      else s.when (3000 < mv && 200 ≤ s.lv (Reg.SYNn_GATE_AMP.pg n)) (synFault n Reg.SYNn_FAULT_GATE_LOAD_SHORT)
    | .ldOff l mv => s.when (mv < 800) (ldrvFault Reg.LDRV_FAULT_LD_OPEN_GND l)
    | .ldOn l mv =>
      if mv < 600 then ldrvFault Reg.LDRV_FAULT_LD_OPEN_GND l s
      else s.when (3000 < mv && 20000000 ≤ laserNow s l * 3815) (ldrvFault Reg.LDRV_FAULT_LD_LOAD_SHORT l)
    | .modI n pct => s.when (pct < 50 || 150 < pct) (synFault n Reg.SYNn_FAULT_MOD_I_OPEN)
    | .modQ n pct => s.when (pct < 50 || 150 < pct) (synFault n Reg.SYNn_FAULT_MOD_Q_OPEN)
    | .pump m gateMv sense =>
      let set := s.st (Reg.LDRV_LOOP_OUT.ix (2 + m))
      s.when (s.st Reg.LDRV_GATE_STATUS_RAMPING / 2 ^ m.val % 2 == 0 && 10000000 ≤ set * 3815 && 1700 ≤ gateMv &&
        sense * 10 ≤ set) (ldrvFault Reg.LDRV_FAULT_PUMP_OPEN m))

/-- FAULT_CLEAR (R108): a W1C write of SYNn_FAULT or LDRV_FAULT. A pump that was off for its fault is enabled again and
ramps (R103). -/
def execFaultClear (q : Requester) (page : Nat) (w : Word) (s : State) : Res :=
  .next (s.busWrite q page fun s =>
    let b := w.toNat
    if page = 0x018 then
      let off := s.st Reg.LDRV_FAULT_PUMP_OPEN ||| s.st Reg.LDRV_FAULT_OVERCURRENT
      let s1 := (((s.w1c Reg.LDRV_FAULT_LD_OPEN_GND b 0).w1c Reg.LDRV_FAULT_LD_LOAD_SHORT (b / 4) 0).w1c
        Reg.LDRV_FAULT_PUMP_OPEN (b / 16) 0).w1c Reg.LDRV_FAULT_OVERCURRENT (b / 256) 0
      let back := off &&& (15 ^^^ (s1.st Reg.LDRV_FAULT_PUMP_OPEN ||| s1.st Reg.LDRV_FAULT_OVERCURRENT))
      let ramp := fun (s : State) (m : Nat) => if s.on (Reg.LDRV_PCm_CFG_EN.ix m) && back / 2 ^ m % 2 == 1 then rampPump m s else s
      syncDrive (syncEmit (s1.when (s1.gateOpen && !s1.stOn Reg.SYS_SUPPLY_HOLDING) fun s => (List.range 4).foldl ramp s))
    else if page = 0x01A ∨ page = 0x01B then
      let n := page - 0x01A
      syncEmit ((((s.w1c (Reg.SYNn_FAULT_GATE_OPEN_GND.pg n) b 0).w1c (Reg.SYNn_FAULT_GATE_LOAD_SHORT.pg n) (b / 2) 0).w1c
        (Reg.SYNn_FAULT_MOD_I_OPEN.pg n) (b / 4) 0).w1c (Reg.SYNn_FAULT_MOD_Q_OPEN.pg n) (b / 8) 0)
    else s)

end Sys2Proof.Machine
end

