-- ==== Sys2Proof/Machine/Geometry.lean ====
section
/-!
DEFINITION. Lane geometry (R29, R134, R141 to R144, R156) and the almanac's effective values (R472 to R474), as functions
of a configuration.
-/

namespace Sys2Proof.Machine

/-- The speed of light in m/s. -/
def lightSpeed : Nat := 299792458

/-- The slot period 1 / f_s in ns: 800 / B with B in MHz (R148). -/
def slotNs (c : RegFile) (n : Lane) : Nat := 800 / slotBw c n 0

/-- Group index in 2⁻²⁰, length in mm, spacing, gauge length, reference points, τ₀ in device units. -/
def groupIndex (c : RegFile) (n : Lane) : Nat := RegFile.get c (Reg.SHOTn_GROUP_INDEX.pg n)
def laneLength (c : RegFile) (n : Lane) : Nat := RegFile.get c (Reg.SHOTn_LENGTH.pg n)
def spacing (c : RegFile) (n : Lane) : Nat := RegFile.get c (Reg.SHOTn_POINT_CFG_SPACING.pg n)
def gaugeLen (c : RegFile) (n : Lane) : Nat := RegFile.get c (Reg.PHZn_GAUGE_G.pg n)
def refPoints (c : RegFile) (n : Lane) : Nat := RegFile.get c (Reg.SHOTn_POINT_CFG_REF_POINTS.pg n)
def tau0 (c : RegFile) (n : Lane) : Nat := RegFile.get c (Reg.SHOTn_ZERO_TAU0.pg n)

/-- floor(L_cfg / s) − G (R141). -/
def pointsI (c : RegFile) (n : Lane) : Int :=
  ((laneLength c n * groupIndex c n * 2500 * slotBw c n 0 / (spacing c n * lightSpeed * 2 ^ 20) : Nat) : Int) - gaugeLen c n

/-- The point count P. -/
def points (c : RegFile) (n : Lane) : Nat := (pointsI c n).toNat

/-- The round trip 2 n L / c in ns, rounded up. -/
def roundTripNs (c : RegFile) (n : Lane) : Nat :=
  (2 * groupIndex c n * laneLength c n * 1000000 + 2 ^ 20 * lightSpeed - 1) / (2 ^ 20 * lightSpeed)

/-- The dusk gap D in ns (R29), rounded down, for a lane period in ns. -/
def duskNs (c : RegFile) (n : Lane) (periodNs : Nat) : Int :=
  (periodNs : Int) - (roundTripNs c n + maxLen c n + RegFile.get c Reg.MERID_GUARD_GUARD_NS : Nat)

/-- One spacing in device units of time: J of R156, and S / f_s of R144. -/
def spacingDu (c : RegFile) (n : Lane) : Nat := spacing c n * slotNs c n * duPerNs

/-- Floor of `a / b` for an integer `a`. [DEDUCED: log 11] -/
def floorDiv (a : Int) (b : Nat) : Int := a / (b : Int)
def ceilDiv (a : Int) (b : Nat) : Int := -((-a) / (b : Int))

/-- The seam range of a shot in flight at a switch (R134): `ta` and `tb` are t_a and t_b in ns after its command instant.
First and last point, where there is one. -/
def seamRange (c : RegFile) (n : Lane) (k : Nat) (ta tb : Int) : Option (Nat × Nat) :=
  let u := spacingDu c n
  if u = 0 then none else
    let last := min (floorDiv (tb * duPerNs - tau0 c n) u) ((points c n : Int) - 1)
    let first := max 0 (ceilDiv ((ta - slotLen c n k) * duPerNs - tau0 c n) u - gaugeLen c n - 1)
    if first ≤ last then some (first.toNat, last.toNat) else none

/-- The end of a shot's return, in device units after its command instant (R131). -/
def returnDu (c : RegFile) (n : Lane) : Nat := (roundTripNs c n + maxLen c n) * duPerNs

/-! ### range constants -/

/-- g_r,c in 2⁻²⁰ and φ_r,c in 2π/2¹⁶ of channel `c` and range `r` at the centre of slot `k` (R131, R474). -/
def rangeConst (factory eff : Amap Word) (cfg : RegFile) (n : Lane) (k r c : Nat) : Int × Int :=
  let f := sx 32 (RegFile.get cfg (slotF Reg.SYNn_SLOTk_FREQ n k))
  let g := 2 ^ 20 + almInterp factory eff (almLane n + 0x080 + 44 * r + 11 * c) f
  let p := almInterp factory eff (almLane n + 0x130 + 44 * r + 11 * c) f
  (g, if f < 0 then -p else p)

end Sys2Proof.Machine
end

