-- ==== Sys2Proof/Machine/Rxf.lean ====
section
/-!
DEFINITION. Coherent receive front end: range control, overload, servo, injection (chapter 5, R120 to R137).
-/

namespace Sys2Proof.Machine

def State.setRxf (n : Lane) (r : Rxf) (s : State) : State := { s with rxf := s.rxf.set n r }

/-- A lane's receive front end as at a start: what its injection source does stands. -/
def freshRxf (r : Rxf) : Rxf := { inject := r.inject, isolated := r.isolated }

/-- The range in force (R139). -/
def State.range (s : State) (n : Lane) : Nat := s.st (Reg.RXFn_STATUS_RANGE_CUR.pg n)

/-- ARC_LO as ARC uses it (R128). -/
def arcLo (s : State) (n : Lane) : Nat :=
  let hi := s.lv (Reg.RXFn_ARC_HI.pg n)
  let lo := s.lv (Reg.RXFn_ARC_LO.pg n)
  if lo < hi / 2 then lo else hi / 2 - 1

/-- ARC_LO is replaced (R128). -/
def arcClamped (s : State) (n : Lane) : Bool := !decide (s.lv (Reg.RXFn_ARC_LO.pg n) < s.lv (Reg.RXFn_ARC_HI.pg n) / 2)

/-- CONTINUOUS injection runs (R137). [DEDUCED: log 31] -/
def injContinuous (s : State) (n : Lane) : Bool := s.lv (Reg.RXFn_INJ_CFG_MODE.pg n) == 1

/-- A frame peak joins the runs (R127). -/
def arcRuns (s : State) (n : Lane) (peak : Nat) (r : Rxf) : Rxf :=
  let hi := decide (s.lv (Reg.RXFn_ARC_HI.pg n) ≤ peak)
  let lo := decide (peak < arcLo s n)
  { r with
    hiRun := if hi then r.hiRun + 1 else 0
    loRun := if lo then r.loRun + 1 else 0
    limited := r.limited && ((hi && r.hiRun != 0) || (lo && r.loRun != 0)) }

/-- The step a complete run calls for (R127): a code down for peaks at or above ARC_HI, a code up for peaks below ARC_LO. -/
def arcStep (s : State) (n : Lane) (s0 : State) : State :=
  let r := s0.rxf.get n
  let cur := s.range n
  let want : Option (Option Nat) :=
    if 2 ≤ r.hiRun then some (if s.lv (Reg.RXFn_ARC_LIMITS_MIN_RANGE.pg n) < cur then some (cur - 1) else none)
    else if 2 ≤ r.loRun then some (if cur < s.lv (Reg.RXFn_ARC_LIMITS_MAX_RANGE.pg n) then some (cur + 1) else none)
    else none
  match want with
  | none => s0
  | some (some c) => if 1 < r.dwell then s0 else s0.setRxf n { r with step := some c, hiRun := 0, loRun := 0 }
  | some none => if r.limited then s0 else (s0.setRxf n { r with limited := true }).raise (0x020 + n) 3

/-- The largest |code| of a shot over its four channels in the first 200 m (R126): the samples, 1 ns apart, from τ₀ to τ₀ + 1.959 µs. -/
def nearPeak (c : RegFile) (n : Lane) (codes : List (List Int)) : Nat :=
  let lo := (tau0 c n + duPerNs - 1) / duPerNs
  let hi := (tau0 c n + 1959 * duPerNs) / duPerNs
  (codes.take 4).foldl (fun m l => ((l.drop lo).take (hi + 1 - lo)).foldl (fun m x => max m x.natAbs) m) 0

/-- A frame peak joins the runs of ARC (R126, R127). -/
def arcPeak (n : Lane) (peak : Nat) (s : State) : State :=
    let r := s.rxf.get n
    let s1 := ((s.setSt (Reg.RXFn_ARC_PEAK_PREV.pg n) (s.st (Reg.RXFn_ARC_PEAK_LAST.pg n))).setSt
      (Reg.RXFn_ARC_PEAK_LAST.pg n) (min peak 2047)).setSt (Reg.RXFn_STATUS_ARC_LO_CLAMPED.pg n) (bit (arcClamped s n))
    s1.setRxf n (arcRuns s1 n peak r)

/-- ARC_DECISION (R126 to R128, R479): a frame with a dark shot or CONTINUOUS injection has no peak, and a run that is complete steps all the same
when the dwell is over; a withheld frame suspends ARC. [DEDUCED: log 29] -/
def execArcDecision (n : Lane) (shots : List (List (List Int))) (s : State) : Res :=
  .next (if s.mode == 5 || (s.lanes.get n).withheld then s else
    let peak := (shots.map (nearPeak s.live n)).foldl max 0
    let s1 := if (s.rxf.get n).frameDark || injContinuous s n then s else arcPeak n peak s
    if s1.on (Reg.RXFn_CFG_ARC_EN.pg n) then arcStep s1 n s1 else s1)

/-- The source count of a lane's next tick. -/
def nextCount (s : State) (n : Lane) : Nat := s.tickCount + 1 + (if n = s.srcLane then 0 else s.merid.other)

/-- An accepted commit of the lane's RXF page comes early enough for a tick of the lane at `tick`: 1 µs before it (R130, R523). [DEDUCED: log 20] -/
def rxfCommitFor (s : State) (n : Lane) (tick : Time) : Bool :=
  s.commits.any fun c => c.page == 0x020 + n.val && !c.stale && decide ((1000 * duPerNs : Nat) < tDiff tick c.at_)

/-- The range due at the lane's next tick, at `tick` (R129, R130): RANGE without ARC; a committed RANGE before an ARC step with it. [DEDUCED: log 29] -/
def dueRange (s : State) (n : Lane) (tick : Time) : Nat :=
  let ap := rxfCommitFor s n tick && s.commitsOpen (nextCount s n)
  let val := fun (f : Fld) => if ap then s.sh (f.pg n) else s.lv (f.pg n)
  if val Reg.RXFn_CFG_ARC_EN = 0 then val Reg.RXFn_CFG_RANGE
  else if val Reg.RXFn_CFG_RANGE ≠ s.lv (Reg.RXFn_CFG_RANGE.pg n) then val Reg.RXFn_CFG_RANGE
  else (s.rxf.get n).step.getD (s.range n)

/-- The TIAs switch to code `r` at `t`: shots in flight meet the switch (R130, R131, R133). [DEDUCED: log 29] -/
def switchRange (n : Lane) (t : Time) (r : Nat) (s : State) : State :=
  let l := s.shots.get n
  let mark := fun (x : Shot) =>
    if (tDiff t x.at_).toNat < returnDu x.cfg n then { x with switches := x.switches ++ [(t, r)] } else x
  ({ s with shots := s.shots.set n { l with shots := l.shots.map mark } }).setRxf n
    { s.rxf.get n with switched := some r }

/-- Where the next tick of a lane is expected (R25, R42). -/
def laneTick (s : State) (n : Lane) : Time :=
  let own := (s.lanes.get n).lastTick + nsT (s.lanePeriod n)
  if n = s.srcLane then s.merid.inTick.getD own else own

/-- RANGE_CHANGE (R130): by `t` the instant 400 ns before the lane's next tick has come, and the TIAs have switched then. -/
def execRangeChange (n : Lane) (t : Time) (s : State) : Res :=
  let s0 := advance t s
  let r := dueRange s0 n (laneTick s0 n)
  let at_ := laneTick s0 n - nsT 400
  .next (if s0.mode = 5 ∨ r = s0.range n ∨ (s0.rxf.get n).switched.isSome ∨ tBefore s0.time at_ then s0 else switchRange n at_ r s0)

/-- The seam registers of a change: each slot's in-flight shot (R134). `tick` is the governing tick. -/
def seamRegs (n : Lane) (tick : Time) (s : State) : State :=
  let s0 := (List.range 8).foldl (fun s k => s.setSt ((Reg.RXFn_SEAM_SLOTk_VALID.pg n).ix k) 0) s
  (s.shots.get n).shots.foldl (fun s x =>
    match x.switches.getLast? with
    | none => s
    | some (t, _) =>
      if (tDiff tick t) ≠ (400 * duPerNs : Nat) then s else
        let ta := tDiff t x.at_ / duPerNs
        match seamRange x.cfg n x.slot ta (ta + 200) with
        | none => s
        | some (a, b) =>
          ((s.setSt ((Reg.RXFn_SEAM_SLOTk_VALID.pg n).ix x.slot) 1).setSt ((Reg.RXFn_SEAM_SLOTk_FIRST.pg n).ix x.slot) a).setSt
            ((Reg.RXFn_SEAM_SLOTk_LAST.pg n).ix x.slot) b) s0

/-- A lane tick puts the due range into force (R127 to R134); where no switch event came before it, the switch is made
now, 400 ns back. The dwell counts lane frames. [DEDUCED: log 29] -/
def tickRange (n : Lane) (tick : Time) (due : Nat) (s : State) : State :=
  let r := s.rxf.get n
  let new := r.switched.getD due
  let frame := fun (r : Rxf) => { r with
    step := none, switched := none, frameDark := false, changed := false, duskEnd := none }
  if new = s.range n then
    let d := r.dwell - 1
    (s.setRxf n { frame r with dwell := d }).setSt (Reg.RXFn_STATUS_ARC_DWELL.pg n) (bit (d != 0))
  else
    let s1 := if r.switched.isSome then s else switchRange n (tick - nsT 400) new s
    let s2 := seamRegs n tick s1
    let s3 := ((s2.setSt (Reg.RXFn_STATUS_RANGE_CUR.pg n) new).bump (Reg.RXFn_RANGE_CHANGES.pg n)).setSt
      (Reg.RXFn_SEAM_TICK.pg n) s.tickCount
    ((s3.setRxf n { frame r with dwell := 64, changed := true }).setSt (Reg.RXFn_STATUS_ARC_DWELL.pg n) 1).raise (0x020 + n) 0

/-- The lane enters RUN or restarts: the range starts at RANGE (R129). -/
def startRange (n : Lane) (s : State) : State :=
  ((s.setSt (Reg.RXFn_STATUS_RANGE_CUR.pg n) (s.lv (Reg.RXFn_CFG_RANGE.pg n))).setRxf n (freshRxf (s.rxf.get n))).setSt
    (Reg.RXFn_STATUS_ARC_DWELL.pg n) 0

/-- The offsets of a channel's overload samples among the first `upto` (R125). -/
def overloads (upto : Nat) (l : List Int) : List Nat :=
  ((l.take upto).zipIdx.filter fun e => e.1 = -2048 ∨ e.1 = 2047).map (·.2)

/-- The latest overload sample of a shot, as offset and channel; of several at once the highest channel's. [DEDUCED: log 30] -/
def lastOverload (hits : List (Nat × Nat)) : Option (Nat × Nat) :=
  hits.foldl (fun b e => match b with | none => some e | some x => if x.1 ≤ e.1 then some e else some x) none

/-- Overload samples of a shot of the frame that began at `tick` are counted (R125), up to `upto` samples after the command instant. [DEDUCED: log 30] -/
def countOverload (n : Lane) (slot upto : Nat) (tick : Time) (codes : List (List Int)) (s : State) : State :=
  let per := fun (c : Nat) => overloads upto (codes.getD c [])
  let s1 := (List.range 4).foldl (fun s c => s.bumpBy ((Reg.RXFn_OVL_SAMPLES_c.pg n).ix c) (per c).length) s
  match lastOverload ((List.range 4).flatMap fun c => (per c).map fun i => (i, c)) with
  | none => s1
  | some (i, c) =>
    let r := s1.rxf.get n
    let s2 := ((s1.setSt (Reg.RXFn_OVL_LAST_OFFSET_NS.pg n) i).setSt (Reg.RXFn_OVL_LAST_SLOT.pg n) slot).setSt (Reg.RXFn_OVL_LAST_CH.pg n) c
    (s2.raiseIf (r.ovlTick != some tick) (0x020 + n) 1).setRxf n { r with ovlTick := some tick }

/-- SERVO_SAT (R124): the servo of a channel reports its current; at ±1.0 mA it stands at its limit. [DEDUCED: log 28] -/
def execServoSat (n : Lane) (c : Fin 4) (current : Int) (s : State) : Res :=
  let sat := s.st (Reg.RXFn_STATUS_SERVO_SAT.pg n)
  .next (if !s.on (Reg.RXFn_SERVO_CFG_EN.pg n) then s
    else
      let s1 := s.setStI ((Reg.RXFn_SERVO_c.pg n).ix c) (max (-10000) (min 10000 current))
      if 10000 ≤ current.natAbs then (s1.setSt (Reg.RXFn_STATUS_SERVO_SAT.pg n) (sat ||| 2 ^ c.val)).raise (0x020 + n) 2
      else s1.setSt (Reg.RXFn_STATUS_SERVO_SAT.pg n) (sat &&& (15 ^^^ 2 ^ c.val)))

/-- A servo that is off drives no current (R124). [DEDUCED: log 28] -/
def syncServo (n : Lane) (s : State) : State :=
  if s.on (Reg.RXFn_SERVO_CFG_EN.pg n) then s
  else ((List.range 4).foldl (fun s c => s.setSt ((Reg.RXFn_SERVO_c.pg n).ix c) 0) s).setSt (Reg.RXFn_STATUS_SERVO_SAT.pg n) 0

/-- PDB_LIMIT (R120): the current read is that of the sink, which limits at 20 mA. [DEDUCED: log 28] -/
def execPdbLimit (n : Lane) (ua : Nat) (s : State) : Res :=
  let s1 := s.setSt (Reg.RXFn_PDB_CURRENT.pg n) (min ua 20000)
  .next (if 20000 < ua then (s1.setSt (Reg.RXFn_STATUS_PDB_LIMIT.pg n) 1).raise (0x020 + n) 4
    else s1.setSt (Reg.RXFn_STATUS_PDB_LIMIT.pg n) 0)

/-- CONTINUOUS injection is accepted (R137): the lane is OFF or THERMAL or named by a running calibration, or the device is in
CONFIG or STANDBY. [DEDUCED: log 31] -/
def injAccepted (s : State) (n : Lane) : Bool :=
  s.laneState n == 0 || s.laneMode n == 5 || s.mode == 1 || s.mode == 2 || (s.stOn Reg.ALM_STATUS_CAL_BUSY && s.cal.lanes.contains n)

/-- The nightwatch injects into a chain of the lane (R505). [DEDUCED: log 92] -/
def nwInjects (s : State) (n : Lane) : Bool := s.twin.chain.any fun k => k / 4 == n.val

/-- What the injection source of a lane makes under the fields in force (R136), or for the nightwatch: 100 MHz at 50 µA (R505). [DESIGN CHOICE: log 118] -/
def injDrive (s : State) (n : Lane) : InjDrive :=
  if nwInjects s n then { source := .tone 214748365, chans := 2 ^ (s.twin.chain.getD 0 % 4), amp := 500 }
  else
    { source := match s.lv (Reg.RXFn_INJ_CFG_SRC.pg n) with
      | 0 => .tone (sx 32 (s.lv (Reg.RXFn_INJ_FREQ.pg n)))
      | 1 => .replica (slotWave s.live n (s.lv (Reg.RXFn_INJ_CFG_SLOT.pg n)))
      | 2 => .prbs
      | _ => .unnamed
      chans := s.lv (Reg.RXFn_INJ_CFG_CH.pg n), amp := s.lv (Reg.RXFn_INJ_AMP.pg n) }

/-- The injection source and the input balls follow the fields in force and INJ_ACTIVE, from `t` on (R136). -/
def syncInj (n : Lane) (t : Time) (s : State) : State :=
  let r := s.rxf.get n
  let want := if s.stOn (Reg.RXFn_STATUS_INJ_ACTIVE.pg n) then some (injDrive s n) else none
  let iso := s.on (Reg.RXFn_INJ_CFG_ISOLATE.pg n) || nwInjects s n
  let s1 := if iso = r.isolated then s else s.emit (.isolate n iso)
  let s2 := if want = r.inject then s1 else s1.emit (.inject n want t r.duskEnd)
  s2.setRxf n { r with inject := want, isolated := iso }

/-- Both lanes' injection sources follow. -/
def syncInjs (t : Time) (s : State) : State := syncInj 1 t (syncInj 0 t s)

/-- CONTINUOUS injection runs while its mode is in force, or for the nightwatch (R137). [DEDUCED: log 31] -/
def followInj (old : State) (s : State) : State :=
  [(0 : Lane), 1].foldl (fun s (n : Lane) =>
    let f := Reg.RXFn_STATUS_INJ_ACTIVE.pg n
    let runs := fun (s : State) => injContinuous s n || nwInjects s n
    if runs s then s.setSt f 1 else if runs old then s.setSt f 0 else s) s

/-- The injection of the nightwatch (R505) goes on to chain `next`, starts with chain 0, or is over. [DEDUCED: log 92] -/
def syncNw (next : Option Nat) (s : State) : State :=
  let chain := if s.mode = 2 ∧ s.lv Reg.TWIN_NW_TESTS % 2 = 1 then some ((next.or s.twin.chain).getD 0) else none
  if chain = s.twin.chain then s
  else syncInjs s.time (followInj s { s with twin := { s.twin with chain := chain } })

/-- The nightwatch stops: injection is off, ISOLATE is 0 and FORCE_HOLD is 0 (R505). [DEDUCED: log 92] -/
def stopNightwatch (s : State) : State :=
  let tests := s.lv Reg.TWIN_NW_TESTS
  let off := fun (s : State) (n : Lane) =>
    let s1 := (s.setLive (Reg.RXFn_INJ_CFG_ISOLATE.pg n) 0).setSt (Reg.RXFn_STATUS_INJ_ACTIVE.pg n) 0
    if injContinuous s n then s1.setLive (Reg.RXFn_INJ_CFG_MODE.pg n) 0 else s1
  let s1 := if tests % 2 = 1 then syncInjs s.time (off (off { s with twin := { s.twin with chain := none } } 0) 1) else s
  if tests / 32 % 2 = 1 then s1.setNow Reg.TBASE_CFG_FORCE_HOLD 0 else s1

/-- The dusk window of the lane's present frame (R137): from 200 ns after the last return ends until the next tick − 600 ns. In RATE the frame is
withheld, and the last return is that of the last slot of the frame before. [DEDUCED: log 31] -/
def duskWindow (s : State) (n : Lane) : Time × Time :=
  let tick := (s.lanes.get n).lastTick
  let per := s.lanePeriod n
  let k := (slotsOf s.live n).length
  let last := if s.dasMode n = 1 then tick - nsT per + nsT (slotOffset 1 per (k - 1) k) else tick
  (last + BitVec.ofNat 64 (returnDu s.live n) + nsT 200, tick + nsT per - nsT 600)

/-- A squeezed RANGE measures lane `n` (R479). -/
def squeezing (s : State) (n : Lane) : Bool := s.st Reg.ALM_STATUS_PROC == 3 && s.cal.squeeze && s.cal.lanes.contains n

/-- DUSK_INJECTION (R137, R480): a window shorter than 1 µs gets no injection; in RATE only frames withheld for calibration have
one. -/
def execDuskInjection (n : Lane) (t : Time) (s0 : State) : Res :=
  let s := advance t s0
  let w := duskWindow s n
  .next (if s.reached w.1 = false ∨ s.mode = 5 ∨ (s.lv (Reg.RXFn_INJ_CFG_MODE.pg n) ≠ 2 ∧ !squeezing s n) ∨ s.laneState n ≠ 2 ∨ (s.dasMode n = 1 ∧ !(s.lanes.get n).withheld) then s
    else if tDiff w.2 w.1 < (1000 * duPerNs : Nat) then s.bump (Reg.RXFn_INJ_SKIP.pg n)
    else
      syncInj n w.1 ((s.setRxf n { s.rxf.get n with duskEnd := some w.2 }).setSt (Reg.RXFn_STATUS_INJ_ACTIVE.pg n) 1))

/-- INJ_ACTIVE as a read shows it: DUSK injection is over at its end (R137). -/
def injActive (s : State) (n : Lane) : Bool :=
  s.stOn (Reg.RXFn_STATUS_INJ_ACTIVE.pg n) && (match (s.rxf.get n).duskEnd with | some e => tBefore s.time e | none => true)

end Sys2Proof.Machine
end

