-- ==== Sys2Proof/Machine/Shot.lean ====
section
/-!
DEFINITION. The shot processor: corrections, slot separation, compression, combining and gauge points, and trace capture
(chapter 6, R141 to R166).
-/

namespace Sys2Proof.Machine

def State.setShotp (n : Lane) (p : ShotProc) (s : State) : State := { s with shotp := s.shotp.set n p }

/-! ### complex fixed point -/

/-- The complex product. -/
def cMul (a b : Int × Int) : Int × Int := (a.1 * b.1 - a.2 * b.2, a.1 * b.2 + a.2 * b.1)

/-- The conjugate. -/
def cConj (a : Int × Int) : Int × Int := (a.1, -a.2)

/-- The squared magnitude. -/
def cAbs2 (a : Int × Int) : Nat := (a.1 * a.1 + a.2 * a.2).toNat

/-- Both parts divided, rounded down (R13). -/
def cDiv (a : Int × Int) (b : Int) : Int × Int := (a.1 / b, a.2 / b)

/-- Saturation to ±524,287 per part (R151), and whether it happened. -/
def sat20 (z : Int × Int) : (Int × Int) × Bool :=
  let f := fun (x : Int) => max (-524287) (min 524287 x)
  ((f z.1, f z.2), 524287 < z.1.natAbs || 524287 < z.2.natAbs)

/-! ### front corrections (R145) -/

/-- A corrected value in 2⁻⁴ code as a 16-bit sample. [DESIGN CHOICE: log 33] -/
def fit16 (x : Int) : Int := if -32768 ≤ x ∧ x ≤ 32767 then x else Config.frontOverflow x

/-- The 16-tap fractional-delay filter of R145: each sample under the skew of the sub-converter that took it. [DEDUCED: log 32] -/
def skewFilter (skew : Nat → Int) (x : List Int) : List Int :=
  let a := List.replicate 8 0 ++ x
  (List.range x.length).map fun m => divRound (sumI ((List.range 16).map fun j => Config.skewTap (skew m) j * a.getD (m + j) 0)) (2 ^ 20)

/-- Offset and gain, in 2⁻²⁴ code, then the skew filter. `ph` is the sub-converter of the first sample. -/
def frontChannel (factory eff : Amap Word) (n : Lane) (c ph : Nat) (codes : List Int) : List Int :=
  let item := fun (base i : Nat) => almVal factory eff (almLane n + base + 4 * c + i)
  let x1 := codes.zipIdx.map fun e =>
    let i := (ph + e.2) % 4
    (16 * e.1 - item 0x000 i) * (2 ^ 20 + item 0x010 i)
  if (List.range 4).all fun i => item 0x020 i == 0 then x1 else skewFilter (fun j => item 0x020 ((ph + j) % 4)) x1

/-- The four corrected channels in 2⁻⁴ code; with FRONT_EN = 0 the codes as they are. -/
def frontCorrect (factory eff : Amap Word) (en : Bool) (n : Lane) (t : Time) (codes : List (List Int)) : List (List Int) :=
  if !en then (List.range 4).map fun c => (codes.getD c []).map (16 * ·)
  else
    let ph := t.toNat / duPerNs % 4
    let ch := (List.range 4).map fun c => frontChannel factory eff n c ph (codes.getD c [])
    let pol := fun (p : Nat) =>
      let a := almVal factory eff (almLane n + 0x030 + p)
      let b := almVal factory eff (almLane n + 0x032 + p)
      let i1 := ch.getD (2 * p) []
      let q1 := ch.getD (2 * p + 1) []
      [i1.map fun x => fit16 (divRound x (2 ^ 20)),
       (List.zip i1 q1).map fun e => fit16 (divRound (e.2 * (2 ^ 20 + a) + e.1 * b) (2 ^ 40))]
    pol 0 ++ pol 1

/-! ### slot separation (R147, R148) and range correction (R133) -/

/-- The centre of slot `k` in units of 2 GHz / 2³² (R91). -/
def slotFreq (c : RegFile) (n : Lane) (k : Nat) : Int := sx 32 (RegFile.get c (slotF Reg.SYNn_SLOTk_FREQ n k))

/-- A linear-phase low-pass filter whose group delay is compensated, then every `d`-th sample (R148): taps by their distance from the middle
one, in 2⁻²⁰, over samples in 2⁻²⁴ code; beyond its ends the input is 0. [DEDUCED: log 32] -/
def lowPass (half : Nat) (tap : Nat → Int) (d : Nat) (x : List (Int × Int)) : List (Int × Int) :=
  (List.range ((x.length + d - 1) / d)).map fun m =>
    let z := (List.range (2 * half + 1)).foldl (fun (a : Int × Int) j =>
      let i : Int := (m * d + j : Nat) - (half : Int)
      let t := tap (if j ≤ half then half - j else j - half)
      let v := if i < 0 then (0, 0) else x.getD i.toNat (0, 0)
      (a.1 + t * v.1, a.2 + t * v.2)) (0, 0)
    (divRound z.1 (2 ^ 40), divRound z.2 (2 ^ 40))

/-- The separation filter of R148 for a bandwidth in MHz: 1 GS/s in, 1.25 · B out. -/
def separate (bw : Nat) (x : List (Int × Int)) : List (Int × Int) := lowPass (Config.sepHalf bw) (Config.sepTap bw) (800 / bw) x

/-- A corrected channel mixed by e^(−j2πf_c t), phase 0 at 28 ns + LEAD, filtered and decimated (R147, R148). -/
def separateChannel (c : RegFile) (n : Lane) (k : Nat) (xs : List Int) : List (Int × Int) :=
  let f := slotFreq c n k
  let lead := RegFile.get c (Reg.SYNn_GATE_TIME_LEAD.pg n)
  separate (slotBw c n k) (xs.zipIdx.map fun e =>
    let cs := cosSinTurn (-(2 * f * ((e.2 : Int) - 28 - lead))) (2 ^ 32)
    cDiv (e.1 * cs.1, e.1 * cs.2) (2 ^ 76))

/-- The samples from a switch on, on the old range's scale (R133). -/
def rescale (factory eff : Amap Word) (x : Shot) (n : Lane) (ch : Nat) (zs : List (Int × Int)) : List (Int × Int) :=
  x.switches.foldl (fun zs sw =>
    let a := rangeConst factory eff x.cfg n x.slot x.range ch
    let b := rangeConst factory eff x.cfg n x.slot sw.2 ch
    let cs := cosSinTurn (a.2 - b.2) (2 ^ 16)
    let from_ := tDiff sw.1 x.at_
    zs.zipIdx.map fun e =>
      if from_ ≤ ((e.2 * slotNs x.cfg n * duPerNs : Nat) : Int) then cDiv (cMul (a.1 * e.1.1, a.1 * e.1.2) cs) (b.1 * fxOne)
      else e.1) zs

/-- X = z_XI + j z_XQ or Y = z_YI + j z_YQ. -/
def branchOf (zi zq : List (Int × Int)) : List (Int × Int) :=
  (List.zip zi zq).map fun e => (e.1.1 - e.2.2, e.1.2 + e.2.1)

/-! ### compression (R151 to R156) -/

/-- N_h of the slot's reference (R151). [DEDUCED: log 35] -/
def refTaps (c : RegFile) (n : Lane) (k : Nat) : Nat :=
  if RegFile.get c ((Reg.SHOTn_SLOTk_MF_SRC.pg n).ix k) = 0 then (slotLen c n k * slotBw c n k + 799) / 800
  else RegFile.get c ((Reg.SHOTn_SLOTk_MF_LEN.pg n).ix k)

/-- ceil(log₂ m). -/
def clog2 (m : Nat) : Nat := if m ≤ 1 then 0 else (m - 1).log2 + 1

/-- The slot whose reference serves slot `k`: slot 0 in DIVERSITY (R152). -/
def refSlot (mode k : Nat) : Nat := if mode = 2 then 0 else k

/-- C (R153). -/
def shiftOf (c : RegFile) (mode : Nat) (n : Lane) (k : Nat) : Nat :=
  let v := RegFile.get c ((Reg.SHOTn_SLOTk_MF_CSHIFT.pg n).ix k)
  if v = 0 then clog2 (refTaps c n (refSlot mode k)) else v

/-- The receive window WIN at tap `i` of `m`, in 2⁻⁹⁶: none, Hann, Blackman (R154). [PRESUMED: log 119] -/
def recvWindow (win m i : Nat) : Int :=
  let c := fun (h : Int) => (cosSinTurn (h * ((2 * i + 1 : Nat) : Int)) (2 * m)).1
  match win with
  | 1 => (fxOne - c 1) / 2
  | 2 => (42 * (fxOne : Int) - 50 * c 1 + 8 * c 2) / 100
  | _ => fxOne

/-- Samples scaled so that the largest magnitude is 32,767 (R152). [DEDUCED: log 123] -/
def scaleRef (l : List (Int × Int)) : List (Int × Int) :=
  let top := l.foldl (fun m z => max m (cAbs2 z)) 0
  let r := isqrt (top * 2 ^ 64)
  if r = 0 then l else l.map fun z => (divRound (z.1 * 32767 * 2 ^ 32) r, divRound (z.2 * 32767 * 2 ^ 32) r)

/-- The computed reference of slot `k` (R152): of a chirp the waveform at baseband, through the separation filter, times WIN; of a rectangle its
envelope. [DEDUCED: log 123] -/
def computedRef (c : RegFile) (n : Lane) (k : Nat) : List (Int × Int) :=
  let m := refTaps c n k
  let shape := RegFile.get c (slotF Reg.SYNn_SLOTk_CFG_SHAPE n k)
  if shape = 0 then
    let len := slotLen c n k
    let edge := min (RegFile.get c (slotF Reg.SYNn_SLOTk_CFG_EDGE n k)) (len / 4)
    scaleRef ((List.range m).map fun i => (envelope 0 len 0 edge (2 * i * (800 / slotBw c n k)), 0))
  else
    let f := slotFreq c n k
    let wave := waveAt 4095 c n k
    let base := (List.range (slotLen c n k)).map fun (i : Nat) =>
      let cs := cosSinTurn (-(2 * f * (i : Int))) (2 ^ 32)
      cDiv (cMul (wave.getD (2 * i) (0, 0)) cs) (2 ^ 72)
    let win := RegFile.get c ((Reg.SHOTn_SLOTk_MF_WIN.pg n).ix k)
    let z := separate (slotBw c n k) base
    scaleRef ((List.range m).map fun i => let w := recvWindow win m i; let v := z.getD i (0, 0); (v.1 * w, v.2 * w))

/-- The reference of slot `k` from the table or the waveform, `refTaps` long (R152): that of a rectangle without edges is a moving sum. -/
def reference (p : ShotProc) (c : RegFile) (n : Lane) (k : Nat) : List (Int × Int) :=
  if RegFile.get c ((Reg.SHOTn_SLOTk_MF_SRC.pg n).ix k) = 0 then
    if RegFile.get c (slotF Reg.SYNn_SLOTk_CFG_SHAPE n k) = 0 ∧ RegFile.get c (slotF Reg.SYNn_SLOTk_CFG_EDGE n k) = 0 then
      List.replicate (refTaps c n k) (32767, 0)
    else computedRef c n k
  else (List.range (refTaps c n k)).map fun a =>
    let w := (Amap.get p.mfUser (k * 32768 + a) 0).toNat
    (sx 16 w, sx 16 (w / 65536))

/-- The launch delay Δ that a shot's Δ_L gives, and whether it was clamped (R156). -/
def launchDelay (x : Shot) (n : Lane) : Int × Bool :=
  if RegFile.get x.cfg (Reg.SHOTn_CORR_CFG_JIT_EN.pg n) = 0 then (0, false) else
    let d := x.jit.getD 0
    let j : Int := spacingDu x.cfg n
    if j < d then (j, true) else if d < -j then (-j, true) else (d, false)

/-- A branch compressed at slot-sample index `m` from the zero point (R151, R155): `xs` is the branch after the fractional
delay, `d` the delay in device units, `rot` its carrier rotation. -/
def compressAt (xs h : List (Int × Int)) (shift : Nat) (rot : Int × Int) (m : Int) : (Int × Int) × Bool :=
  let sum := h.zipIdx.foldl (fun (acc : Int × Int) e =>
    let i := m + e.2
    if i < 0 then acc else
      let p := cMul (xs.getD i.toNat (0, 0)) (cConj e.1)
      (acc.1 + p.1, acc.2 + p.2)) (0, 0)
  let z := cMul sum rot
  let q := 2 ^ (15 + shift) * fxOne
  sat20 (divRound z.1 q, divRound z.2 q)

/-- A branch compressed at indices −N_ref · S to (P + G) · S (R144). -/
def compressBranch (x : Shot) (n : Lane) (mode k : Nat) (h xs : List (Int × Int)) : List ((Int × Int) × Bool) :=
  let c := x.cfg
  let d : Int := tau0 c n + (launchDelay x n).1
  let per := slotNs c n * duPerNs
  let whole := floorDiv d per
  let frac := (d - whole * per).toNat
  let ys := if frac = 0 then xs else Config.fracDelay frac per xs
  let rot := cosSinTurn (slotFreq c n k * d) (2 ^ 38)
  let sp := spacing c n
  (List.range ((refPoints c n + points c n + gaugeLen c n) * sp + 1)).map fun (i : Nat) =>
    compressAt ys h (shiftOf c mode n k) rot (whole + (i : Int) - (refPoints c n * sp : Nat))

/-! ### combining (R157 to R160) -/

/-- Which polarisations combine (R157). -/
def pols (pol : Nat) : List Nat := if pol = 1 then [0] else if pol = 2 then [1] else [0, 1]

/-- Turn a sample by −2πδ / 256, in 2⁻⁹⁶. -/
def turnBack (z : Int × Int) (delta : Nat) : Int × Int := cMul z (cosSinTurn (-(delta : Int)) 256)

/-- The maximal-ratio sum of branch samples under their relative phases (R158). [DEDUCED: log 34] -/
def mrc (bs : List (Int × Int)) (ds : List Nat) : (Int × Int) :=
  let e := bs.foldl (fun a z => a + cAbs2 z) 0
  if e = 0 then (0, 0) else
    let sum := (List.zip bs ds).foldl (fun (acc : Int × Int) p =>
      let a : Int := isqrt (cAbs2 p.1 * 2 ^ 64)
      let v := turnBack p.1 p.2
      (acc.1 + a * v.1, acc.2 + a * v.2)) (0, 0)
    (sat20 (cDiv sum ((isqrt (e * 2 ^ 64) : Nat) * fxOne))).1

/-- δ_b of a point at its initialisation. [DEDUCED: log 34; DESIGN CHOICE: log 108] -/
def initDeltas (bs : List (Int × Int)) : List Nat :=
  match bs with
  | [] => []
  | r :: rest => rest.map fun b => ux 8 (argTurns 2 8 (cMul b (cConj r)).1 (cMul b (cConj r)).2)

/-- One combining of a point: its value and its next state (R158). [DEDUCED: log 34; DESIGN CHOICE: log 108] -/
def combine (tau cmin : Nat) (bs : List (Int × Int)) (st : Option Comb) : (Int × Int) × Comb :=
  match st with
  | none =>
    let ds := initDeltas bs
    (mrc bs (0 :: ds), { deltas := ds, count := 0 })
  | some c =>
    let z := mrc bs (0 :: c.deltas)
    let cnt := c.count + 1
    let refOk := cmin * cmin ≤ cAbs2 (bs.headD (0, 0))
    let ds := if cnt % 2 ^ tau = 0 ∧ refOk then
        (List.zip (bs.drop 1) c.deltas).map fun p =>
          if cmin * cmin ≤ cAbs2 p.1 then
            let w := cMul (turnBack p.1 p.2) (cConj z)
            let e := argRad 3 w.1 w.2 * 256
            if 3 * (fxPi : Int) ≤ e then (p.2 + 1) % 256 else if e ≤ -(3 * (fxPi : Int)) then (p.2 + 255) % 256 else p.2
          else p.2
      else c.deltas
    (z, { deltas := ds, count := cnt })

/-- The constants of R160 of one point: its branches' slots and polarisations with the samples as weights. -/
def pointConst (factory eff : Amap Word) (x : Shot) (n : Lane) (old : Nat) (bs : List ((Nat × Nat) × (Int × Int))) : Int × Int × Int :=
  let e : Int := (bs.foldl (fun a b => a + cAbs2 b.2) 0 : Nat)
  let mean := fun (r : Nat) (f : Int × Int → Int) =>
    let tot := bs.foldl (fun (a : Int) b =>
      let i := f (rangeConst factory eff x.cfg n b.1.1 r (2 * b.1.2))
      let q := f (rangeConst factory eff x.cfg n b.1.1 r (2 * b.1.2 + 1))
      a + (if e = 0 then 1 else (cAbs2 b.2 : Int)) * (i + q)) 0
    tot / (2 * (if e = 0 then ((max bs.length 1 : Nat) : Int) else e))
  (mean x.range (·.1), mean old (·.1), mean x.range (·.2) - mean old (·.2))

/-! ### a shot -/

/-- The branches of a shot's gate pulse that combine into one value, with the compressed samples of each. -/
def shotBranches (s : State) (n : Lane) (x : Shot) (slots : List Nat) (codes : List (List Int)) :
    List ((Nat × Nat) × List ((Int × Int) × Bool)) :=
  let p := s.shotp.get n
  let mode := if RegFile.get x.cfg (laneModeF n) = 6 then RegFile.get x.cfg (laneSubF n) else RegFile.get x.cfg (laneModeF n)
  let front := frontCorrect s.alm.factory x.alm (RegFile.get x.cfg (Reg.SHOTn_CORR_CFG_FRONT_EN.pg n) != 0) n x.at_ codes
  slots.flatMap fun k =>
    let zs := (List.range 4).map fun c =>
      rescale s.alm.factory x.alm { x with slot := k } n c (separateChannel x.cfg n k (front.getD c []))
    (pols (RegFile.get x.cfg (Reg.SHOTn_COMB_CFG_POL.pg n))).map fun pl =>
      ((k, pl), compressBranch x n mode k (Amap.get p.refs (refSlot mode k) [])
        (branchOf (zs.getD (2 * pl) []) (zs.getD (2 * pl + 1) [])))

/-- Combine every point of a shot (R158, R162): the values of points −N_ref to P + G − 1 and the combiner states. [DEDUCED: log 34] -/
def combinePoints (n : Lane) (x : Shot) (brs : List (List (Int × Int))) (comb : Amap Comb) : List (Int × Int) × Amap Comb :=
  let c := x.cfg
  let nref := refPoints c n
  let tau := RegFile.get c (Reg.SHOTn_COMB_CFG_TAU.pg n)
  let cmin := RegFile.get c (Reg.SHOTn_COMB_MIN.pg n)
  (List.range (nref + points c n + gaugeLen c n)).foldl (fun acc i =>
    let key := x.slot * 2 ^ 20 + 1024 + i - nref
    let r := combine tau cmin (brs.map fun b => b.getD (i * spacing c n) (0, 0)) (Amap.find key acc.2)
    (acc.1 ++ [r.1], Amap.put key r.2 acc.2)) ([], comb)

/-- COMPLEX payload of points `a` to `a + m − 1` (R163). -/
def complexBytes (nref : Nat) (vals : List (Int × Int)) (a m : Nat) : List Byte :=
  (List.range m).flatMap fun i => leBytes 5 (packComplex (vals.getD (nref + a + i) (0, 0)))

/-- The shot completes a lane frame: in RATE the last slot's, else every gate pulse's. -/
def lastOfFrame (c : RegFile) (n : Lane) (k : Nat) : Bool :=
  let m := RegFile.get c (laneModeF n)
  let d := if m = 6 then RegFile.get c (laneSubF n) else m
  d != 1 || k + 1 == (slotsOf c n).length

/-- The end of a shot's covered interval: its return window ends one lane period after its launch (R29, R374). -/
def shotTill (s : State) (n : Lane) (x : Shot) : Time := x.at_ + nsT (s.lanePeriod n)

/-- Flags of a shot's values for points `a` to `a + m − 1`: HOLE, RANGE_SEAM (R38, R132, R135). -/
def shotFlags (g : GaugeShot) (a m : Nat) : Nat :=
  (if g.shot.dark || g.shot.hole then 8 else 0) |||
  (if !g.seam.isEmpty then 4 else match g.seamPts with
    | some (f, l) => if a ≤ l ∧ f < a + m then 4 else 0
    | none => 0)

/-- A slot shot leaves SHOT: PHZ may take it. -/
def shotOut (n : Lane) (g : GaugeShot) (s : State) : State :=
  let p := s.shotp.get n
  (s.setShotp n { p with gauges := p.gauges ++ [g] }).when (lastOfFrame g.shot.cfg n g.shot.slot) (frameDone n)

/-- The COMPLEX values of a slot shot that PHZ takes, or has discarded, are delivered (R38, R163). -/
def complexOut (n : Lane) (g : GaugeShot) (s : State) : State :=
  let c := g.shot.cfg
  addFrame 0x02 5 n g.shot.tick (shotTill s n g.shot) (points c n) (lastOfFrame c n g.shot.slot)
    (complexBytes g.nref (if g.shot.dark || g.shot.hole then [] else g.vals)) (shotFlags g) s

/-- Remove the shots of a gate pulse from the lane's shots. -/
def takePulse (n : Lane) (x : Shot) (s : State) : State :=
  let l := s.shots.get n
  { s with shots := s.shots.set n { l with shots := l.shots.filter fun y => y.id ≠ x.id } }

/-- The seam range of a shot that met a switch in flight (R134). -/
def shotSeamPts (n : Lane) (x : Shot) : Option (Nat × Nat) :=
  match x.switches.getLast? with
  | none => none
  | some (t, _) => let ta := tDiff t x.at_ / duPerNs; seamRange x.cfg n x.slot ta (ta + 200)

/-- A discarded shot passes with the value 0 + 0j at every point (R38, R111). -/
def shotHole (n : Lane) (x : Shot) (s : State) : State :=
  shotOut n { shot := { x with hole := true }, nref := refPoints x.cfg n, vals := [] } (takePulse n x s)

/-- A lit shot is processed (R144 to R162). -/
def shotLit (n : Lane) (x : Shot) (slots : List Nat) (codes : List (List Int)) (combUe : List Nat) (s : State) : State :=
  let p := s.shotp.get n
  let jd := launchDelay x n
  let brs := shotBranches s n x slots codes
  let satN := brs.foldl (fun a b => a + (b.2.filter (·.2)).length) 0
  -- points that are initialised afresh (R159)
  let base := x.slot * 2 ^ 20 + 1024
  let comb0 := if x.lightBack then Amap.drop (fun k => k / 2 ^ 20 == x.slot) p.comb else p.comb
  let nref := refPoints x.cfg n
  let lost := combUe.filter fun i => (Amap.find (base + i - nref) comb0).isSome
  let comb1 := lost.foldl (fun m i => Amap.del m (base + i - nref)) comb0
  let cp := combinePoints n x (brs.map fun b => b.2.map (·.1)) comb1
  let old := Amap.get p.lastRange x.slot x.range
  let seam := if old = x.range then [] else
    (List.range cp.1.length).map fun i =>
      pointConst s.alm.factory x.alm x n old (brs.map fun b => (b.1, (b.2.getD (i * spacing x.cfg n) ((0, 0), false)).1))
  let s1 := (takePulse n x s).setShotp n { p with comb := cp.2, lastRange := Amap.put x.slot x.range p.lastRange }
  let s2 := (s1.setStI (Reg.SHOTn_JIT_APPLIED.pg n) jd.1).when jd.2
    fun s => (s.bump (Reg.SHOTn_JIT_CLAMPS.pg n)).raise (0x028 + n) 1
  let r := s2.rxf.get n
  let s3 := (s2.bumpBy (Reg.SHOTn_SAT_SAMPLES.pg n) satN).when (satN != 0)
    fun s => (s.raiseIf (r.satTick != some x.tick) (0x028 + n) 0).setRxf n { r with satTick := some x.tick }
  let s4 := (s3.bumpBy (Reg.SHOTn_COMB_REINITS.pg n) lost.length).when (!lost.isEmpty)
    fun s => ((s.bumpBy Reg.SYS_SRAM_UE lost.length).raise 0x010 7).raise (0x028 + n) 2
  shotOut n { shot := x, nref := nref, vals := cp.1, seam := seam, seamPts := shotSeamPts n x, lost := lost } s4

/-- The oldest unprocessed shot of slot `k`. -/
def oldestShot (s : State) (n : Lane) (k : Nat) : Option Shot := (s.shots.get n).shots.find? fun x => x.slot == k

/-- The slots that share the shot's gate pulse. -/
def pulseMates (s : State) (n : Lane) (x : Shot) : List Nat := ((s.shots.get n).shots.filter fun y => y.id == x.id).map (·.slot)

/-- SHOT_PROCESS (R144). In DIVERSITY the command of slot 0 processes the combined shot. An uncorrectable error discards it (R15). [DESIGN CHOICE: log 107] -/
def execShotProcess (n : Lane) (k : Slot) (codes : List (List Int)) (combUe : List Nat) (s0 : State) (e : Sram := ⟨0, false⟩) : Res :=
  let s := sramMet e s0
  .next (match oldestShot s n k with
    | none => s
    | some x =>
      let slots := pulseMates s n x
      let span := if slots.length = 1 ∧ s.dasMode n = 1 then
          let kk := (slotsOf x.cfg n).length
          let per := s.lanePeriod n
          slotOffset 1 per (k + 1) kk - slotOffset 1 per k kk
        else s.lanePeriod n
      let s1 := countOverload n k span x.tick codes s
      if x.dark || x.hole || e.lost then shotHole n x s1 else shotLit n x slots codes combUe s1)

/-! ### lane start and tables -/

/-- SHOTn_SLOTk_NH follows the references held and CSHIFT (R153). -/
def syncNh (n : Lane) (s : State) : State :=
  (List.range 8).foldl (fun s k =>
    let en := slotEn s.live n k
    let taps := if en then refTaps s.live n (refSlot (s.dasMode n) k) else 0
    let c := if en then shiftOf s.live (s.dasMode n) n k else 0
    (s.setSt ((Reg.SHOTn_SLOTk_NH_TAPS.pg n).ix k) taps).setSt ((Reg.SHOTn_SLOTk_NH_C.pg n).ix k) c) s

/-- The lane's RESTART fields take effect in SHOT (R141, R152, R159). -/
def startShot (n : Lane) (s : State) : State :=
  let p := s.shotp.get n
  let refs := (slotsOf s.live n).foldl (fun m k => Amap.put k (reference p s.live n k) m) []
  let s1 := s.setShotp n { p with refs := refs, comb := [], lastRange := [], gauges := [], traceSeen := 0, traceDone := false, traceFull := false }
  let s3 := (syncNh n s1).setSt (Reg.SHOTn_POINTS.pg n) (points s1.live n)
  ((s3.setSt (Reg.SHOTn_TRACE_FRAMES.pg n) 0).setSt (Reg.SHOTn_STATUS_TRACE_ACTIVE.pg n) (bit (s3.laneMode n == 7))).setSt
    (Reg.SHOTn_STATUS_TRACE_CLIPPED.pg n) 0

/-- MF_DATA_WRITE (R152). [DEDUCED: log 35] -/
def execMfDataWrite (q : Requester) (n : Lane) (w : Word) (s : State) : Res :=
  .next (s.busWrite q (0x028 + n) fun s =>
    let i := s.winIndex q (0x028 + n)
    let a := i % 32768
    let k := i / 65536 % 8
    let p := s.shotp.get n
    let s1 := if s.laneState n ≠ 0 then s.raise (0x028 + n) 5
      else if a < 20000 then s.setShotp n { p with mfUser := Amap.put (k * 32768 + a) w p.mfUser }
      else s
    s1.setWinIndex q (0x028 + n) (k * 65536 + (a + 1) % 32768))

/-! ### trace capture (R164 to R166) -/

/-- The 48 bytes of a record header (R372), with HDR_CHECK given. -/
def headerBytes (r : Rec) (compressed : Bool) (seq payload orig check : Nat) : List Byte :=
  leBytes 2 0x5A58 ++ leBytes 1 r.product ++ leBytes 1 (1 + 16 * bit compressed + 32 * r.width) ++ leBytes 2 r.sid ++
  leBytes 2 r.flags ++ leBytes 4 seq ++ leBytes 4 payload ++ leBytes 8 r.time.toNat ++ leBytes 4 r.firstPoint.toNat ++
  leBytes 4 r.pointCount ++ leBytes 4 r.frameCount ++ leBytes 4 orig ++ leBytes 4 check

/-- One step of CRC-32C on a byte, eight bits at a time (R319). -/
def crcBits : Nat → Nat → Nat
  | 0, c => c
  | k + 1, c => crcBits k (if c % 2 = 1 then (c / 2) ^^^ 0x82F63B78 else c / 2)

/-- CRC-32C of bytes (R319). -/
def crc32c (l : List Byte) : Nat := (l.foldl (fun c b => crcBits 8 (c ^^^ b.toNat)) 0xFFFFFFFF) ^^^ 0xFFFFFFFF

/-- A whole uncompressed record as bytes. -/
def plainRecord (r : Rec) (seq : Nat) : List Byte :=
  let pay := r.lead ++ r.body
  let h := headerBytes r false seq pay.length pay.length (crc32c pay)
  h ++ leBytes 4 (crc32c h) ++ pay

/-- Put a record into the trace-capture region; none where it does not fit with RING = 0 (R165). [DEDUCED: log 36] -/
def tracePut (ring : Bool) (bytes : List Byte) (s : State) : Option State :=
  let reg := regionBytes s 6
  let len := bytes.length
  let tr := s.trace
  if reg.2 < len then none
  else
    let at_ := if tr.next + len ≤ reg.2 then tr.next else 0
    if !ring && (tr.next + len > reg.2) then none
    else
      let keep := tr.held.filter fun h => h.1 + h.2 ≤ at_ || at_ + len ≤ h.1
      some { memWrite (reg.1 + at_) bytes s with trace := { held := keep ++ [(at_, len)], next := at_ + len } }

/-- The RAW_TRACE pieces of one channel: up to 65,536 samples each (R166), as start and samples. [DEDUCED: log 36] -/
def tracePieces : Nat → Nat → List Int → List (Nat × List Int)
  | 0, _, _ => []
  | f + 1, a, l => if l.isEmpty then [] else (a, l.take 65536) :: tracePieces f (a + 65536) (l.drop 65536)

/-- A RAW_TRACE record. [DEDUCED: log 36] -/
def traceRec (n : Lane) (tick till : Time) (ch a flags : Nat) (l : List Int) : Rec :=
  { product := 0x01, width := 1, flags := flags, time := tick, till := till
    firstPoint := BitVec.ofNat 32 (n.val * 2 ^ 31 + ch * 2 ^ 28 + a), pointCount := l.length, frameCount := 1
    body := l.flatMap fun x => leBytes 2 (ux 16 x) }

/-- One piece goes to the region and to the streams that select its channel and samples. -/
def tracePiece (n : Lane) (ring : Bool) (flags : Nat) (s : State) (ch a : Nat) (l : List Int) : State :=
  let p := s.shotp.get n
  if p.traceFull then s else
    let tick := (s.lanes.get n).lastTick
    let till := tick + nsT (s.lanePeriod n)
    let r := traceRec n tick till ch a flags l
    let hdr := { r with sid := (Config.traceStreamId s.free).toNat, flags := flags ||| laneFlags s n tick till }
    match tracePut ring (plainRecord hdr (Config.traceSeq s.free).toNat) { s with free := s.free + 1 } with
    | none => ((s.setShotp n { p with traceFull := true }).setSt (Reg.SHOTn_STATUS_TRACE_ACTIVE.pg n) 0).raise (0x028 + n) 4
    | some s1 =>
      (s1.streamsAt 0x01 tick fun x => x.lane == n.val && (x.src / 2 ^ ch % 2 == 1)).foldl (fun s x =>
        let lo := max a x.sel.first
        let hi := if x.sel.count = 0 then a + l.length else min (a + l.length) (x.sel.first + x.sel.count)
        if lo < hi then addRecord x (traceRec n tick till ch lo flags ((l.drop (lo - a)).take (hi - lo))) s else s) s1

/-- The converter trace writer takes a frame (R164, R165): `want` frames at most are captured, with 0 any number. [DEDUCED: log 36] -/
def traceFrame (n : Lane) (want : Nat) (codes : List (List Int)) (s : State) : State :=
  let start := s.lv (Reg.SHOTn_TRACE_START.pg n)
  let len := s.lv (Reg.SHOTn_TRACE_LEN.pg n)
  let per := s.lanePeriod n
  let cut := if start + len ≤ per then len else per - start
  let s1 := if start + len ≤ per then s else s.setSt (Reg.SHOTn_STATUS_TRACE_CLIPPED.pg n) 1
  let mask := s.lv (Reg.SHOTn_TRACE_CFG_CH.pg n)
  let flags := if (s.rxf.get n).changed then 4 else 0
  let s2 := ((List.range 4).filter fun c => mask / 2 ^ c % 2 == 1).foldl (fun s c =>
    let l := ((codes.getD c []).drop start).take cut
    (tracePieces (l.length / 65536 + 1) 0 l).foldl
      (fun s e => tracePiece n (s.on (Reg.SHOTn_TRACE_CFG_RING.pg n)) flags s c e.1 e.2) s) s1
  if (s2.shotp.get n).traceFull then s2 else
    let s3 := s2.bump (Reg.SHOTn_TRACE_FRAMES.pg n)
    if want ≠ 0 ∧ want ≤ s3.st (Reg.SHOTn_TRACE_FRAMES.pg n) then
      ((s3.setShotp n { s3.shotp.get n with traceDone := true }).setSt (Reg.SHOTn_STATUS_TRACE_ACTIVE.pg n) 0).raise
        (0x028 + n) 3
    else s3

/-- TRACE_FRAME (R125, R164, R165): overload samples are counted in every frame; once the region is full, a frame is missed if it would have been
captured. [DEDUCED: log 30, 36] -/
def execTraceFrame (n : Lane) (codes : List (List Int)) (s : State) : Res :=
  .next (if s.laneMode n ≠ 7 ∨ s.laneState n ≠ 2 then s
    else
      let s0 := countOverload n ((slotsOf s.live n).headD 0) (s.lanePeriod n) (s.lanes.get n).lastTick codes s
      let p := s0.shotp.get n
      let want := s.lv (Reg.SHOTn_TRACE_CFG_FRAMES.pg n)
      let s1 := s0.setShotp n { p with traceSeen := p.traceSeen + 1 }
      if p.traceDone then s0
      else if p.traceFull then (if want = 0 ∨ p.traceSeen < want then s1.bump (Reg.SHOTn_TRACE_MISSED.pg n) else s0)
      else traceFrame n want codes s1)

end Sys2Proof.Machine
end

