-- ==== Sys2Proof/Machine/Capt.lean ====
section
/-!
DEFINITION. The history rings and segment capture (chapter 11, R269 to R280).
-/

namespace Sys2Proof.Machine

/-! ### series geometry -/

/-- The DAS mode that a configuration gives a lane (R45). -/
def cfgDas (c : RegFile) (n : Lane) : Nat :=
  if RegFile.get c (laneModeF n) = 6 then RegFile.get c (laneSubF n) else RegFile.get c (laneModeF n)

/-- The lane mode uses SLOW (R24, R191). -/
def usesSlow (c : RegFile) (n : Lane) : Bool := 1 ≤ cfgDas c n && cfgDas c n ≤ 4

/-- K_PHZ (R171). -/
def kPhz (c : RegFile) (n : Lane) : Nat := if cfgDas c n = 1 then max (slotsOf c n).length 1 else 1

/-- The overall decimation D (R199). -/
def slowDec (c : RegFile) (n : Lane) : Nat :=
  RegFile.get c (Reg.SLOWn_CIC_RATIO.pg n) * RegFile.get c (Reg.SLOWn_FIR_CFG_DEC.pg n)

/-- Bytes of a STRAIN_RATE value and of a FILTERED value (R187, R212). -/
def rateBytes (c : RegFile) (n : Lane) : Nat := if RegFile.get c (Reg.PHZn_SR_CFG_WIDTH.pg n) = 0 then 3 else 2
def outBytes (c : RegFile) (n : Lane) : Nat :=
  match RegFile.get c (Reg.SLOWn_OUT_WIDTH.pg n) with
  | 0 => 2 | 1 => 3 | _ => 5

/-- The sample width code of values of so many bytes (R375). -/
def widthCode (b : Nat) : Nat := if b = 2 then 1 else if b = 3 then 2 else 4

/-- The interval of chain outputs in device units with 24 fraction bits (R213). -/
def outPeriod (s : State) (n : Lane) : Nat :=
  if s.on (Reg.SLOWn_RS_CFG_EN.pg n) then s.lv (Reg.SLOWn_RS_PERIOD.pg n) * duPerNs * 2 ^ 24
  else s.lanePeriod n * duPerNs * 2 ^ 24 * slowDec s.live n / kPhz s.live n

/-! ### the history ring (R269) -/

/-- CAPT_Ln_HIST.SRC in force. -/
def histSrc (s : State) (n : Lane) : Nat := s.lv (Reg.CAPT_Ln_HIST_SRC.ix n)

/-- b_hist in bytes. -/
def histBytes (s : State) (n : Lane) : Nat := if histSrc s n = 2 then rateBytes s.live n else outBytes s.live n

/-- The interval of history samples in device units with 24 fraction bits. -/
def histPeriod (s : State) (n : Lane) : Nat :=
  if histSrc s n = 2 then s.lanePeriod n * duPerNs * 2 ^ 24 / kPhz s.live n else outPeriod s n

/-- N_HR (R269). -/
def histDepth (s : State) (n : Lane) : Nat := (regionBytes s (1 + n)).2 / (points s.live n * histBytes s n)

/-- Where sample `g` of a ring stands in record memory (R354). -/
def histAddr (s : State) (n : Lane) (g : Nat) : Nat :=
  (regionBytes s (1 + n)).1 + g % max (histDepth s n) 1 * (points s.live n * histBytes s n)

/-- Values as they are stored, saturated to their width (R212). -/
def valBytes (b : Nat) (l : List Int) : List Byte := l.flatMap fun x => leBytes b (ux (8 * b) (if b < 5 then satN (8 * b) x else x))

/-- Write a row into the ring from point `p0` on, dropping what it overwrites. -/
def histPut (n : Lane) (g : Nat) (r : Row) (p0 : Nat) (vals : List Int) (s : State) : State :=
  let d := histDepth s n
  if d = 0 then s else
    let ring := Amap.drop (fun k => decide (k + d ≤ g)) (Amap.put g r (s.capt.ring.get n))
    let b := histBytes s n
    memWrite (histAddr s n g + p0 * b) (valBytes b vals) { s with capt := { s.capt with ring := s.capt.ring.set n ring } }

/-- The flags of a row over the tiles of points `a` to `a + m − 1` (R209). -/
def rowFlags (r : Row) (a m : Nat) : Nat :=
  r.flags.foldl (fun acc e => if a / 256 ≤ e.1 ∧ e.1 ≤ (a + m - 1) / 256 then acc ||| e.2 else acc) 0

/-- The flags a record can carry: WITHHELD, bit 10 of a row's flags, is none of them (R191, R374). -/
def recFlags (f : Nat) : Nat := f &&& 0x3FF

/-- The nominal instant of history sample `g` and the tick of its lane frame; outside the ring by the sample interval. -/
def histInst (s : State) (n : Lane) (g : Int) : Time × Time :=
  match (if 0 ≤ g then Amap.find g.toNat (s.capt.ring.get n) else none), s.capt.ring.get n with
  | some r, _ => (r.inst, r.tick)
  | none, (k, r) :: _ =>
    let t := r.inst - BitVec.ofInt 64 (((k : Int) - g) * histPeriod s n / 2 ^ 24)
    let per := s.lanePeriod n * duPerNs
    let back := ceilDiv (tDiff r.tick t) (max per 1)
    (t, if 0 < back then r.tick - BitVec.ofInt 64 (back * per) else r.tick)
  | none, [] => (0, 0)

/-- The trigger sample of a time (R271): the last history sample at or before it. -/
def trigSample (s : State) (n : Lane) (t : Time) : Int :=
  match (s.capt.ring.get n).filter (fun e => !tBefore t e.2.inst) with
  | [] =>
    match s.capt.ring.get n with
    | (k, r) :: _ => (k : Int) - ceilDiv (tDiff r.inst t * 2 ^ 24) (max (histPeriod s n) 1)
    | [] => 0
  | l => ((l.getLast?.map (·.1)).getD 0 : Nat)

/-! ### the pool -/

/-- N_seg (R271). -/
def segCount (s : State) : Nat := min 65536 ((regionBytes s 3).2 / 2 ^ s.lv Reg.CAPT_SEG_SIZE)

def State.seg (s : State) (i : Nat) : Seg := Amap.get s.capt.segs i {}
def State.setSeg (i : Nat) (g : Seg) (s : State) : State := { s with capt := { s.capt with segs := Amap.put i g s.capt.segs } }
def State.zcapt (s : State) (z : Nat) : ZoneCapt := Amap.get s.capt.zones z {}
def State.setZcapt (z : Nat) (c : ZoneCapt) (s : State) : State := { s with capt := { s.capt with zones := Amap.put z c s.capt.zones } }

/-- SEG_ID of a segment (R276). -/
def segId (i : Nat) (g : Seg) : Nat := g.gen * 65536 + i

/-- The lowest-numbered free segment at or above `i`. -/
def firstFree : Nat → Amap Seg → Nat
  | i, [] => i
  | i, (k, g) :: r => if i < k then i else if g.st = 0 then k else firstFree (k + 1) r

/-- The segment to take, if one is free (R276). -/
def freeSeg (s : State) : Option Nat := let i := firstFree 0 s.capt.segs; if i < segCount s then some i else none

/-- Bytes of a segment's samples per time sample. -/
def segRow (g : Seg) : Nat := g.count * g.width

/-- The address of segment `i`. -/
def segAddr (s : State) (i : Nat) : Nat := (regionBytes s 3).1 + i * 2 ^ s.lv Reg.CAPT_SEG_SIZE

/-- CAPT_SEG_COUNT, CAPT_SEG_FREE and CAPT_BACKLOG (R277). -/
def syncCapt (s : State) : State :=
  let used := s.capt.segs.filter fun e => e.2.st ≠ 0
  let b := used.foldl (fun a e => a + 64 + e.2.held * segRow e.2) 0
  ((s.setSt Reg.CAPT_SEG_COUNT (segCount s)).setSt Reg.CAPT_SEG_FREE (segCount s - used.length)).setSt
    Reg.CAPT_BACKLOG (min (b / 1024) (2 ^ 24 - 1))

/-- The 60 bytes of a segment header before its CRC, and the header (R279). -/
def segHead (i : Nat) (g : Seg) : List Byte :=
  leBytes 4 (segId i g) ++ leBytes 4 g.eventSeq ++ leBytes 8 g.trig.toNat ++ leBytes 8 g.firstInst.toNat ++
  leBytes 8 (g.period * 2 ^ g.logT) ++ leBytes 4 g.nextId ++ leBytes 4 g.headId ++ leBytes 2 g.zone ++ leBytes 1 g.mask ++
  leBytes 1 g.primary ++ leBytes 4 g.pre ++ leBytes 4 (g.held - g.pre) ++ leBytes 2 g.sflags ++ leBytes 1 g.logT ++
  leBytes 1 (g.src + 16 * widthCode g.width) ++ leBytes 2 g.cont ++ leBytes 2 (min g.short 65535)
def segHeader (i : Nat) (g : Seg) : List Byte := segHead i g ++ leBytes 4 (crc32c (segHead i g))

/-- A word of a zone entry (R256). -/
def zoneWord (w : Amap Word) (z k : Nat) : Nat := (Amap.get w (z * 16 + k) 0).toNat

/-- Bits of a zone word. -/
def bitsOf (v lo n : Nat) : Nat := v / 2 ^ lo % 2 ^ n

/-- The first point that a zone captures, and how many (R271). -/
def captPoints (s : State) (n : Lane) (w : Amap Word) (z : Nat) : Nat × Nat :=
  let first := bitsOf (zoneWord w z 0) 0 18
  let cnt := bitsOf (zoneWord w z 1) 0 19
  let mar := bitsOf (zoneWord w z 4) 16 16
  let hi := min (first + cnt + mar) (points s.live n)
  (first - mar, hi - (first - mar))

/-- C (R271). -/
def segCap (s : State) (n : Lane) (w : Amap Word) (z : Nat) : Nat :=
  (2 ^ s.lv Reg.CAPT_SEG_SIZE - 64) / ((captPoints s n w z).2 * histBytes s n)

/-- A zone is armed (R272). -/
def armZone (n : Lane) (w : Amap Word) (z : Nat) (s : State) : State :=
  let e := zoneWord w z 4
  if bitsOf e 8 1 = 0 ∨ histSrc s n = 0 then s.setZcapt z { s.zcapt z with st := 0, armed := true, lane := n }
  else
    let c := segCap s n w z
    let pre := bitsOf (zoneWord w z 5) 0 20
    let post := bitsOf (zoneWord w z 6) 0 24
    let pre1 := min pre (c - 1)
    let post1 := if bitsOf e 9 1 = 0 ∧ c < pre1 + post then c - pre1 else post
    let cl := pre1 != pre || post1 != post
    let s1 := (s.setZcapt z { s.zcapt z with st := 0, pre := pre1, post := post1, clamped := cl && c != 0, armed := true, lane := n })
    if c = 0 then s1.setSt Reg.ZONE_STATUS_CAP_ERR 1 else if cl then s1.bump Reg.CAPT_CLAMPED else s1

/-- The hold mask a segment opens with (R276). -/
def holdMask (s : State) (n : Lane) (z : Nat) (core host : Bool) : Nat :=
  let sel := s.streamsOf 0x08 fun x => x.lane == n.val && decide (x.first ≤ z ∧ (x.count = 0 ∨ z < x.first + x.count))
  bit (!sel.isEmpty) + 2 * bit core + 4 * bit host

/-- The first sample of a continuation under a throttle of its own (R278): the next one after the last taken. [DEDUCED: log 51] -/
def contNext (g : Seg) (logT : Nat) : Int :=
  let last := g.next - (2 ^ g.logT : Nat) - g.trigSample
  g.trigSample + (last / (2 ^ logT : Nat) + 1) * (2 ^ logT : Nat)

/-- A zone core copies from segment `i` (R309). -/
def copying (s : State) (i : Nat) : Bool := s.zc.any fun c => (c.2.copy.map (·.seg)) == some i

/-- Hold bits of a segment clear; while a copy from it runs, at the copy's end (R276, R309). -/
def releaseSeg (i bits : Nat) (s : State) : State :=
  let g := s.seg i
  if copying s i then s.setSeg i { g with owed := g.owed ||| bits } else s.setSeg i { g with hold := g.hold &&& (7 ^^^ bits) }

/-- One more sample goes into segment `i`, if the segment has room, the sample is taken and it is there (R270, R278). [DEDUCED: log 51] -/
def captSample (n : Lane) (i : Nat) (s : State) : State :=
  let g := s.seg i
  if g.st ≠ 1 ∨ g.end_ ≤ g.next ∨ g.cap ≤ g.held then s else
    let ring := s.capt.ring.get n
    let row := if 0 ≤ g.next then Amap.find g.next.toNat ring else none
    let put := fun (l : List Int) (fl : Nat) (g : Seg) (s : State) =>
      let at_ := histInst s n g.next
      let g1 := { g with
        next := g.next + 2 ^ g.logT, held := g.held + 1, flags := g.flags ||| fl
        pre := if g.next < g.trigSample then g.pre + 1 else g.pre
        firstInst := if g.held = 0 then at_.1 else g.firstInst
        firstTick := if g.held = 0 then at_.2 else g.firstTick
        lastTick := at_.2 }
      (memWrite (segAddr s i + 64 + g.held * segRow g) (valBytes g.width l) s).setSeg i g1
    match row with
    | some r =>
      if r.vals.length < g.first + g.count then s
      else
        let bad := poisoned s (histAddr s n g.next.toNat + g.first * g.width) (segRow g)
        if bad then put [] 8 g s else put ((r.vals.drop g.first).take g.count) (recFlags (rowFlags r g.first g.count)) g s
    | none =>
      let oldest := match ring with | (k, _) :: _ => (k : Int) | [] => g.next
      if oldest ≤ g.next then s
      else if g.next < g.trigSample then
        let s1 := s.when (g.short == 0) fun s => (s.bump Reg.CAPT_PRE_SHORT).raise 0x039 3
        put (List.replicate g.count 0) 0 { g with short := g.short + 1, sflags := g.sflags ||| 4 } s1
      else put (List.replicate g.count 0) 0 g s

/-- As many samples as there are, at most `k`. -/
def captSamples (n : Lane) (i : Nat) : Nat → State → State
  | 0, s => s
  | k + 1, s => captSamples n i k (captSample n i s)

/-- Segment `i` takes what the ring holds. [DEDUCED: log 51] -/
def captFill (n : Lane) (i : Nat) (s : State) : State :=
  let g := s.seg i
  captSamples n i (min (g.end_ - g.next).toNat (g.cap - g.held)) s

/-- Every open segment of a lane takes what the ring holds. -/
def captAdvance (n : Lane) (s : State) : State :=
  syncCapt (s.capt.segs.foldl (fun s e => if e.2.st = 1 ∧ e.2.lane = n.val then captFill n e.1 s else s) s)

/-- Open segment `i` for an event, or (`from_`) as a continuation of another (R271, R273, R276, R278). -/
def openSeg (i : Nat) (n : Lane) (w : Amap Word) (ev : Event) (from_ : Option (Nat × Seg)) (s : State) : State :=
  let z := ev.zone
  let zc := s.zcapt z
  let old := s.seg i
  let gen := (old.gen + 1) % 65536
  let id := gen * 65536 + i
  let pts := captPoints s n w z
  let b := histBytes s n
  let lt := s.st Reg.CAPT_STATUS_THROTTLE
  let g : Seg :=
    match from_ with
    | some (h, g0) => { g0 with
        st := 1, gen := gen, hold := holdMask s n z (g0.core != 127) g0.hostHold, cap := (2 ^ s.lv Reg.CAPT_SEG_SIZE - 64) / segRow g0
        held := 0, pre := 0, short := 0, nextId := 0xFFFFFFFF, headId := h, sflags := (g0.sflags &&& 1) ||| 8, cont := g0.cont + 1
        flags := 0, owed := 0, expired := false, logT := lt, next := contNext g0 lt }
    | none =>
      let st := trigSample s n ev.trig
      { st := 1, gen := gen, hold := holdMask s n z (bitsOf (zoneWord w z 4) 0 7 != 127) (bitsOf (zoneWord w z 4) 11 1 == 1), zone := z, lane := n, trig := ev.trig, eventSeq := ev.seq, trigSample := st
        next := st - (zc.pre / 2 ^ lt * 2 ^ lt : Nat), end_ := st + zc.post, cap := segCap s n w z
        period := histPeriod s n, headId := id, mask := ev.mask, primary := ev.primary
        chain := bitsOf (zoneWord w z 4) 9 1 == 1, core := bitsOf (zoneWord w z 4) 0 7, retrig := bitsOf (zoneWord w z 4) 10 1 == 1
        hostHold := bitsOf (zoneWord w z 4) 11 1 == 1, post := bitsOf (zoneWord w z 6) 0 24
        sflags := bit zc.clamped, logT := lt, src := histSrc s n, width := b, first := pts.1, count := pts.2 }
  let s1 := (s.setSeg i g).bump Reg.CAPT_SEGMENTS
  captFill n i (s1.setZcapt z { zc with st := 1, seg := i, head := g.headId })

/-- The SEGMENT record of a closed segment goes to the streams that select its zone (R280, R364). -/
def segRecord (i : Nat) (s : State) : State :=
  let g := s.seg i
  let a := segAddr s i + 64
  let len := g.held * segRow g
  let bad := poisoned s a len
  let per := max (s.lanePeriod (if g.lane = 0 then 0 else 1) * duPerNs) 1
  let body := (List.range len).map fun j => if poisoned s (a + j) 1 then 0 else memByte s.mem (a + j)
  let r : Rec := {
    product := 0x08, width := widthCode g.width, time := g.firstTick
    till := g.lastTick, firstPoint := BitVec.ofNat 32 (g.lane * 2 ^ 31 + g.first), pointCount := g.count
    frameCount := ((tDiff g.lastTick g.firstTick) / per).toNat + 1
    flags := g.flags ||| (if g.logT = 0 then 0 else 0x20) ||| (if bad then 8 else 0)
    seg := some (BitVec.ofNat 32 (segId i g)), lead := segHeader i g, body := body }
  (s.streamsOf 0x08 fun x => x.lane == g.lane && decide (x.first ≤ g.zone ∧ (x.count = 0 ∨ g.zone < x.first + x.count))).foldl
    (fun s x => addRecord x r s) s

/-- A job or a ready record still has to read the segment (R276). -/
def segWanted (s : State) (id : Nat) : Bool :=
  let has := fun (r : Ready) => r.rec_.seg == some (BitVec.ofNat 32 id)
  s.cmp.ready.any has || s.cmp.engines.any (fun e => (e.2.job.map fun j => has j.ready).getD false) ||
    s.cmp.slots.any fun e => (e.2.held.map fun j => has j.ready).getD false

/-- A closed segment whose hold mask is empty is free (R276), unless a zone core copies from it (R309). -/
def freeIfIdle (i : Nat) (s : State) : State :=
  let g := s.seg i
  if g.st = 2 ∧ g.hold = 0 ∧ !copying s i then s.setSeg i { g with st := 0 } else s

/-- DELIVER of closed segments clears once every engine that delivers them has read them (R276). -/
def syncDeliver (s : State) : State :=
  s.capt.segs.foldl (fun s e =>
    let g := s.seg e.1
    if g.st = 2 ∧ g.hold % 2 = 1 ∧ !segWanted s (segId e.1 g) then s.setSeg e.1 { g with hold := g.hold - 1 } else s) s

/-- Close a segment with further SFLAGS (R276): its header is written and its record is formed. -/
def closeSeg (i : Nat) (fl : Nat) (s : State) : State :=
  let g := { s.seg i with st := 2, sflags := (s.seg i).sflags ||| fl }
  let empty := g.hold == 0
  let s1 := segRecord i ((memWrite (segAddr s i) (segHeader i g) s).setSeg i g)
  syncCapt ((syncDeliver s1).when empty (freeIfIdle i))

/-- The event that opened a segment, as its continuations need it. -/
def segEvent (g : Seg) : Event :=
  { seq := g.eventSeq, zone := g.zone, lane := g.lane, trig := g.trig, decide := 0, mask := g.mask, primary := g.primary
    eflags := 0, fslot := 0, value := 0, width := 0, arg := 0, flags := 0 }

/-- The last sample of segment `i` has been written (R273, R276): it closes, after its continuation has opened where the
capture goes on. -/
def segDone (i : Nat) (s : State) : State :=
  let g := s.seg i
  let n : Lane := if g.lane = 0 then 0 else 1
  let w := (s.zone.use.get n).words
  let z := g.zone
  let rearm := fun (s : State) => s.setZcapt z { s.zcapt z with st := 2 }
  if g.end_ ≤ g.next then rearm (closeSeg i 0 s)
  else if !g.chain then rearm (closeSeg i 0 s)
  else match freeSeg s with
    | none => rearm (((closeSeg i 2 s).bump Reg.CAPT_TRUNCATED).raise 0x039 1)
    | some j =>
      let id := ((s.seg j).gen + 1) % 65536 * 65536 + j
      let s1 := closeSeg i 0 (s.setSeg i { g with nextId := id })
      syncCapt (openSeg j n w (segEvent g) (some (g.headId, g)) s1)

/-- SEGMENT_CLOSE (R276). -/
def execSegmentClose (i : Nat) (s : State) : Res :=
  let g := s.seg i
  .next (if g.st = 1 ∧ (g.end_ ≤ g.next ∨ g.cap ≤ g.held) then segDone i s else s)

/-- SEGMENT_FREE (R276). [DESIGN CHOICE: log 3] -/
def execSegmentFree (i : Nat) (s : State) : Res := .next (syncCapt (freeIfIdle i s))

/-- The holds of closed segment `i` expire (R276). -/
def expireHold (i : Nat) (s : State) : State :=
  let g := { s.seg i with hold := 0, sflags := (s.seg i).sflags ||| 0x40, expired := false }
  ((freeIfIdle i (memWrite (segAddr s i) (segHeader i g) (s.setSeg i g))).bump Reg.CAPT_HOLD_EXPIRED).raise 0x039 4

/-- HOLD_EXPIRED (R276, R309). -/
def execHoldExpired (i : Nat) (s : State) : Res :=
  let g := s.seg i
  .next (if g.st = 2 ∧ g.hold ≠ 0 ∧ s.lv Reg.CAPT_HOLD_TIMEOUT ≠ 0 then
    (if copying s i then s.setSeg i { g with expired := true } else syncCapt (expireHold i s))
  else s)

/-- No copy from segment `i` runs any more: what fell due meanwhile takes effect (R309). -/
def settleSeg (i : Nat) (s : State) : State :=
  if copying s i then s
  else
    let g := s.seg i
    let s1 := s.setSeg i { g with hold := g.hold &&& (7 ^^^ g.owed), owed := 0 }
    syncCapt (if g.expired ∧ g.hold &&& (7 ^^^ g.owed) ≠ 0 then expireHold i s1 else freeIfIdle i s1)

/-- CAPT_RELEASE (R276, R309). -/
def execCaptRelease (q : Requester) (w : Word) (s : State) : Res :=
  .next (s.shadowWrite q 0x039 fun s =>
    let i := w.toNat % 65536
    let g := s.seg i
    if g.st ≠ 0 ∧ segId i g = w.toNat then releaseSeg i 4 s
    else (s.bump Reg.CAPT_RELEASE_REJECTS).raise 0x039 5)

/-- THROTTLE (R277). -/
def execThrottle (s : State) : Res :=
  let b := s.st Reg.CAPT_BACKLOG
  let t := s.st Reg.CAPT_STATUS_THROTTLE
  let to_ := fun (v : Nat) => ((s.setSt Reg.CAPT_STATUS_THROTTLE v).bump Reg.CAPT_THROTTLE_STEPS).raise 0x039 2
  .next (if !s.on Reg.CAPT_THR_EN then s
    else if s.lv Reg.CAPT_THR_HI ≤ b ∧ t < s.lv Reg.CAPT_THR_MAX then to_ (t + 1)
    else if b < s.lv Reg.CAPT_THR_LO ∧ 0 < t then to_ (t - 1) else s)

/-- A lane stops, restarts or leaves RUN: its open segments close (R276), and its captures end. -/
def captStop (n : Lane) (s : State) : State :=
  let s1 := s.capt.segs.foldl (fun s e => if e.2.st = 1 ∧ e.2.lane = n.val then closeSeg e.1 0x22 s else s) s
  { s1 with capt := { s1.capt with zones := s1.capt.zones.filter fun e => e.2.lane ≠ n } }

/-- A lane starts: its history ring is empty (R269). -/
def startCapt (n : Lane) (s : State) : State :=
  syncCapt (({ s with capt := { s.capt with ring := s.capt.ring.set n [] } }).setSt (Reg.CAPT_Ln_HIST_DEPTH.ix n)
    (if histSrc s n = 0 then 0 else histDepth s n))

end Sys2Proof.Machine
end

