-- ==== Sys2Proof/Machine/Phz.lean ====
section
/-!
DEFINITION. The phase engine (chapter 7, R169 to R190), the corner turn's input (R191 to R193) and overruns (R38, R39).
-/

namespace Sys2Proof.Machine

def State.setPhz (n : Lane) (p : Phz) (s : State) : State := { s with phz := s.phz.set n p }
def State.setSlow (n : Lane) (p : Slow) (s : State) : State := { s with slow := s.slow.set n p }

/-! ### arithmetic -/

/-- The range −2²³ < x ≤ 2²³ of R175. -/
def wrap24 (x : Int) : Int := let u := x % 16777216; if u ≤ 8388608 then u else u - 16777216

/-- floor(log₂(a / b)) for positive numbers. -/
def log2Ratio (a b : Nat) : Int :=
  let d : Int := (a.log2 : Int) - b.log2
  let num := if d < 0 then a * 2 ^ d.natAbs else a
  let den := if d < 0 then b else b * 2 ^ d.natAbs
  if den ≤ num then d else d - 1

/-- round(2 · log₂(a / b)) for positive numbers. -/
def halfOctaves (a b : Nat) : Int := (log2Ratio (a ^ 4) (b ^ 4) + 1) / 2

/-- A amplitude state after an adjustment (R182). -/
def clampA (x : Int) : Nat := (max 0 (min 63 x)).toNat

/-- The differential phase in 2π/2²⁴ and the gauge amplitude of two gauge ends (R169). [DEDUCED: log 37; DESIGN CHOICE: log 108] -/
def gaugeOf (za zb : Int × Int) : Int × Nat :=
  let d := cMul zb (cConj za)
  (sx 24 (ux 24 (argTurns 0 24 d.1 d.2)), min (isqrt (cAbs2 za)) (isqrt (cAbs2 zb)))

/-- The log amplitude L (R169). [DEDUCED: log 37] -/
def logAmp (a : Nat) : Nat := if a = 0 then 0 else (a * a).log2

/-- Steps c to the offset that `x` in 2π/2²⁴ makes: round(x / 2¹⁴) mod 1024. -/
def chainOf (x : Int) : Nat := (divRound x 16384 % 1024).toNat

/-! ### a valid shot -/

/-- The key of a pair. -/
def pairKey (k p : Nat) : Nat := k * 2 ^ 20 + p

/-- The state word of a pair. [DEDUCED: log 37] -/
def phzPair (m : Amap PhzPair) (k p : Nat) : PhzPair := Amap.get m (pairKey k p) {}

/-- The reference step of a shot (R180): the new table, ρ, and whether the reference is weak. [DESIGN CHOICE: log 108] -/
def refStep (c : RegFile) (n : Lane) (k : Nat) (g : GaugeShot) (tab : Amap Nat) : Amap Nat × Int × Bool :=
  let gl := gaugeLen c n
  let lim : Int := RegFile.get c (Reg.PHZn_UNWRAP_LIMIT.pg n) * 32768
  let gs := (List.range (g.nref - gl)).map fun r => (r, gaugeOf (g.vals.getD r (0, 0)) (g.vals.getD (r + gl) (0, 0)))
  let steps := gs.filterMap fun e =>
    (Amap.find (k * 1024 + e.1) tab).map fun prev => (wrap24 (e.2.1 - sx 24 prev), e.2.2)
  let ok := steps.filter fun e => e.1.natAbs ≤ lim
  let tab1 := gs.foldl (fun m e => Amap.put (k * 1024 + e.1) (ux 24 e.2.1) m) tab
  if steps.isEmpty then (tab1, 0, false)
  else if ok.isEmpty || (ok.foldl (fun a e => a + e.2) 0) < RegFile.get c (Reg.PHZn_REF_MIN.pg n) then (tab1, 0, true)
  else
    let v := ok.foldl (fun (acc : Int × Int) e =>
      let cs := cosSinTurn e.1 16777216
      (acc.1 + (e.2 * e.2 : Nat) * cs.1, acc.2 + (e.2 * e.2 : Nat) * cs.2)) (0, 0)
    (tab1, argTurns 1 24 v.1 v.2, false)

/-- What the points of a shot share. -/
structure ShotCtx where
  cfg : RegFile
  lane : Lane
  slot : Nat
  rate : Bool
  racc : Int
  gain : Nat
  wide : Bool
  /-- The slot that holds the series-previous sample, if there is one. -/
  prev : Option Nat
  /-- The slots of samples j − 1 and j − 2, where the chain alignment may step (R179). -/
  align : Option (Nat × Nat)
  /-- This shot counts 2^ATAU of its slot. -/
  track : Bool
  settle : Bool
  weak : Bool

/-- A strain-rate value (R184) and whether it saturated. [DEDUCED: log 11] -/
def strainRate (wide : Bool) (gain : Nat) (d : Int) : Int × Bool :=
  let r := divRound (d * gain) 4294967296
  let v := max (-8388607) (min 8388607 r)
  if wide then (v, r != v)
  else
    let w := divRound v 256
    let u := max (-32767) (min 32767 w)
    (u, r != v || w != u)

/-- One point of a valid shot (R175 to R184): the state word before (`none` where it was lost), whether the pair restarts,
the seam constants, and the gauge. [DEDUCED: log 39] -/
def phzPoint (x : ShotCtx) (m : Amap PhzPair) (p : Nat) (lost : Option PhzPair) (restart : Bool)
    (seam : Option (Int × Int × Int)) (seamMark : Bool) (ph : Int) (a : Nat) : PhzPair × Int × Bool :=
  let w := lost.getD (phzPair m x.slot p)
  let v : Int := match x.prev with
    | none => if lost.isSome then w.phi else 0
    | some k => if k = x.slot then w.phi else (phzPair m k p).phi
  let base := ph - x.racc
  let w1 : PhzPair :=
    if restart then { w with c := chainOf (sx 40 (ux 40 (base - v))) }
    else match seam with
      | some (gb, ga, j) => { w with
          c := (((w.c : Int) + divRound j 64) % 1024).toNat
          amp := if 0 < gb ∧ 0 < ga then clampA (w.amp + halfOctaves gb.toNat ga.toNat) else w.amp }
      | none => w
  let d := wrap24 (base - (w1.c : Int) * 16384 - v)
  let slip := restart || RegFile.get x.cfg (Reg.PHZn_UNWRAP_LIMIT.pg x.lane) * 32768 < d.natAbs
  let l := logAmp a
  let fade := w1.amp - l
  let amp1 := if x.track then (if w1.amp < l then min 63 (w1.amp + 1) else if l < w1.amp then w1.amp - 1 else w1.amp) else w1.amp
  let sr := strainRate x.wide x.gain d
  let deep := RegFile.get x.cfg (Reg.PHZn_AMP_CFG_FADE_DEPTH.pg x.lane)
  let qual := min (a / 16) 65535 + fade * 2 ^ 16 + amp1 * 2 ^ 22 + bit slip * 2 ^ 28 + bit restart * 2 ^ 29 +
    bit seamMark * 2 ^ 30 + bit (decide (deep ≤ fade)) * 2 ^ 32 + bit x.settle * 2 ^ 33 + bit x.weak * 2 ^ 34
  ({ w1 with phi := ux 40 (v + d), amp := amp1, fade := fade, restarted := restart, qual := qual, rate := sr.1 }, d, sr.2)

/-- The chain alignment of R179 at one point: the map with the offset of sample j − 1's slot stepped, and whether it was.
`before` is the map before sample j. [DEDUCED: log 39] -/
def alignPoint (x : ShotCtx) (before m : Amap PhzPair) (p : Nat) (cur : PhzPair) (d : Int) : Amap PhzPair × Bool :=
  match x.align with
  | none => (m, false)
  | some (k1, k2) =>
    let w1 := phzPair before k1 p
    let w2 := phzPair before k2 p
    let deep := RegFile.get x.cfg (Reg.PHZn_AMP_CFG_FADE_DEPTH.pg x.lane)
    let th : Int := RegFile.get x.cfg (Reg.PHZn_ALIGN_CFG_THRESH.pg x.lane) * 8192
    let e := d - sx 40 (ux 40 ((w1.phi : Int) - w2.phi))
    if cur.restarted || w1.restarted || w2.restarted || decide (deep ≤ cur.fade ∨ deep ≤ w1.fade ∨ deep ≤ w2.fade) then (m, false)
    else
      let now := phzPair m k1 p
      if e ≤ -th then (Amap.put (pairKey k1 p) { now with c := (now.c + 1) % 1024 } m, true)
      else if th ≤ e then (Amap.put (pairKey k1 p) { now with c := (now.c + 1023) % 1024 } m, true)
      else (m, false)

/-- The adjustments of A that wait for a slot's next shot from lane frame `f` on (R182). -/
def applyChanges (k f total : Nat) (p : Phz) : Phz :=
  let ds := (p.changes.filter fun e => e.slot = k ∧ e.from_ ≤ f).flatMap (·.deltas)
  { p with
    changes := p.changes.map fun e => if e.slot = k ∧ e.from_ ≤ f then { e with deltas := [] } else e
    pairs := if ds.isEmpty then p.pairs else (List.range total).foldl (fun m q =>
      let w := phzPair m k q
      Amap.put (pairKey k q) { w with amp := ds.foldl (fun a d => clampA (a + d)) w.amp } m) p.pairs }

/-- A slot's samples of lane frame `f` are settling (R182). [DEDUCED: log 23] -/
def settling (p : Phz) (k f : Nat) : Bool := p.changes.any fun e => e.slot == k && decide (e.from_ ≤ f ∧ f < e.from_ + e.frames)

/-! ### products and the corner turn -/

/-- H, the overlap (R208). -/
def slowOverlap (c : RegFile) (n : Lane) : Nat :=
  let rc := RegFile.get c (Reg.SLOWn_CIC_RATIO.pg n)
  let cic := if rc ≤ 1 then 1 else RegFile.get c (Reg.SLOWn_CIC_ORDER.pg n) * (rc - 1) + 1
  (RegFile.get c (Reg.SLOWn_FIR_CFG_TAPS.pg n) - 1) * rc + cic - 1 +
    (if RegFile.get c (Reg.SLOWn_RS_CFG_EN.pg n) = 0 then 0 else 7 * slowDec c n)

/-- Samples of a block (R192), samples of the corner-turn area and its size (R193). -/
def blockLen (c : RegFile) (n : Lane) : Nat := RegFile.get c (Reg.SLOWn_CT_FRAMES.pg n) * kPhz c n
def ctSamples (c : RegFile) (n : Lane) : Nat := 2 * blockLen c n + slowOverlap c n + 4 * kPhz c n
def ctRow (c : RegFile) (n : Lane) : Nat := points c n * rateBytes c n + 2 * ((points c n + 255) / 256)
def ctArea (c : RegFile) (n : Lane) : Nat := ctSamples c n * ctRow c n

/-- Where series sample `j` of a lane stands in the corner-turn region (R354; its order inside the area is the model's). [DEDUCED: log 40] -/
def ctAddr (s : State) (n : Lane) (j : Nat) : Nat :=
  let l0 := if usesSlow s.live 0 then (ctArea s.live 0 + 4095) / 4096 * 4096 else 0
  (regionBytes s 0).1 + (if n = 0 then 0 else l0) + j % max (ctSamples s.live n) 1 * ctRow s.live n

/-- The first series sample that SLOW may still read. [DEDUCED: log 40] -/
def ctUnread (s : State) (n : Lane) : Int :=
  let c := s.live
  (((s.slow.get n).parts / max (RegFile.get c (Reg.SLOWn_CT_FRAMES.pg n)) 1 * blockLen c n : Nat) : Int) - slowOverlap c n

/-- A discarded slot shot is counted (R38). -/
def countOverrun (n : Lane) (k count block times : Nat) (s : State) : State :=
  (((((s.bumpBy Reg.MERID_OVERRUN times).setSt Reg.MERID_OVERRUN_LAST_FRAME count).setSt Reg.MERID_OVERRUN_LAST_SLOT k).setSt
    Reg.MERID_OVERRUN_LAST_LANE n.val).setSt Reg.MERID_OVERRUN_LAST_BLOCK block).raise 0x011 0

/-- PHZ writes a series sample into the corner turn (R191); if it would overwrite samples that SLOW has not read, the
frame is discarded there (R39, R193). [DEDUCED: log 40] -/
def ctWrite (n : Lane) (x : Shot) (row : Row) (s : State) : State :=
  let c := s.live
  let k := kPhz c n
  let j := x.frame * k + (if k = 1 then 0 else x.slot)
  let sl := s.slow.get n
  let late := (sl.skip == some x.frame) || decide (ctUnread s n ≤ (j : Int) - ctSamples c n)
  let last := (Amap.find (j - 1) sl.ct).elim [] (·.vals)
  let row1 := if late then { row with vals := last, flags := row.flags.map fun e => (e.1, e.2 ||| 8) } else row
  let ct := Amap.drop (fun i => decide (i + ctSamples c n ≤ j ∧ (i : Int) < ctUnread s n)) (Amap.put j row1 sl.ct)
  let s1 := s.setSlow n { sl with ct := ct, next := j + 1, skip := if late then some x.frame else sl.skip }
  if late then countOverrun n x.slot x.count (4 + n) (if cfgDas x.cfg n = 2 then (slotsOf x.cfg n).length else 1) s1
  else memWrite (ctAddr s n j) (valBytes (rateBytes c n) row.vals ++ row.flags.flatMap fun e => leBytes 2 e.2) s1

/-- The products of a slot shot (R186 to R188), its corner-turn sample and its history sample. `outs` are the points'
values, `fl` the flags of a range, `tile` the flags of R191 of each tile. [DEDUCED: log 39] -/
def phzOut (n : Lane) (x : Shot) (outs : List PhzPair) (fl : Nat → Nat → Nat) (tile : Nat → Nat) (s : State) : State :=
  let c := x.cfg
  let p := points c n
  let till := shotTill s n x
  let b := rateBytes c n
  let last := lastOfFrame c n x.slot
  let part := fun (a m : Nat) => (outs.drop a).take m
  let s1 := addFrame 0x03 4 n x.tick till p last (fun a m => (part a m).flatMap fun o => leBytes 5 o.phi) fl s
  let s2 := addFrame 0x04 (widthCode b) n x.tick till p last (fun a m => valBytes b ((part a m).map (·.rate))) fl s1
  let s3 := if x.frame % 2 ^ RegFile.get c (Reg.PHZn_QUAL_CFG_QUAL_DEC.pg n) = 0 then
      addFrame 0x0E 4 n x.tick till p last (fun a m => (part a m).flatMap fun o => leBytes 5 o.qual) fl s2
    else s2
  if !usesSlow c n then s3 else
    let k := kPhz c n
    let inst := x.tick + nsT (slotOffset (cfgDas c n) (s.lanePeriod n) x.slot k)
    let cause := laneFlags s n x.at_ till &&& 0x183
    let row : Row := { inst := inst, tick := x.tick, frame := x.frame, vals := outs.map (·.rate)
                       flags := (List.range ((p + 255) / 256)).map fun t => (t, tile t ||| cause) }
    let s4 := ctWrite n x row s3
    if histSrc s4 n = 2 then captAdvance n (histPut n (x.frame * k + (if k = 1 then 0 else x.slot)) row 0 row.vals s4) else s4

/-- Two seams of a slot in a row make one. -/
def joinSeams (a b : List (Int × Int × Int)) : List (Int × Int × Int) :=
  if a.isEmpty then b else if b.isEmpty then a else List.zipWith (fun x y => (x.1 * y.1, x.2.1 * y.2.1, x.2.2 + y.2.2)) a b

/-- A lost state word (R15). [DEDUCED: log 37] -/
def lostPair (s : State) (q : Nat) : PhzPair :=
  let w := Config.lostWord (s.free + q)
  { phi := w.toNat / 65536, amp := w.toNat / 1024 % 64, c := w.toNat % 1024 }

/-- The points of a slot shot whose pairs restart for a combiner that was initialised afresh at either end of the gauge (R177). -/
def lostGauges (g : GaugeShot) (gl total : Nat) : List Nat :=
  (List.range total).filter fun q => g.lost.contains (g.nref + q) || g.lost.contains (g.nref + q + gl)

/-- A QUALITY word that repeats a sample (R38, R185, R188): the bits describe the frame, and FADED the repeated fading index. [DEDUCED: log 39] -/
def heldQual (w deep : Nat) (settle withheld : Bool) : Nat :=
  w % 2 ^ 28 + 2 ^ 31 + bit (decide (deep ≤ w / 2 ^ 16 % 64)) * 2 ^ 32 + bit settle * 2 ^ 33 + bit withheld * 2 ^ 35

/-- A discarded, dark or withheld shot: every sample repeats the point's last valid value (R38, R111, R185). Pairs that its errors, or its
combiner, restart do so at their next valid sample, and its seam goes to the next valid shot (R177, R178). [DEDUCED: log 39] -/
def phzHold (n : Lane) (g : GaugeShot) (ue : List Nat) (s : State) : State :=
  let x := g.shot
  let p := s.phz.get n
  let c := x.cfg
  let total := points c n
  let run := Amap.get p.gaps x.slot 0 + 1
  let gap := RegFile.get c (Reg.PHZn_UNWRAP_GAP.pg n)
  let due := if x.dark || (x.withheld && decide (gap < run)) then (if p.due.contains x.slot then p.due else x.slot :: p.due) else p.due
  let bad := ue.filter (· < total)
  let own := (bad ++ lostGauges g (gaugeLen c n) total).map (pairKey x.slot)
  let p1 := { p with
    due := due, gaps := Amap.put x.slot (if x.withheld then run else 0) p.gaps
    hist := ((x.slot, false) :: p.hist).take 2
    pairs := bad.foldl (fun m q => Amap.put (pairKey x.slot q) (lostPair s q) m) p.pairs
    duePts := p.duePts ++ own.filter (fun k => !p.duePts.contains k)
    seams := if g.seam.isEmpty then p.seams else Amap.put x.slot (joinSeams (Amap.get p.seams x.slot []) g.seam) p.seams }
  let st := settling p x.slot x.frame
  let deep := RegFile.get c (Reg.PHZn_AMP_CFG_FADE_DEPTH.pg n)
  let outs := (List.range total).map fun q =>
    let w : PhzPair := match p.last with
      | none => {}
      | some (k, _) => phzPair p1.pairs k q
    { w with qual := if p.last.isNone then heldQual 0 64 st x.withheld else heldQual w.qual deep st x.withheld }
  let s1 := ({ s with free := s.free + total }.setPhz n p1).bumpBy Reg.SYS_SRAM_UE bad.length
  phzOut n x outs (fun _ _ => 8 + bit st * 16) (fun _ => 8 + bit st * 16 + bit x.withheld * 0x400)
    (s1.when (!bad.isEmpty) (State.raise 0x010 7))

/-- J and the gains of a seam at point `p` (R178), where the shot meets a clean range change. [DEDUCED: log 38] -/
def seamAt (g : GaugeShot) (gl p : Nat) : Option (Int × Int × Int) :=
  if g.seam.isEmpty then none else
    let a := g.seam.getD (g.nref + p) (0, 0, 0)
    let b := g.seam.getD (g.nref + p + gl) (0, 0, 0)
    some (a.1, a.2.1, b.2.2 - a.2.2)

/-- A point of the shot carries RANGE_SEAM (R178). [DEDUCED: log 38] -/
def seamMark (g : GaugeShot) (p : Nat) : Bool :=
  !g.seam.isEmpty || match g.seamPts with | some (f, l) => decide (f ≤ p ∧ p ≤ l) | none => false

/-- A valid shot (R175). -/
def phzValid (n : Lane) (g0 : GaugeShot) (ue : List Nat) (s : State) : State :=
  let x := g0.shot
  let c := x.cfg
  let k := x.slot
  let g := { g0 with seam := joinSeams (Amap.get (s.phz.get n).seams k []) g0.seam }
  let rate := cfgDas c n == 1 && decide (2 ≤ kPhz c n)
  let gl := gaugeLen c n
  let p0 := applyChanges k x.frame (points c n) (s.phz.get n)
  let fresh := lostGauges g gl (points c n)
  let slotDue := p0.due.contains k || x.lightBack
  let tab0 := if slotDue then Amap.drop (fun i => i / 1024 == k) p0.refs else p0.refs
  let en := RegFile.get c (Reg.PHZn_REF_CFG_EN.pg n) != 0
  let rs := if en then refStep c n k g tab0 else (tab0, 0, false)
  let acc := if en then ux 40 ((Amap.get p0.acc k 0 : Nat) + rs.2.1) else 0
  let cnt := Amap.get p0.shots k 0 + 1
  let align := if rate && RegFile.get c (Reg.PHZn_ALIGN_CFG_EN.pg n) != 0 &&
      x.frame % 2 ^ RegFile.get c (Reg.PHZn_ALIGN_CFG_CTAU.pg n) == 0 then
      match p0.hist with
      | [(k1, true), (k2, true)] => some (k1, k2)
      | _ => none
    else none
  let ctx : ShotCtx := {
    cfg := c, lane := n, slot := k, rate := rate, racc := acc, gain := s.st (Reg.PHZn_SR_GAIN.pg n)
    wide := RegFile.get c (Reg.PHZn_SR_CFG_WIDTH.pg n) == 0
    prev := if rate then p0.last.map (·.1) else p0.last.map fun _ => k
    align := align, track := cnt % 2 ^ RegFile.get c (Reg.PHZn_AMP_CFG_ATAU.pg n) == 0
    settle := settling p0 k x.frame, weak := rs.2.2 }
  let r := (List.range (points c n)).foldl (fun (a : Amap PhzPair × List PhzPair × Nat × Nat × Nat) p =>
    let bad := ue.contains p
    let own := bad || fresh.contains p || p0.duePts.contains (pairKey k p)
    let lost : Option PhzPair := if bad then some (lostPair s p) else none
    let gg := gaugeOf (g.vals.getD (g.nref + p) (0, 0)) (g.vals.getD (g.nref + p + gl) (0, 0))
    let res := phzPoint ctx a.1 p lost (slotDue || own) (seamAt g gl p) (seamMark g p) gg.1 gg.2
    let al := alignPoint ctx a.1 (Amap.put (pairKey k p) res.1 a.1) p res.1 res.2.1
    (al.1, a.2.1 ++ [res.1], a.2.2.1 + bit al.2, a.2.2.2.1 + bit res.2.2, a.2.2.2.2 + bit own)) (p0.pairs, [], 0, 0, 0)
  let outs := r.2.1
  let slip := fun (o : PhzPair) => o.qual / 2 ^ 28 % 2 == 1
  let slips := (outs.filter slip).length
  let restarts := (outs.filter (·.restarted)).length
  let p1 := { p0 with
    pairs := r.1, last := some (k, x.frame), hist := ((k, true) :: p0.hist).take 2, acc := Amap.put k acc p0.acc
    rho := Amap.put k rs.2.1 p0.rho, refs := rs.1, shots := Amap.put k cnt p0.shots, due := p0.due.filter (· != k)
    duePts := p0.duePts.filter (fun e => e / 2 ^ 20 != k), seams := Amap.del p0.seams k
    gaps := Amap.put k 0 p0.gaps
    slipFrame := if slips = 0 then p0.slipFrame else some x.frame
    satFrame := if r.2.2.2.1 = 0 then p0.satFrame else some x.frame }
  let s1 := { s with free := s.free + points c n }.setPhz n p1
  let s2 := (((s1.bumpBy (Reg.PHZn_SLIPS.pg n) slips).bumpBy (Reg.PHZn_RESTARTS.pg n) restarts).bumpBy
    (Reg.PHZn_ALIGN_STEPS.pg n) r.2.2.1).bumpBy (Reg.PHZn_SR_SAT.pg n) r.2.2.2.1
  let s3 := ((s2.raiseIf (slips != 0 && p0.slipFrame != some x.frame) (0x02A + n) 0).raiseIf
    (r.2.2.2.1 != 0 && p0.satFrame != some x.frame) (0x02A + n) 2).raiseIf (r.2.2.2.2 != 0) (0x02A + n) 3
  let bad := (ue.filter (· < points c n)).length
  let s4 := ((s3.when rs.2.2 fun s => (s.bump (Reg.PHZn_REF_WEAK.pg n)).raise (0x02A + n) 1).bumpBy Reg.SYS_SRAM_UE bad).raiseIf (bad != 0) 0x010 7
  let settle := bit ctx.settle * 16
  let fl := fun (a m : Nat) => shotFlags g a m + settle + bit (((outs.drop a).take m).any slip) * 0x200
  phzOut n x outs fl (fun t => settle + bit ((List.range 256).any fun i => seamMark g (t * 256 + i)) * 4 +
    bit (((outs.drop (t * 256)).take 256).any slip) * 0x200) s4

/-- The lane's slot shot that PHZ takes next: the earliest launched of those that SHOT has finished, once SHOT has none that was launched before it
(R172). -/
def phzNext (s : State) (n : Lane) : Option GaugeShot :=
  let first := (s.shotp.get n).gauges.foldl (fun (b : Option GaugeShot) g =>
    match b with | none => some g | some h => if tBefore g.shot.at_ h.shot.at_ then some g else some h) none
  first.filter fun g => !(s.shots.get n).shots.any fun x => tBefore x.at_ g.shot.at_

/-- PHZ takes a slot shot (R175), whose COMPLEX values are then final (R38). -/
def phzTake (n : Lane) (g : GaugeShot) (stateUe : List Nat) (s : State) : State :=
  let s1 := complexOut n g s
  let s2 := if g.shot.dark || g.shot.hole then phzHold n g stateUe s1 else phzValid n g stateUe s1
  s2.when (lastOfFrame g.shot.cfg n g.shot.slot) (frameDone (2 + n))

/-- PHZ_PROCESS (R172, R175): PHZ takes the gauge values of the lane's next shot, where it is one of slot `k`. An uncorrectable error discards it
(R15). [DESIGN CHOICE: log 3] -/
def execPhzProcess (n : Lane) (k : Slot) (stateUe : List Nat) (s0 : State) (e : Sram := ⟨0, false⟩) : Res :=
  let s := sramMet e s0
  .next (match phzNext s n with
    | none => s
    | some g =>
      if g.shot.slot ≠ k.val then s
      else
        let p := s.shotp.get n
        phzTake n { g with shot := { g.shot with hole := g.shot.hole || e.lost } } stateUe (s.setShotp n { p with gauges := p.gauges.erase g }))

/-- OVERRUN (R38): the slot shot is discarded whole, in DIVERSITY with every slot shot of its gate pulse. -/
def execOverrun (n : Lane) (k : Slot) (b : LateBlock) (s : State) : Res :=
  .next (match b with
    | .shot =>
      match oldestShot s n k with
      | none => s
      | some x =>
        if s.mode = 5 then
          let l := s.shots.get n
          countOverrun n k x.count n 1 { s with
            shots := s.shots.set n { l with shots := l.shots.map fun y => if y = x then { y with hole := true } else y } }
        else budgetUsed n 0xFFFF (countOverrun n k x.count n (pulseMates s n x).length (shotHole n x s))
    | .phz =>
      let p := s.shotp.get n
      match p.gauges.find? fun g => g.shot.slot == k.val with
      | none => s
      | some g =>
        let times := if cfgDas g.shot.cfg n = 2 then (slotsOf g.shot.cfg n).length else 1
        budgetUsed (2 + n) 0xFFFF (countOverrun n k g.shot.count (2 + n) times (s.setShotp n { p with
          gauges := p.gauges.map fun h => if h = g then { g with shot := { g.shot with hole := true } } else h })))

/-! ### lane start, ticks and commits -/

/-- PHZn_STRAIN_K and SR_GAIN before saturation (R183): n · L_g is G · S · c / (2 f_s). -/
def phzGains (s : State) (n : Lane) : Nat × Nat :=
  let c := s.live
  let w := RegFile.get c (Reg.PHZn_WAVELENGTH.pg n)
  let den := gaugeLen c n * spacing c n * lightSpeed * RegFile.get c (Reg.PHZn_XI.pg n)
  let b := slotBw c n 0
  let dn := den * s.lanePeriod n * RegFile.get c (Reg.PHZn_SR_CFG_SCALE.pg n)
  ((divRound (2 ^ 160 * w * b * 25 : Nat) (max (40000000 * fxPi * den) 1)).toNat,
   (divRound (2 ^ 23 * w * b * kPhz c n * 2500000000000000 : Nat) (max dn 1)).toNat)

/-- The lane's RESTART fields take effect in PHZ (R174, R177, R180, R183). [DEDUCED: log 37] -/
def startPhz (n : Lane) (s : State) : State :=
  let p := s.phz.get n
  let g := phzGains s n
  let p1 : Phz := { pairs := p.pairs.map fun e => (e.1, { e.2 with phi := 0 }), due := List.range 8 }
  ((((s.setPhz n p1).setSt (Reg.PHZn_STRAIN_K.pg n) (min g.1 (2 ^ 32 - 1))).setSt (Reg.PHZn_SR_GAIN.pg n) (min g.2 (2 ^ 32 - 1))).setSt
    (Reg.PHZn_STATUS_SR_GAIN_SAT.pg n) (bit (2 ^ 32 ≤ g.2))).setSt (Reg.PHZn_STATUS_SETTLING.pg n) 0

/-- The COMMIT fields of a slot (R113, R182). -/
def slotCommitFields (n : Lane) (k : Nat) : List Fld :=
  [Reg.SYNn_SLOTk_CFG_TAPER, Reg.SYNn_SLOTk_CFG_EDGE, Reg.SYNn_SLOTk_AMP, Reg.SYNn_SLOTk_PHASE, Reg.SHOTn_SLOTk_MF_CSHIFT].map
    fun f => slotF f n k

/-- The COMMIT fields of the lane's SYN page that every slot shares. -/
def synCommitFields (n : Lane) : List Fld :=
  [Reg.SYNn_GATE_AMP, Reg.SYNn_GATE_TIME_LEAD, Reg.SYNn_GATE_TIME_TAIL, Reg.SYNn_BIAS_I_TRIM, Reg.SYNn_BIAS_Q_TRIM].map (·.pg n)

/-- The adjustments of A that a change of AMP and of C make (R182). -/
def ampDeltas (n : Lane) (old new : RegFile) (mode k : Nat) : List Int :=
  let f := slotF Reg.SYNn_SLOTk_AMP n k
  let a := RegFile.get old f
  let b := RegFile.get new f
  let dc := (shiftOf new mode n k : Int) - shiftOf old mode n k
  (if a = b ∨ a = 0 ∨ b = 0 then [] else [halfOctaves b a]) ++ (if dc = 0 then [] else [-2 * dc])

/-- Constellation changes from lane frame `f` on (R182), given the configurations before and after a commit. -/
def constChange (n : Lane) (f : Nat) (old new : RegFile) (s : State) : State :=
  let mode := cfgDas new n
  let differs := fun (l : List Fld) => l.any fun x => RegFile.get old x != RegFile.get new x
  let slots := (slotsOf new n).filter fun k => differs (slotCommitFields n k) || differs (synCommitFields n)
  let frames := RegFile.get new (Reg.PHZn_CHG_CFG_FRAMES.pg n)
  let p := s.phz.get n
  if slots.isEmpty ∨ s.laneState n ≠ 2 then s
  else
    let l : List ConstChange :=
      if mode = 2 then
        let all := slotsOf new n
        let amp := fun (c : RegFile) (k : Nat) => RegFile.get c (slotF Reg.SYNn_SLOTk_AMP n k)
        let k0 := all.headD 0
        let sameRatio := all.all fun k => amp new k * amp old k0 == amp old k * amp new k0
        let dc := fun (k : Nat) => (shiftOf new mode n k : Int) - shiftOf old mode n k
        let sameC := all.all fun k => dc k == dc k0
        let da := if sameRatio ∧ amp old k0 ≠ 0 ∧ amp new k0 ≠ 0 ∧ amp old k0 ≠ amp new k0 then
          [halfOctaves (amp new k0) (amp old k0)] else []
        [{ slot := 0, from_ := f, frames := frames, deltas := da ++ (if sameC ∧ dc k0 ≠ 0 then [-2 * dc k0] else []) }]
      else slots.map fun k => { slot := k, from_ := f, frames := frames, deltas := ampDeltas n old new mode k }
    s.setPhz n { p with changes := p.changes ++ l }

/-- PHZn_STATUS.SETTLING at the lane's tick of frame `f`; changes that are over and done are dropped. [DEDUCED: log 23] -/
def tickPhz (n : Lane) (f : Nat) (s : State) : State :=
  let p := s.phz.get n
  let keep := p.changes.filter fun e => decide (f < e.from_ + e.frames + 8) || !e.deltas.isEmpty
  (s.setPhz n { p with changes := keep }).setSt (Reg.PHZn_STATUS_SETTLING.pg n)
    (bit (keep.any fun e => decide (e.from_ ≤ f ∧ f < e.from_ + e.frames)))

end Sys2Proof.Machine
end

