-- ==== Sys2Proof/Machine/Icu.lean ====
section
/-!
DEFINITION. The interrupt controller (chapter 17, R438 to R452).
-/

namespace Sys2Proof.Machine

def State.tgt (s : State) (t : Nat) : IcuTarget := Amap.get s.icu.targets t {}
def State.setTgt (t : Nat) (x : IcuTarget) (s : State) : State :=
  { s with icu := { s.icu with targets := Amap.put t x s.icu.targets } }
def State.core (s : State) (n : Nat) : ZCore := Amap.get s.zc n {}
def State.setCore (n : Nat) (c : ZCore) (s : State) : State := { s with zc := Amap.put n c s.zc }

/-- The state of a zone core (R313): 0 RESET, 1 RUN, 2 WAIT, 3 HALTED, 4 FAULTED, 5 GATED. -/
def State.coreState (s : State) (n : Nat) : Nat := s.st (Reg.ZCn_STATUS_STATE.pg n)

/-- A target is online (R450). -/
def icuOnline (s : State) (t : Nat) : Bool :=
  if t = 0 then s.stOn Reg.SYS_STEWARD_LOAD_S0_UP else if t = 1 then s.stOn Reg.SYS_STEWARD_LOAD_S1_UP
  else decide (t < 66) && (s.coreState (t - 2) == 1 || s.coreState (t - 2) == 2)

/-! ### sources -/

/-- Route, fallback and priority of a shared source (R442, R468). -/
def srcCfg (s : State) (i : Nat) : Nat := Amap.get s.icu.cfg i (2 ^ 8)
def srcRoute (s : State) (i : Nat) : Nat := srcCfg s i % 128
def srcFallback (s : State) (i : Nat) : Nat := srcCfg s i / 2 ^ 8 % 128
def srcPrio (s : State) (i : Nat) : Nat := srcCfg s i / 2 ^ 16 % 16

/-- The input of a page source: PAGE_IRQ_STATUS and PAGE_IRQ_ENABLE of the page (R439). -/
def pageAsserted (s : State) (p : Nat) : Bool := s.st (irqStatus p) &&& s.lv (irqEnable p) != 0

/-- The input of a shared source (R439): level sources from their page, edge sources while they are pending. -/
def srcAsserted (s : State) (i : Nat) : Bool :=
  if i < 0x100 then pageAsserted s i else Amap.get s.icu.edges i false

/-- The target that has claimed a value, if one has. -/
def claimer (s : State) (v : Nat) : Option Nat := (s.icu.targets.find? fun e => e.2.stack.any fun x => x.1 == v).map (·.1)

/-- A shared source is pending and unclaimed (R446, R448). -/
def srcPending (s : State) (i : Nat) : Bool := srcAsserted s i && (claimer s i).isNone

/-- The target at which a shared source is delivered (R449, R451). -/
def srcAt (s : State) (i : Nat) : Nat := Amap.get s.icu.stranded i (srcRoute s i)

/-- The pending private sources of a target (R440): a zone core's event queue and feature ring are levels. -/
def privPending (s : State) (t : Nat) : Nat :=
  let e := (s.tgt t).edges
  let lv := if t < 2 then 0 else
    let c := s.core (t - 2)
    bit (!c.evq.isEmpty) + 4 * bit (c.fringWr != c.fringRd)
  let claimed := (List.range 32).foldl (fun m p => if (s.tgt t).stack.any (fun x => x.1 == 0x400 + p) then m ||| 2 ^ p else m) 0
  (e ||| lv) &&& (0xFFFFFFFF ^^^ claimed)

/-- Priority of private source `p` of target `t` (R442). -/
def privPrio (s : State) (t p : Nat) : Nat :=
  s.lv ((Reg.ICUTt_PRIV_PRIOj.pg t).ix (p / 8)) / 2 ^ (4 * (p % 8)) % 16

/-! ### delivery, claim and completion -/

/-- Target `t`'s level (R443). -/
def icuLevel (s : State) (t : Nat) : Nat := max (s.lv (Reg.ICUTt_THRESH.pg t)) (((s.tgt t).stack.head?.map (·.2)).getD 0)

/-- The shared sources that may be pending: pages with an interrupt bit set, and pending edges. -/
def sharedCandidates (s : State) : List Nat :=
  (s.status.filterMap fun e =>
    if e.1 / 32 % 4096 = 0x010 ∧ e.1 / 131072 < 0x100 ∧ e.2 ≠ 0 then some (e.1 / 131072) else none) ++
  s.icu.edges.map (·.1)

/-- The sources deliverable to `t`, private before shared, lower numbers first, with their priorities (R442, R443). -/
def deliverable (s : State) (t : Nat) : List (Nat × Nat) :=
  let lev := icuLevel s t
  let pend := privPending s t &&& s.lv (Reg.ICUTt_PRIV_EN.pg t)
  let priv := (List.range 32).filterMap fun p =>
    if pend / 2 ^ p % 2 = 1 ∧ lev < privPrio s t p then some (0x400 + p, privPrio s t p) else none
  let shared := (sharedCandidates s).filterMap fun i =>
    if srcPending s i ∧ srcAt s i = t ∧ lev < srcPrio s i then some (i, srcPrio s i) else none
  priv ++ shared

/-- The request line of a target (R443). -/
def icuRequest (s : State) (t : Nat) : Bool := !(deliverable s t).isEmpty

/-- What a claim would return, with its priority (R446): the first of highest priority. -/
def icuBest (s : State) (t : Nat) : Option (Nat × Nat) :=
  (deliverable s t).foldl (fun (b : Option (Nat × Nat)) x =>
    match b with | none => some x | some y => if y.2 < x.2 then some x else some y) none

/-- A private source is raised. -/
def raisePriv (t p : Nat) (s : State) : State := s.setTgt t { s.tgt t with edges := (s.tgt t).edges ||| 2 ^ p }

/-- A shared edge source is asserted. -/
def raiseShared (i : Nat) (s : State) : State := { s with icu := { s.icu with edges := Amap.put i true s.icu.edges } }

/-- A claim by target `t` (R446): its value and the state after it. -/
def icuClaim (t : Nat) (s : State) : Nat × State :=
  match icuBest s t with
  | none => (0x3FF, s)
  | some (v, p) =>
    let x := s.tgt t
    let s1 := s.setTgt t { x with
      stack := (v, p) :: x.stack, edges := if 0x400 ≤ v then x.edges &&& (0xFFFFFFFF ^^^ 2 ^ (v - 0x400)) else x.edges }
    (v, if v < 0x400 then { s1 with icu := { s1.icu with edges := Amap.del s1.icu.edges v } } else s1)

/-- A completion faults (R447). -/
def icuFault (writer : Option Nat) (v cause : Nat) (s : State) : State :=
  let s1 := ((s.bump Reg.ICU_FAULTS).setSt Reg.ICU_FAULT_LAST_VALUE v).setSt Reg.ICU_FAULT_LAST_TARGET (writer.getD 0x7F)
  let s2 := (s1.setSt Reg.ICU_FAULT_LAST_CAUSE cause).raise 0x0A0 0
  match writer with
  | some t => s2.bump (Reg.ICUTt_FAULTS.pg t)
  | none => s2

/-- A completion by target `t` (R447, R448, R451). -/
def icuCompleteBy (t v : Nat) (s : State) : State :=
  let x := s.tgt t
  if v = 0x3FF then s
  else if (x.stack.head?.map (·.1)) = some v then
    let s1 := s.setTgt t { x with stack := x.stack.drop 1 }
    { s1 with icu := { s1.icu with stranded := Amap.del s1.icu.stranded v } }
  else if x.stack.any fun e => e.1 == v then icuFault (some t) v 0 s
  else if v < 0x400 ∧ (claimer s v).isSome then icuFault (some t) v 1 s
  else icuFault (some t) v 2 s

/-- A target's stack returns to the base (R452). -/
def icuReset (t : Nat) (s : State) : State := s.setTgt t { s.tgt t with stack := [] }

/-- ICU_CLAIM (R446). -/
def execIcuClaim (t : Fin 66) (s : State) : Res :=
  let r := icuClaim t s
  .next (r.2.answer r.1)

/-- ICU_COMPLETE (R447): by target `tg` to its own page or port, else a write by a requester that is not the target. -/
def execIcuComplete (tg : Option (Fin 66)) (page : Fin 66) (v : BitVec 11) (s : State) : Res :=
  .next (if v.toNat = 0x3FF then s
    else match tg with
      | some t => if t = page then icuCompleteBy t v.toNat s else icuFault (some t.val) v.toNat 1 s
      | none => icuFault none v.toNat 1 s)

/-- ICU_SW_SET (R439). -/
def execIcuSwSet (q : Requester) (w : Word) (s : State) : Res :=
  .next (s.shadowWrite q 0x0A0 fun s =>
    let i := w.toNat % 1024
    if 0x100 ≤ i ∧ i < 0x300 then raiseShared i s else s)

/-- ICUTt_SW_SET (R440). The other steward's doorbell is its private source 2, set by neither bit. -/
def execPrivSwSet (q : Requester) (t : Fin 66) (w : Word) (s : State) : Res :=
  .next (s.shadowWrite q (0x200 + t) fun s =>
    s.setTgt t { s.tgt t with edges := (s.tgt t).edges ||| (w.toNat &&& 0xFFF0) })

/-- A write of ICU_SRC_CFG (R449). -/
def execSrcCfgWrite (q : Requester) (w : Word) (s : State) : Res :=
  .next (s.busWrite q 0x0A0 fun s =>
    { s with icu := { s.icu with cfg := Amap.put (s.winIndex q 0x0A0 % 1024) (w.toNat &&& 0xF7F7F) s.icu.cfg } })

/-- STRANDED (R451): the source has stayed pending at an offline target. -/
def execStranded (i : Fin 1024) (s : State) : Res :=
  let at_ := srcAt s i
  .next (if !srcPending s i || icuOnline s at_ then s else
    let to_ := if (Amap.find i.val s.icu.stranded).isNone then srcFallback s i
      else if icuOnline s 0 then 0 else 1
    let s1 := { s with icu := { s.icu with stranded := Amap.put i.val to_ s.icu.stranded } }
    (((((s1.bump Reg.ICU_STRANDED).setSt Reg.ICU_STRAND_LAST_SOURCE i).setSt Reg.ICU_STRAND_LAST_FROM at_).setSt
      Reg.ICU_STRAND_LAST_TO to_).raise 0x0A0 1).bump (Reg.ICUTt_STRANDED_FROM.pg at_))

end Sys2Proof.Machine
end

