-- ==== Sys2Proof/Machine/ZoneRegs.lean ====
section
/-!
DEFINITION. The registers and memories of a zone core, what its pipeline stages see of them, and its faults (chapter 12, R287, R294, R314).
-/

namespace Sys2Proof.Machine

/-! ### registers and visibility (R287, R294) -/

/-- Numbers of the register window (R315). -/
def zD (r : Fin 8) : Nat := r.val
def zA (a : Fin 2) : Nat := 8 + a.val
def zP (p : Nat) : Nat := 16 + p
def zB (p : Nat) : Nat := 24 + p
def zL (p : Nat) : Nat := 32 + p
def zX (x : Nat) : Nat := 48 + x
def zPC : Nat := 63

/-- Width of a register of the window; 0 where the number names none. -/
def zWidth (r : Nat) : Nat :=
  if r < 10 then 40 else if 16 ≤ r ∧ r < 40 then 12
  else if r = 48 ∨ r = 49 then 9 else if r = 50 ∨ r = 51 then 13
  else if r = 52 ∨ r = 53 ∨ r = 56 then 16 else if r = 54 ∨ r = 55 ∨ r = 57 ∨ r = 58 then 13
  else if r = 63 then 13 else 0

def ZCore.reg (c : ZCore) (r : Nat) : Nat := Amap.get c.regs r 0
def ZCore.setReg (r v : Nat) (c : ZCore) : ZCore := { c with regs := Amap.put r (v % 2 ^ zWidth r) c.regs }

/-- A bit of SR. -/
def ZCore.sr (c : ZCore) (b : Nat) : Bool := c.reg (zX 0) / 2 ^ b % 2 == 1
def ZCore.setSr (b : Nat) (v : Bool) (c : ZCore) : ZCore :=
  c.setReg (zX 0) ((c.reg (zX 0) &&& (0x1FF ^^^ 2 ^ b)) ||| (bit v * 2 ^ b))

/-- The value of D or A register `r` that the E stage of the present position sees (R294). [DESIGN CHOICE: log 53] -/
def ZCore.rdE (c : ZCore) (r : Nat) : Nat :=
  match (c.regW.filter fun w => w.2.1 == r && decide (w.1 + (if w.2.2.1 then 2 else 1) ≤ c.pos)).getLast? with
  | some w => w.2.2.2
  | none => c.reg r

/-- The value that the A stage sees. [DESIGN CHOICE: log 53] -/
def ZCore.rdA (c : ZCore) (r : Nat) : Nat :=
  match (c.regW.filter fun w => w.2.1 == r && decide (w.1 + (if w.2.2.1 then 3 else 2) ≤ c.pos)).getLast? with
  | some w => w.2.2.2
  | none => c.reg r

/-- Write a D or A register in stage E, or (`ld`) with loaded data in stage W. -/
def ZCore.wr (ld : Bool) (r v : Nat) (c : ZCore) : ZCore := { c with regW := c.regW ++ [(c.pos, r, ld, v % 2 ^ 40)] }

/-- A word of XM, or of YM at bit 12. -/
def ZCore.memAt (c : ZCore) (a : Nat) : Nat := Amap.get (if a / 4096 % 2 = 0 then c.xm else c.ym) (a % 4096) 0
def ZCore.setMem (a v : Nat) (c0 : ZCore) : ZCore :=
  let c := { c0 with bad := c0.bad.filter fun b => b != a % 8192 }
  if a / 4096 % 2 = 0 then { c with xm := Amap.put (a % 4096) (v % 2 ^ 40) c.xm }
  else { c with ym := Amap.put (a % 4096) (v % 2 ^ 40) c.ym }

/-- A store of stage W. -/
def ZCore.store (a v : Nat) (c : ZCore) : ZCore := { c with memW := c.memW ++ [(c.pos, a, v)] }

/-- Writes that position `k` and all later ones see reach the registers and memories. [DESIGN CHOICE: log 53] -/
def ZCore.land (k : Nat) (c : ZCore) : ZCore :=
  let c1 := (c.regW.filter fun w => decide (w.1 + 3 ≤ k)).foldl (fun c w => c.setReg w.2.1 w.2.2.2) c
  let c2 := (c.memW.filter fun w => decide (w.1 + 2 ≤ k)).foldl (fun c w => c.setMem w.2.1 w.2.2) c1
  let c3 := (c.loopW.filter fun w => decide (w.1 + 3 ≤ k)).foldl (fun c w => c.setReg w.2.1 w.2.2) c2
  { c3 with
    regW := c.regW.filter fun w => decide (k < w.1 + 3)
    memW := c.memW.filter fun w => decide (k < w.1 + 2)
    loopW := c.loopW.filter fun w => decide (k < w.1 + 3) }

/-- Every instruction issued completes. -/
def ZCore.drain (c : ZCore) : ZCore := c.land (c.pos + 3)

/-! ### faults (R314) -/

/-- A core faults (R314). [DEDUCED: log 56] -/
def faultCore (n : Nat) (code : Nat) (s : State) : State :=
  let c := (s.core n).drain
  (((s.setCore n c).setSt (Reg.ZCn_STATUS_STATE.pg n) 4).setSt (Reg.ZCn_STATUS_FAULT.pg n) code).setSt (Reg.ZCn_FAULT_PC.pg n)
    (c.reg zPC) |>.raise (0x040 + n) 1

/-- A read of word `a` of XM, or of YM from 4,096, meets an uncorrectable error (R314): it is counted, and the core faults with MEM if it is
in RUN or WAIT. -/
def memFault (n : Nat) (a : Nat) (s : State) : State :=
  let c := s.core n
  let s1 := ((s.setCore n { c with bad := a :: c.bad.filter (· != a) }).bump Reg.SYS_SRAM_UE).raise 0x010 7
  if s.coreState n = 1 ∨ s.coreState n = 2 then
    ((faultCore n 4 s1).setSt (Reg.ZCn_FAULT_INFO_ADDR.pg n) (a % 4096)).setSt (Reg.ZCn_FAULT_INFO_MEM.pg n) (1 + a / 4096 % 2)
  else s1

end Sys2Proof.Machine
end

