-- ==== Sys2Proof/Machine/Zone.lean ====
section
/-!
DEFINITION. The zone engine: features, conditions, events (chapter 11, R256 to R268, R281, R282).
-/

namespace Sys2Proof.Machine

def State.setUse (n : Lane) (u : ZoneUse) (s : State) : State := { s with zone := { s.zone with use := s.zone.use.set n u } }

/-! ### the table in force -/

/-- The number of entries in use. -/
def zoneCount (u : ZoneUse) : Nat := RegFile.get u.cfg Reg.ZONE_COUNT_N

/-- Lane, first point and count of zone `z`; whether it is enabled. -/
def zoneLane (w : Amap Word) (z : Nat) : Nat := bitsOf (zoneWord w z 0) 31 1
def zoneFirst (w : Amap Word) (z : Nat) : Nat := bitsOf (zoneWord w z 0) 0 18
def zonePoints (w : Amap Word) (z : Nat) : Nat := bitsOf (zoneWord w z 1) 0 19
def zoneEn (w : Amap Word) (z : Nat) : Bool := bitsOf (zoneWord w z 1) 31 1 == 1

/-- The enabled slots of a zone, with their definitions (R256). -/
def zoneSlots (w : Amap Word) (z : Nat) : List (Nat × Nat) :=
  (List.range 8).filterMap fun i =>
    let v := bitsOf (zoneWord w z (2 + i / 4)) (8 * (i % 4)) 7
    if 64 ≤ v then some (i, v % 64) else none

/-- A word of threshold set `t` (R283). -/
def setWord (w : Amap Word) (t k : Nat) : Nat := (Amap.get w (65536 + t * 16 + k) 0).toNat

/-- STAT, AGG, W of a definition. -/
def fdStat (c : RegFile) (d : Nat) : Nat := RegFile.get c (Reg.ZONE_FDd_CFG_STAT.ix d)
def fdAgg (c : RegFile) (d : Nat) : Nat := RegFile.get c (Reg.ZONE_FDd_CFG_AGG.ix d)
def fdWin (c : RegFile) (d : Nat) : Nat := 2 ^ RegFile.get c (Reg.ZONE_FDd_CFG_WIN.ix d)
def fdLo (c : RegFile) (d : Nat) : Nat := RegFile.get c (Reg.ZONE_FDd_BAND_LO.ix d)
def fdHi (c : RegFile) (d : Nat) : Nat := RegFile.get c (Reg.ZONE_FDd_BAND_HI.ix d)

/-- Zone `z` is evaluated on lane `n` under a table (R256, R264). -/
def zoneActive (c : RegFile) (u : ZoneUse) (n : Lane) (z : Nat) : Bool :=
  zoneEn u.words z && zoneLane u.words z == n.val && !u.held.contains z && decide (1 ≤ zonePoints u.words z) &&
    decide (zoneFirst u.words z + zonePoints u.words z ≤ points c n)

/-! ### features (R260 to R262) -/

/-- BAND of a window (R261): the expression, and a departure within 0.5 %. [DEDUCED: log 48] -/
def bandValue (lo hi : Nat) (x : List Int) : Int :=
  let w := x.length
  let win := fun (i : Nat) => ((fxOne : Int) - (cosSinTurn i w).1) / 2
  let xs := x.zipIdx.map fun e => e.1 * win e.2
  let pow := (List.range (hi + 1 - lo)).foldl (fun (a : Nat) k =>
    let r := xs.zipIdx.foldl (fun (acc : Int × Int) e =>
      let cs := cosSinTurn (-(((lo + k) * e.2 : Nat) : Int)) w
      (acc.1 + fxMul e.1 cs.1, acc.2 + fxMul e.1 cs.2)) (0, 0)
    a + (r.1 * r.1 + r.2 * r.2).toNat) 0
  let den := w * (x.zipIdx.foldl (fun (a : Int) e => a + win e.2 * win e.2) 0).toNat
  let v := isqrt (2 * pow / max den 1)
  let least := v - v / 200
  ((least + Config.bandError lo hi x % (2 * (v / 200) + 1) : Nat) : Int)

/-- The point value of a window (R261). -/
def pointStat (stat lo hi : Nat) (x : List Int) : Int :=
  let w := x.length
  match stat with
  | 0 => sumI x / w
  | 1 => isqrt ((x.foldl (fun (a : Int) v => a + v * v) 0).toNat / w)
  | 2 => (x.foldl (fun m v => max m v.natAbs) 0 : Nat)
  | 3 => x.foldl max (x.headD 0) - x.foldl min (x.headD 0)
  | _ => bandValue lo hi x

/-- The spec defines the definition's samples (R259 to R262). [DESIGN CHOICE: log 49] -/
def fdStated (c : RegFile) (d : Nat) : Bool :=
  fdStat c d ≤ 4 && fdAgg c d ≤ 2 && fdWin c d ≤ 4096 &&
    (fdStat c d != 4 || (1 ≤ fdLo c d && fdLo c d ≤ fdHi c d && fdHi c d + 1 ≤ fdWin c d / 2 && 16 ≤ fdWin c d))

/-- The zone value of the points' windows, with the point that gives it under MAX (R262). [DESIGN CHOICE: log 49] -/
def zoneValue (c : RegFile) (d first : Nat) (wins : List (List Int)) : Int × Option Nat :=
  if !fdStated c d then
    let cfg := fdStat c d + 16 * fdAgg c d + 256 * RegFile.get c (Reg.ZONE_FDd_CFG_WIN.ix d)
    ((Config.featureUnstated cfg (fdLo c d + 65536 * fdHi c d) wins).toInt, none)
  else
    let vs := wins.map (pointStat (fdStat c d) (fdLo c d) (fdHi c d))
    match fdAgg c d with
    | 1 => (sumI vs / vs.length, none)
    | 2 => (vs.foldl min (vs.headD 0), none)
    | _ =>
      let m := vs.foldl max (vs.headD 0)
      (m, some (first + (vs.findIdx fun v => v == m)))

/-- A feature sample: its slot, definition and window, the row of its last output, its instant, value, flags and point. -/
structure FeatSample where
  slot : Nat
  fd : Nat
  row : Nat
  inst : Time
  value : Int
  flags : Nat
  arg : Option Nat

/-- The feature samples of a zone in one block, by row and then by slot. -/
def zoneSamples (u : ZoneUse) (z : Nat) (rows : List (Nat × Row)) : List FeatSample :=
  let nb := rows.length
  let a := zoneFirst u.words z
  let m := zonePoints u.words z
  let all := (zoneSlots u.words z).flatMap fun e =>
    let w := fdWin u.cfg e.2
    (List.range (nb / w)).filterMap fun i =>
      let part := (rows.drop (i * w)).take w
      part.getLast?.map fun l =>
        let wins := (List.range m).map fun p => part.map fun r => satS 24 (r.2.vals.getD (a + p) 0)
        let v := zoneValue u.cfg e.2 a wins
        ({ slot := e.1, fd := e.2, row := l.1, inst := l.2.inst, value := v.1, arg := v.2
           flags := part.foldl (fun f r => f ||| rowFlags r.2 a m) 0 } : FeatSample)
  rows.flatMap fun r => all.filter fun x => x.row == r.1

/-! ### conditions (R263, R265, R266) -/

/-- TRIG_TIME at a crossing of `th` (R266), and INTERP. -/
def crossing (prev : Option (Time × Int)) (t : Time) (v th : Int) : Time × Bool :=
  match prev with
  | some (ta, ua) =>
    if ua < th ∧ th ≤ v then (ta + BitVec.ofInt 64 (divRound ((th - ua) * tDiff t ta) (v - ua).toNat), true) else (t, false)
  | none => (t, false)

/-- One sample of a condition: its type, polarity and thresholds. The state after it, and whether it is met. [DEDUCED: log 50] -/
def condNext (type pol : Nat) (hi lo0 : Int) (n1 n2 : Nat) (t : Time) (v : Int) (c : CondSt) : CondSt × Bool :=
  let lo := if hi < lo0 then hi else lo0
  let prev := c.back.head?
  let c1 := { c with back := ((t, v) :: c.back).take 4 }
  let at_ := fun (x : Time × Bool) (w : Nat) (ph : Nat) =>
    { c1 with phase := ph, width := w, trig := x.1, interp := x.2, skipped := false }
  match type with
  | 1 =>
    if c.phase = 0 then
      if hi ≤ v then (at_ (crossing prev t v hi) 1 1, n2 == 0 && n1 == 1) else (c1, false)
    else if lo ≤ v then ({ c1 with width := c.width + 1 }, n2 == 0 && c.width + 1 == n1)
    else ({ c1 with phase := 0 }, n2 != 0 && decide (n1 ≤ c.width ∧ c.width ≤ n2))
  | 2 =>
    if c.phase = 0 then
      if lo ≤ v ∧ v < hi then (at_ (crossing prev t v lo) 1 1, false) else (c1, false)
    else if v < lo then ({ c1 with phase := 0 }, c.phase == 1 && decide (n1 ≤ c.width))
    else ({ c1 with width := c.width + 1, phase := if hi ≤ v then 2 else c.phase }, false)
  | 3 =>
    if pol ≥ 2 then (c1, false) else
      let inside := if pol = 0 then decide (v < lo) else decide (hi ≤ v)
      let rearm := if pol = 0 then decide (hi ≤ v) else decide (v < lo)
      if c.phase = 2 then ({ c1 with phase := if rearm then 0 else 2, width := 0 }, false)
      else if inside then
        let w := c.width + 1
        if w = n1 then ({ at_ (t, false) w 2 with skipped := c.phase != 0 && c.skipped }, true)
        else ({ c1 with width := w, phase := 1, skipped := if c.phase = 0 then false else c.skipped }, false)
      else ({ c1 with width := 0, phase := 0 }, false)
  | 4 =>
    match c.back[n1 - 1]? with
    | none => (c1, false)
    | some (_, v') =>
      if pol ≥ 3 then (c1, false) else
        let d := v - v'
        let m := if pol = 0 then d else if pol = 1 then -d else (d.natAbs : Int)
        let c2 := { c1 with meas := some (t, m) }
        if c.phase = 2 then ({ c2 with phase := if m < lo then 0 else 2 }, false)
        else if hi ≤ m then
          let x := crossing c.meas t m hi
          ({ c2 with phase := 2, width := 1, trig := x.1, interp := x.2, skipped := false }, true)
        else (c2, false)
  | _ => (c1, false)

/-- A condition that is met without a crossing between two samples carries the instant of the sample at which it was met (R266). -/
def condStep (type pol : Nat) (hi lo0 : Int) (n1 n2 : Nat) (t : Time) (v : Int) (c : CondSt) : CondSt × Bool :=
  let r := condNext type pol hi lo0 n1 n2 t v c
  if r.2 && !r.1.interp then ({ r.1 with trig := t }, true) else r

/-- A sample that the conditions skip (R263). -/
def skippedSample (f : Nat) : Bool := f &&& 0x118 != 0

/-- HI and LO of a set as a condition on a definition reads them (R265, R283): signed for MEAN. -/
def setHiLo (w : Amap Word) (t stat : Nat) : Int × Int :=
  let hi := setWord w t 0 + 2 ^ 32 * bitsOf (setWord w t 2) 0 8
  let lo := setWord w t 1 + 2 ^ 32 * bitsOf (setWord w t 2) 8 8
  if stat = 0 then (sx 40 hi, sx 40 lo) else (hi, lo)

/-- A condition is inert (R265). -/
def setInert (w : Amap Word) (t type : Nat) : Bool :=
  let n1 := bitsOf (setWord w t 3) 0 16
  n1 == 0 || (type == 4 && decide (4 < n1))

/-- The conditions of a zone read one sample: those met, with their state after it. -/
def zoneConds (u : ZoneUse) (z : Nat) (x : FeatSample) (m : Amap CondSt) : Amap CondSt × List (Nat × CondSt) :=
  (List.range 4).foldl (fun acc i =>
    let e := zoneWord u.words z (8 + i)
    let type := bitsOf e 0 3
    let t := bitsOf e 8 8
    if type = 0 ∨ 4 < type ∨ bitsOf e 3 3 ≠ x.slot ∨ setInert u.words t type then acc
    else
      let c := Amap.get acc.1 (z * 4 + i) {}
      if skippedSample x.flags then
        (Amap.put (z * 4 + i) { c with skipped := c.skipped || c.phase == 1 } acc.1, acc.2)
      else
        let th := setHiLo u.words t (fdStat u.cfg x.fd)
        let n12 := setWord u.words t 3
        let r := condStep type (bitsOf e 6 2) th.1 th.2 (bitsOf n12 0 16) (bitsOf n12 16 16) x.inst x.value c
        (Amap.put (z * 4 + i) r.1 acc.1, if r.2 then acc.2 ++ [(i, r.1)] else acc.2)) (m, [])

/-! ### events (R267, R268, R274, R275, R281, R307) -/

/-- The latest source tick at or before a time. [DEDUCED: log 18] -/
def srcTickAt (s : State) (t : Time) : Time :=
  let per := max (s.lv Reg.MERID_PERIOD_PERIOD_NS * duPerNs) 1
  let back := ceilDiv (tDiff s.merid.lastTick t) per
  if 0 < back then s.merid.lastTick - BitVec.ofInt 64 (back * per) else s.merid.lastTick

/-- The 48 bytes of an EVENT entry (R281, R311). -/
def eventBytes (e : Event) : List Byte :=
  leBytes 8 e.trig.toNat ++ leBytes 8 e.decide.toNat ++ leBytes 4 e.seq ++ leBytes 2 e.zone ++ leBytes 1 e.mask ++
  leBytes 1 e.primary ++ leBytes 4 e.segId ++ leBytes 2 e.eflags ++ leBytes 1 e.fslot ++ leBytes 1 e.throttle ++
  leBytes 8 (ux 64 e.value) ++ leBytes 4 e.width ++ leBytes 4 e.arg

/-- An entry joins the EVENT records of the streams that select its zone (R281). -/
def eventEntry (e : Event) (s : State) : State :=
  let tick := srcTickAt s e.decide
  let per := max (s.lv Reg.MERID_PERIOD_PERIOD_NS * duPerNs) 1
  let pick := fun (x : Selection) => decide (x.first ≤ e.zone ∧ (x.count = 0 ∨ e.zone < x.first + x.count))
  (s.streamsOf 0x07 pick).foldl (fun s x =>
    let r0 : Rec := { product := 0x07, width := 3, time := tick, till := e.decide, born := s.time }
    let s1 := growOpen x 0 r0 (fun r => { r with
      body := r.body ++ eventBytes e, pointCount := r.pointCount + 1, flags := r.flags ||| recFlags e.flags, till := e.decide
      frameCount := (tDiff tick r.time / per).toNat + 1 }) s
    match openRec s1 x.sid 0 with
    | some r => if min x.sel.frames 64 ≤ r.pointCount then closeOpen x.sid 0 s1 else s1
    | none => s1) s

/-- The event joins the queue of its zone core; one that finds it full is dropped, and its segment's CORE hold clears
(R307). [DEDUCED: log 50] -/
def postEvent (core : Nat) (e : Event) (opened : Option Nat) (s : State) : State :=
  if 64 ≤ core then s else
    let c := s.core core
    if c.evq.length < 64 then s.setCore core { c with evq := c.evq ++ [e] }
    else
      let s1 := (s.bump (Reg.ZCn_EVQ_DROPS.pg core)).raise (0x040 + core) 2
      match opened with
      | some i => releaseSeg i 2 s1
      | none => s1

/-- An event of number `a` was decided before that of number `b`. -/
def seqBefore (a b : Nat) : Bool := let d := (b + 2 ^ 32 - a % 2 ^ 32) % 2 ^ 32; d != 0 && decide (d < 2 ^ 31)

/-- An event that waits for a re-arm was decided before that of number `q`. -/
def waitsBefore (s : State) (q : Nat) : Bool := s.capt.zones.any fun e => e.2.waiting.any fun w => seqBefore w.seq q

/-- The entries that nothing holds back any more follow in decision order (R281). -/
def flushBehind (s : State) : State :=
  let go := (s.zone.behind.filter fun e => !waitsBefore s e.seq).mergeSort fun a b => !seqBefore b.seq a.seq
  go.foldl (fun s e => eventEntry e s) { s with zone := { s.zone with behind := s.zone.behind.filter fun e => waitsBefore s e.seq } }

/-- An event's entry, after those of all events decided before it (R281). -/
def orderedEntry (e : Event) (s : State) : State :=
  if waitsBefore s e.seq then { s with zone := { s.zone with behind := s.zone.behind ++ [e] } } else flushBehind (eventEntry e s)

/-- An event goes to the EVENT product, its zone core, the counters and the interrupt (R268). -/
def deliverEvent (core : Nat) (e : Event) (opened : Option Nat) (s : State) : State :=
  ((postEvent core e opened (orderedEntry e s)).bump Reg.ZONE_EVENTS).raise 0x038 0

/-- The event of a zone that is capturing (R274). -/
def eventInSegment (n : Lane) (w : Amap Word) (e : Event) (s : State) : State :=
  let z := e.zone
  let zc := s.zcapt z
  let g := s.seg zc.seg
  let core := bitsOf (zoneWord w z 4) 0 7
  let s1 := s.bump Reg.ZONE_EVENTS_IN_SEG
  if !g.retrig then deliverEvent core { e with segId := zc.head, eflags := e.eflags ||| 2 } none s1
  else
    let want := max g.end_ (trigSample s n e.trig + g.post)
    let most := g.next + ((g.cap - g.held) * 2 ^ g.logT : Nat)
    let cut := !g.chain && decide (most < want)
    let g1 := { g with end_ := if cut then max g.end_ most else want, sflags := g.sflags ||| 0x10 ||| bit cut }
    syncCapt (captFill n zc.seg (deliverEvent core { e with segId := zc.head, eflags := e.eflags ||| 0xA } none (s1.setSeg zc.seg g1)))

/-- An event that has been decided (R268, R274, R275). [DEDUCED: log 50] -/
def handleEvent (n : Lane) (e : Event) (s : State) : State :=
  let w := (s.zone.use.get n).words
  let z := e.zone
  let zc := s.zcapt z
  let core := bitsOf (zoneWord w z 4) 0 7
  if bitsOf (zoneWord w z 4) 8 1 = 0 ∨ histSrc s n = 0 then deliverEvent core e none s
  else if zc.st = 1 then eventInSegment n w e s
  else if zc.st = 2 then s.setZcapt z { zc with waiting := zc.waiting ++ [e] }
  else if segCap s n w z = 0 then deliverEvent core e none s
  else match freeSeg s with
    | none => deliverEvent core { e with eflags := e.eflags ||| 4 } none ((s.bump Reg.CAPT_POOL_EMPTY).raise 0x039 0)
    | some i =>
      let s1 := openSeg i n w e none s
      let g := s1.seg i
      syncCapt (deliverEvent core { e with segId := segId i g, throttle := g.logT } (some i) s1)

/-- REARM (R274): the zone is armed again, and the events that waited follow. -/
def execRearm (z : Nat) (s : State) : Res :=
  let zc := s.zcapt z
  .next (if zc.st ≠ 2 then s else
    let n : Lane := zc.lane
    let s1 := armZone n (s.zone.use.get n).words z (s.setZcapt z { zc with waiting := [] })
    flushBehind (zc.waiting.foldl (fun s e => handleEvent n e s) s1))

/-- A feature sample enters the ring of the zone's core (R308). -/
def featRing (z : Nat) (core : Nat) (x : FeatSample) (s : State) : State :=
  if 64 ≤ core ∨ !s.on (Reg.ZCn_FRING_EN.pg core) then s else
    let len := s.lv (Reg.ZCn_FRING_LEN.pg core)
    let c := s.core core
    let nxt := (c.fringWr + 4) % max len 1
    if len < 4 ∨ nxt = c.fringRd then (s.bump (Reg.ZCn_FEAT_DROPS.pg core)).raise (0x040 + core) 3
    else
      let base := s.lv (Reg.ZCn_FRING_BASE.pg core) + c.fringWr
      let tag := z % 4096 + x.slot * 4096 + recFlags x.flags * 65536
      let ws := [ux 40 x.value, tag, x.inst.toNat % 2 ^ 32, x.inst.toNat / 2 ^ 32]
      let ym := ws.zipIdx.foldl (fun m e => Amap.put ((base + e.2) % 4096) e.1 m) c.ym
      let at_ := (List.range 4).map fun i => 4096 + (base + i) % 4096
      let s1 := match at_.find? fun a => c.bad.contains a with | some a => memFault core a s | none => s
      let c1 := s1.core core
      s1.setCore core { c1 with ym := ym, fringWr := nxt, bad := c1.bad.filter fun b => !at_.contains b }

/-- The event of the conditions met at samples of one instant (R267). [DEDUCED: log 50] -/
def makeEvent (n : Lane) (u : ZoneUse) (z : Nat) (xs : List FeatSample) (met : List (Nat × CondSt)) (s : State) : State :=
  match (met.mergeSort fun a b => a.1 ≤ b.1).head? with
  | none => s
  | some (i, c) =>
    let e := zoneWord u.words z (8 + i)
    match xs.find? fun x => x.slot == bitsOf e 3 3 with
    | none => s
    | some x =>
      let seq := s.st Reg.ZONE_EVENT_SEQ + 1
      let ev : Event := {
        seq := seq % 2 ^ 32, zone := z, lane := n, trig := c.trig, decide := x.inst
        mask := met.foldl (fun m a => m ||| 2 ^ a.1) 0, primary := i + 16 * bitsOf e 0 3
        eflags := bit c.interp + 16 * bit c.skipped, fslot := x.slot, value := x.value, width := c.width
        arg := match x.arg with | some p => n.val * 2 ^ 31 + p | none => 0xFFFFFFFF
        flags := x.flags }
      handleEvent n ev (s.setSt Reg.ZONE_EVENT_SEQ seq)

/-- A zone whose last part has been processed (R262): its samples reach the ring, the conditions and the events. [DEDUCED: log 50] -/
def zoneBlock (n : Lane) (z : Nat) (rows : List (Nat × Row)) (s : State) : State :=
  let u := s.zone.use.get n
  let xs := zoneSamples u z rows
  let core := bitsOf (zoneWord u.words z 4) 0 7
  rows.foldl (fun s r =>
    let now := xs.filter fun x => x.row == r.1
    if now.isEmpty then s else
      let s1 := now.foldl (fun s x => featRing z core x s) s
      let step := now.foldl (fun (acc : Amap CondSt × List (Nat × CondSt)) x =>
        let c := zoneConds u z x acc.1
        (c.1, acc.2 ++ c.2)) (s1.zone.conds, [])
      makeEvent n u z now step.2 { s1 with zone := { s1.zone with conds := step.1 } }) s

/-- The zones of a lane that are evaluated. -/
def activeZones (s : State) (n : Lane) : List Nat :=
  (List.range (zoneCount (s.zone.use.get n))).filter fun z => zoneActive s.live (s.zone.use.get n) n z

/-- The zones completed by a part that covers points `a` to `b − 1`. -/
def zonePart (n : Lane) (a b : Nat) (rows : List (Nat × Row)) (s : State) : State :=
  let w := (s.zone.use.get n).words
  ((activeZones s n).filter fun z =>
    let e := zoneFirst w z + zonePoints w z
    decide (a < e ∧ e ≤ b)).foldl (fun s z => zoneBlock n z rows s) s

/-! ### ZONE_FEATURE (R282) -/

/-- Bytes padded with 0 to a multiple of `m`. -/
def padTo (m : Nat) (l : List Byte) : List Byte := l ++ List.replicate ((m - l.length % m) % m) 0

/-- The ZONE_FEATURE samples of a block go to the streams that select their definition. -/
def featRecords (n : Lane) (rows : List (Nat × Row)) (s : State) : State :=
  let u := s.zone.use.get n
  let per := max (s.lanePeriod n * duPerNs) 1
  (s.streamsOf 0x06 fun x => x.lane == n.val).foldl (fun s x =>
    let d := x.sel.src % 64
    let zs := (activeZones s n).filter fun z => (zoneSlots u.words z).any fun e => e.2 == d
    let w := fdWin u.cfg d
    if zs.isEmpty then s else
      let samples := zs.map fun z => (zoneSamples u z rows).filter fun y => y.fd == d
      let s1 := (List.range (rows.length / w)).foldl (fun s i =>
        match rows[i * w + w - 1]? with
        | none => s
        | some (g, r) =>
          if tDiff r.tick x.since ≤ 0 then s else
          let vals := samples.map fun l => match l.find? fun y => y.row == g with | some y => (y.value, y.flags) | none => (0, 0)
          let out := outPeriod s n
          let r0 : Rec := {
            product := 0x06, width := 4, time := r.tick, firstPoint := BitVec.ofNat 32 (n.val * 2 ^ 31 + d), pointCount := zs.length
            lead := padTo 5 (leBytes 8 r.inst.toNat ++ leBytes 8 (w * out) ++ zs.flatMap fun z => leBytes 2 z) }
          let s2 := growOpen x 0 r0 (fun y => { y with
            body := y.body ++ vals.flatMap fun v => leBytes 5 (ux 40 v.1)
            flags := y.flags ||| recFlags (vals.foldl (fun f v => f ||| v.2) 0), till := r.inst
            frameCount := (tDiff r.tick y.time / per).toNat + 1 }) s
          match openRec s2 x.sid 0 with
          | some y =>
            let nextInst := r.inst + BitVec.ofNat 64 (w * out / 2 ^ 24)
            if (x.sel.frames : Int) ≤ tDiff nextInst y.time / per then closeOpen x.sid 0 s2 else s2
          | none => s2) s
      if rows.length % w = 0 then s1 else closeOpen x.sid 0 s1) s

/-- A block of the lane is over: ZONE_FEATURE, and the outputs that no window took (R260). -/
def zoneBlockEnd (n : Lane) (rows : List (Nat × Row)) (s : State) : State :=
  let u := s.zone.use.get n
  let fds := (List.range 64).filter fun d => (activeZones s n).any fun z => (zoneSlots u.words z).any fun e => e.2 == d
  let drops := fds.foldl (fun a d => a + rows.length % fdWin u.cfg d) 0
  ((featRecords n rows s).bumpBy Reg.ZONE_TAIL_DROPS drops).raiseIf (drops != 0) 0x038 2

/-! ### table changes and limits (R257, R258, R264) -/

/-- Outputs of a lane's chain in a block (R260). -/
def blockOuts (s : State) (n : Lane) : Nat :=
  if s.on (Reg.SLOWn_RS_CFG_EN.pg n) then
    s.lv (Reg.SLOWn_CT_FRAMES.pg n) * s.lanePeriod n / max (s.lv (Reg.SLOWn_RS_PERIOD.pg n)) 1
  else blockLen s.live n / max (slowDec s.live n) 1

/-- The load of zone `z` in 2⁻¹ · 10⁻⁶ outputs per second, and its aggregates per block (R264). -/
def zoneLoad (s : State) (w : Amap Word) (z : Nat) : Nat × Nat :=
  let n : Lane := if zoneLane w z = 0 then 0 else 1
  if s.laneState n = 0 ∨ !usesSlow s.live n then (0, 0) else
    (zoneSlots w z).foldl (fun (a : Nat × Nat) e =>
      let c2 := if fdStat s.live e.2 = 4 then 2 + RegFile.get s.live (Reg.ZONE_FDd_CFG_WIN.ix e.2) else 2
      (a.1 + zonePoints w z * c2 * (10 ^ 15 * 2 ^ 24 * duPerNs) / max (outPeriod s n) 1, a.2 + blockOuts s n / fdWin s.live e.2))
      (0, 0)

/-- Zones are held from the highest-numbered enabled one downward until the limits hold: held zones, L and A. -/
def holdZones (s : State) (w : Amap Word) : List Nat → List Nat × Nat × Nat → List Nat × Nat × Nat
  | [], a => a
  | z :: r, a =>
    if a.2.1 ≤ 16000000000000000 ∧ a.2.2 ≤ 65536 then a
    else
      let l := zoneLoad s w z
      holdZones s w r (z :: a.1, a.2.1 - l.1, a.2.2 - l.2)

/-- The limits of R264 are evaluated over the live table, and the status follows (R256, R264, R265). -/
def evalZones (s : State) : State :=
  let w := s.zone.words
  let zs := (List.range (s.lv Reg.ZONE_COUNT_N)).filter (zoneEn w)
  let tot := zs.foldl (fun (a : Nat × Nat) z => let l := zoneLoad s w z; (a.1 + l.1, a.2 + l.2)) (0, 0)
  let h := holdZones s w zs.reverse ([], tot)
  let range := zs.any fun z => decide (points s.live (if zoneLane w z = 0 then 0 else 1) < zoneFirst w z + zonePoints w z)
  let inert := zs.any fun z => (List.range 4).any fun i =>
    let e := zoneWord w z (8 + i)
    bitsOf e 0 3 != 0 && setInert w (bitsOf e 8 8) (bitsOf e 0 3)
  let s1 := ((s.setSt Reg.ZONE_LOAD (h.2.1 / 2 / 10 ^ 12)).setSt Reg.ZONE_AGG h.2.2).setSt Reg.ZONE_STATUS_LOAD_HELD (bit (!h.1.isEmpty))
  let s2 := ((s1.setSt Reg.ZONE_HELD_FIRST (h.1.headD 0)).setSt Reg.ZONE_STATUS_RANGE_ERR (bit range)).setSt
    Reg.ZONE_STATUS_SET_ERR (bit inert)
  { s2.raiseIf (!h.1.isEmpty) 0x038 1 with zone := { s2.zone with held := h.1 } }

/-- The latest table reaches the lane at its next block (R258). -/
def staleTable (n : Lane) (s : State) : State := s.setUse n { s.zone.use.get n with stale := true }

/-- ZONE_STATUS.CAP_ERR: an armed zone that captures has C = 0 (R272). -/
def syncCapErr (s : State) : State :=
  let bad := fun (n : Lane) => (activeZones s n).any fun z =>
    let w := (s.zone.use.get n).words
    (s.zcapt z).armed && (s.zcapt z).st == 0 && bitsOf (zoneWord w z 4) 8 1 == 1 && histSrc s n != 0 && segCap s n w z == 0
  s.setSt Reg.ZONE_STATUS_CAP_ERR (bit (bad 0 || bad 1))

/-- An applied ZONE commit (R257). -/
def commitZone (s : State) : State :=
  staleTable 0 (staleTable 1 (evalZones { s with zone := { s.zone with words := s.zone.shadow } }))

/-- The fields of the feature definitions. -/
def fdFields (d : Nat) : List Fld :=
  [Reg.ZONE_FDd_CFG_STAT, Reg.ZONE_FDd_CFG_AGG, Reg.ZONE_FDd_CFG_WIN, Reg.ZONE_FDd_BAND_LO, Reg.ZONE_FDd_BAND_HI].map (·.ix d)

/-- A zone's words, sets or definitions differ between two tables (R258). -/
def zoneChanged (a b : ZoneUse) (z : Nat) : Bool :=
  (List.range 16).any (fun k => zoneWord a.words z k != zoneWord b.words z k) ||
  (List.range 4).any (fun i =>
    let e := zoneWord b.words z (8 + i)
    bitsOf e 0 3 != 0 && (List.range 4).any fun k => setWord a.words (bitsOf e 8 8) k != setWord b.words (bitsOf e 8 8) k) ||
  (zoneSlots b.words z).any fun e => (fdFields e.2).any fun f => RegFile.get a.cfg f != RegFile.get b.cfg f

/-- The first part of block `b` of a lane begins: the latest table governs it (R258, R272), and the zones held (R264). -/
def adoptTable (n : Lane) (b : Nat) (s : State) : State :=
  let old := s.zone.use.get n
  if !old.stale then s.setUse n { old with held := s.zone.held } else
    let cfg := s.live.filter fun e => e.1 / 131072 == 0x038
    let new : ZoneUse := { words := s.zone.words, cfg := cfg, held := s.zone.held, stale := false }
    let s1 := (s.streamsOf 0x06 fun x => x.lane == n.val).foldl (fun s x => closeOpen x.sid 0 s) s
    let s2 := (s1.setUse n new).setSt (Reg.ZONE_TABLE_BLOCK_Ln.ix n) b
    syncCapErr ((List.range (max (zoneCount old) (zoneCount new))).foldl (fun s z =>
      if zoneLane new.words z ≠ n.val then s
      else
        let ch := zoneChanged old new z
        let s3 := if ch then { s with zone := { s.zone with conds := Amap.drop (fun k => k / 4 == z) s.zone.conds } } else s
        if (ch || !(s3.zcapt z).armed) && (s3.zcapt z).st == 0 && zoneActive s3.live new n z then armZone n new.words z s3 else s3) s2)

/-- A lane starts (R264, R265): the conditions of its zones are idle, and its zones are armed at its first block. -/
def startZone (n : Lane) (s : State) : State :=
  let has := fun (m : Lane) (z : Nat) =>
    let u := s.zone.use.get m
    decide (z < zoneCount u) && zoneLane u.words z == m.val
  let mine := fun (z : Nat) => has n z && !has (if n = 0 then 1 else 0) z
  staleTable n (evalZones { s with zone := { s.zone with conds := Amap.drop (fun k => mine (k / 4)) s.zone.conds } })

/-- A lane stops: its captures end, and events that waited for a re-arm go out without a segment. -/
def stopZone (n : Lane) (s : State) : State :=
  let late := s.capt.zones.flatMap fun e => if e.2.lane = n then e.2.waiting.map fun x => (x, bitsOf (zoneWord (s.zone.use.get n).words e.1 4) 0 7) else []
  flushBehind ((late.mergeSort fun a b => !seqBefore b.1.seq a.1.seq).foldl (fun s e => deliverEvent e.2 e.1 none s) (captStop n s))

/-- The bits of a word that a table defines: table 0 the zone entries (R256), 1 the threshold sets (R283); the others are
reserved and read 0 (R6). -/
def zoneMask (table word : Nat) : Word :=
  let l : List Word :=
    if table = 1 then [0xFFFFFFFF, 0xFFFFFFFF, 0xFFFF, 0xFFFFFFFF]
    else [0x8003FFFF, 0x8007FFFF, 0x7F7F7F7F, 0x7F7F7F7F, 0xFFFF0F7F, 0xFFFFF, 0xFFFFFF, 0, 0xFFFF, 0xFFFF, 0xFFFF, 0xFFFF]
  l.getD word 0

/-- ZONE_DATA (R257): a shadow write through the window, whose index advances into ENTRY. -/
def execZoneDataWrite (q : Requester) (w : Word) (s : State) : Res :=
  .next (s.busWrite q 0x038 fun s =>
    let i := s.winIndex q 0x038
    let table := i / 65536 % 2
    let entry := if table = 1 then i % 256 else i % 4096
    let word := i / 4096 % 16
    let next := (i % 4096 * 16 + word + 1) % 65536
    let s1 := ({ s with zone := { s.zone with shadow := Amap.put (table * 65536 + entry * 16 + word) (w &&& zoneMask table word) s.zone.shadow } }).touch 0x038
    s1.setWinIndex q 0x038 (next / 16 + next % 16 * 4096 + table * 65536))

/-- EVT_FLUSH (R281): ZONE_EVT_FLUSH µs after its first entry an EVENT record closes. -/
def execEvtFlush (s : State) (t : Time := 0) : Res :=
  let s0 := advance t s
  let due := fun (x : Stream) => match openRec s0 x.sid 0 with
    | some r => decide ((s0.lv Reg.ZONE_EVT_FLUSH * 1000 * duPerNs : Nat) ≤ tDiff s0.time r.born)
    | none => false
  .next (((s0.streamsOf 0x07 fun _ => true).filter due).foldl (fun s x => closeOpen x.sid 0 s) s0)

end Sys2Proof.Machine
end

