-- ==== Sys2Proof/Machine/Slow.lean ====
section
/-!
DEFINITION. The slow-time chain (chapter 8, R192 to R215).
-/

namespace Sys2Proof.Machine

/-! ### banks (R197 to R202) -/

/-- Coefficient `i` of a bank, signed; entry 0 of each bank is 32,767 at reset (R200). -/
def coefOf (x : Slow) (bank i : Nat) : Int := sx 16 (Amap.get x.coef (bank * 512 + i) (if i = 0 then 32767 else 0))

/-- Σ|h| of a bank over T entries (R198). -/
def coefSum (x : Slow) (bank taps : Nat) : Nat := (List.range taps).foldl (fun a i => a + (coefOf x bank i).natAbs) 0

/-- The bank, F and GD that the output at series sample `j` uses (R202). -/
def bankAt (x : Slow) (j : Int) : BankUse :=
  (x.banks.find? fun b => (b.from_ : Int) ≤ j).getD ((x.banks.getLast?).getD { from_ := 0, bank := 0, shift := 0, gd := 0 })

/-- The series sample at which the block being read begins. -/
def blockStart (s : State) (n : Lane) : Nat :=
  (s.slow.get n).parts / max (s.lv (Reg.SLOWn_CT_FRAMES.pg n)) 1 * blockLen s.live n

/-- The series sample of the first FIR output still to be computed: a resampler begins seven outputs before the block (R204, R208). -/
def firstToCompute (s : State) (n : Lane) : Int :=
  blockStart s n - (if s.on (Reg.SLOWn_RS_CFG_EN.pg n) then 7 * slowDec s.live n else 0 : Nat)

/-- The bank in use by the newest settings. -/
def bankNow (s : State) (n : Lane) : Nat :=
  if s.laneState n = 0 then s.lv (Reg.SLOWn_FIR_CFG_BANK.pg n)
  else ((s.slow.get n).banks.head?.map (·.bank)).getD (s.lv (Reg.SLOWn_FIR_CFG_BANK.pg n))

/-- A bank is busy (R201): active, or an output still uses it, or a swap to it is pending. [DEDUCED: log 41] -/
def bankBusy (s : State) (n : Lane) (k : Nat) : Bool :=
  let x := s.slow.get n
  bankNow s n == k ||
    (s.laneState n != 0 && (List.zip x.banks (x.banks.drop 1)).any fun e => e.2.bank == k && decide (firstToCompute s n < (e.1.from_ : Int)))

/-- SLOWn_STATUS (R214). [DEDUCED: log 41] -/
def syncBanks (n : Lane) (s : State) : State :=
  let x := s.slow.get n
  let used := (x.banks.find? (·.used)).getD { from_ := 0, bank := bankNow s n, shift := 0, gd := 0 }
  ((s.setSt (Reg.SLOWn_STATUS_BANK_ACTIVE.pg n) used.bank).setSt (Reg.SLOWn_STATUS_BANK_BUSY.pg n)
    (bit (bankBusy s n 0) + 2 * bit (bankBusy s n 1))).setSt (Reg.SLOWn_STATUS_SWAP_PENDING.pg n)
    (bit (x.banks.any fun b => b.swap && !b.used))

/-- COEF_WRITE (R200, R201). -/
def execCoefWrite (q : Requester) (n : Lane) (w : Word) (s : State) : Res :=
  .next (s.busWrite q (0x02C + n) fun s =>
    let i := s.winIndex q (0x02C + n)
    let bank := i / 512 % 2
    let ok := if s.lv (Reg.SLOWn_FIR_CFG_POLICY.pg n) = 0 then s.laneState n == 0 else !bankBusy s n bank
    let x := s.slow.get n
    let s1 := if ok then s.setSlow n { x with coef := Amap.put (bank * 512 + i % 512) (w.toNat % 65536) x.coef }
      else (s.bump (Reg.SLOWn_COEF_REJECTS.pg n)).raise (0x02C + n) 2
    s1.setWinIndex q (0x02C + n) (bank * 512 + (i + 1) % 512))

/-! ### the filters -/

/-- The coefficients of the boxcar of `r` samples to the `k`-th power (R196). -/
def boxcar : Nat → Nat → List Int
  | 0, _ => [1]
  | k + 1, r =>
    let l := boxcar k r
    (List.range (l.length + r - 1)).map fun i => sumI ((List.range r).map fun j => if j ≤ i then l.getD (i - j) 0 else 0)

/-- CIC outputs `q0` to `q0 + m − 1` before saturation, from inputs that begin at series sample `j0` (R195). -/
def cicRaw (c : RegFile) (n : Lane) (j0 : Int) (x : List Int) (q0 : Int) (m : Nat) : List Int :=
  let r := RegFile.get c (Reg.SLOWn_CIC_RATIO.pg n)
  let at_ := fun (j : Int) => if j < j0 then 0 else x.getD (j - j0).toNat 0
  if r ≤ 1 then (List.range m).map fun (i : Nat) => at_ (q0 + (i : Int))
  else
    let taps := boxcar (RegFile.get c (Reg.SLOWn_CIC_ORDER.pg n)) r
    let sh := RegFile.get c (Reg.SLOWn_CIC_SHIFT.pg n)
    (List.range m).map fun (i : Nat) =>
      let acc := sumI (taps.zipIdx.map fun e => e.1 * at_ ((q0 + (i : Int)) * r - e.2))
      sx 40 (ux 40 acc) / (2 ^ sh : Nat)

/-- CIC outputs, saturated. -/
def cicOut (c : RegFile) (n : Lane) (j0 : Int) (x : List Int) (q0 : Int) (m : Nat) : List Int := (cicRaw c n j0 x q0 m).map (satS 24)

/-- The stage outputs of a block's read span that saturate, those before the registers have filled among them (R195). -/
def cicSat (c : RegFile) (n : Lane) (j0 : Int) (x : List Int) : Nat :=
  let r := RegFile.get c (Reg.SLOWn_CIC_RATIO.pg n)
  if r ≤ 1 then 0
  else
    let q0 := ceilDiv j0 r
    let q1 := (j0 + x.length - 1) / (r : Int)
    ((cicRaw c n j0 x q0 (q1 + 1 - q0).toNat).filter fun v => satS 24 v != v).length

/-- FIR outputs `i0` to `i0 + m − 1` of a point whose inputs begin at series sample `j0` (R197). [DEDUCED: log 11] -/
def firOut (c : RegFile) (n : Lane) (sl : Slow) (j0 : Int) (x : List Int) (i0 : Int) (m : Nat) : List Int :=
  let t := RegFile.get c (Reg.SLOWn_FIR_CFG_TAPS.pg n)
  let df := RegFile.get c (Reg.SLOWn_FIR_CFG_DEC.pg n)
  let q0 := i0 * df - (t - 1 : Nat)
  let cs := cicOut c n j0 x q0 ((m - 1) * df + t)
  (List.range m).map fun (k : Nat) =>
    let b := bankAt sl ((i0 + (k : Int)) * slowDec c n)
    let f := min b.shift 24
    let acc := sumI ((List.range t).map fun (a : Nat) => coefOf sl b.bank a * cs.getD (k * df + (t - 1) - a) 0)
    sx 40 (ux 40 ((sx 40 (ux 40 acc) + (if f = 0 then 0 else 2 ^ (f - 1) : Nat)) / (2 ^ f : Nat)))

/-! ### instants (R204 to R207) -/

/-- The nominal instant of series sample `j` (R171). [DEDUCED: log 50] -/
def sampleInst (s : State) (n : Lane) (j : Int) : Time :=
  let ct := (s.slow.get n).ct
  match (if 0 ≤ j then Amap.find j.toNat ct else none), ct with
  | some r, _ => r.inst
  | none, (k, r) :: _ => r.inst + BitVec.ofInt 64 ((j - k) * (s.lanePeriod n * duPerNs : Nat) / (kPhz s.live n : Nat))
  | none, [] => 0

/-- τ_g in device units, for a GD (R207). -/
def groupDelay (s : State) (n : Lane) (gd : Nat) : Nat :=
  let r := s.lv (Reg.SLOWn_CIC_RATIO.pg n)
  (s.lv (Reg.SLOWn_CIC_ORDER.pg n) * (r - 1) + gd * r) * (s.lanePeriod n * duPerNs) / (2 * kPhz s.live n)

/-- The nominal instant of FIR output `i` (R207). -/
def firInst (s : State) (n : Lane) (i : Int) : Time :=
  let j := i * slowDec s.live n
  sampleInst s n j - BitVec.ofNat 64 (groupDelay s n (bankAt (s.slow.get n) j).gd)

/-- The tick and the number of the lane frame that contains an instant. -/
def frameOf (s : State) (n : Lane) (t : Time) : Time × Nat :=
  let ct := (s.slow.get n).ct
  match (ct.filter fun e => !tBefore t e.2.tick).getLast?, ct with
  | some e, _ => (e.2.tick, e.2.frame)
  | none, (_, r) :: _ =>
    let per := max (s.lanePeriod n * duPerNs) 1
    let back := ceilDiv (tDiff r.tick t) per
    (r.tick - BitVec.ofInt 64 (back * per), r.frame - back.toNat)
  | none, [] => (t, 0)

/-- The flags by tile of an output whose span is series samples `a` to `b` (R209). -/
def spanFlags (s : State) (n : Lane) (a b : Int) : Amap Nat :=
  let c := s.live
  let w := rateBytes c n
  (List.range ((points c n + 255) / 256)).map fun t =>
    let f := (s.slow.get n).ct.foldl (fun f e =>
      if a ≤ e.1 ∧ (e.1 : Int) ≤ b then
        let bad := poisoned s (ctAddr s n e.1 + t * 256 * w) (min 256 (points c n - t * 256) * w)
        f ||| Amap.get e.2.flags t 0 ||| bit bad * 8
      else f) 0
    (t, if a < 0 then f ||| 16 else f)

/-- S (R208). -/
def slowSpan (c : RegFile) (n : Lane) : Nat :=
  slowOverlap c n + 1 - (if RegFile.get c (Reg.SLOWn_RS_CFG_EN.pg n) = 0 then 0 else 7 * slowDec c n)

/-- The grid instant at or after `t` of the locked grid (R205), which a slew moves. [DEDUCED: log 122] -/
def lockedAfter (s : State) (n : Lane) (t : Time) : Time :=
  let p := max (s.lv (Reg.SLOWn_RS_PERIOD.pg n) * duPerNs) 1
  let m := mappedAt s t
  let u := t + BitVec.ofNat 64 ((p - m % p) % p)
  u - BitVec.ofInt 64 ((mappedAt s u : Int) - ((m + p - 1) / p * p : Nat))

/-- The next grid instant (R205, R206), and how many are passed over. -/
def nextGrid (s : State) (n : Lane) : Time × Nat :=
  let x := s.slow.get n
  let p := s.lv (Reg.SLOWn_RS_PERIOD.pg n) * duPerNs
  let lock := s.on (Reg.SLOWn_RS_CFG_LOCK.pg n)
  match x.lastInst with
  | none => (if lock then lockedAfter s n (firInst s n 0) else firInst s n 0, 0)
  | some l =>
    if !lock then (l + BitVec.ofNat 64 p, 0)
    else
      let u := lockedAfter s n (l + BitVec.ofNat 64 ((p + 1) / 2))
      (u, if x.realign && lockedAfter s n (l + 1) != u then 1 else 0)

/-- The effective FIR output and phase of a grid instant (R204), given FIR instants from `i0` on. -/
def gridPhase (ts : List Time) (i0 : Int) (u : Time) : Option (Int × Nat) :=
  match (ts.zipIdx.filter fun e => !tBefore u e.1).getLast? with
  | none => none
  | some (ti, k) =>
    match ts[k + 1]? with
    | none => none
    | some tn =>
      let mu := (divRound (256 * tDiff u ti) (tDiff tn ti).toNat).toNat
      if mu = 256 then some (i0 + k + 1, 0) else some (i0 + k, mu)

/-- A row of a chain output. -/
def outRow (s : State) (n : Lane) (t : Time) (a b : Int) : Row :=
  let f := frameOf s n t
  { inst := t, tick := f.1, frame := f.2, flags := spanFlags s n a b }

/-- FIR outputs per block. -/
def blockFir (c : RegFile) (n : Lane) : Nat := blockLen c n / max (slowDec c n) 1

/-- The FIR instants that the resampler uses in block `b`, from output b · n_b − 7 on. -/
def rsInsts (s : State) (n : Lane) (b : Nat) : Int × List Time :=
  let nb := blockFir s.live n
  let i0 : Int := (b * nb : Nat) - (7 : Int)
  (i0, (List.range (nb + 7)).map fun (k : Nat) => firInst s n (i0 + (k : Int)))

/-- The resampled outputs of block `b` (R204 to R206), as far as their FIR outputs reach; at most `k`. -/
def rsRows (n : Lane) (b : Nat) : Nat → State → State
  | 0, s => s
  | k + 1, s =>
    let g := nextGrid s n
    let ti := rsInsts s n b
    match gridPhase ti.2 ti.1 g.1 with
    | none => s
    | some (i, _) =>
      let d : Int := slowDec s.live n
      if (((b + 1) * blockFir s.live n : Nat) : Int) ≤ i + 4 then s
      else
        let x := s.slow.get n
        let row := outRow s n g.1 ((i - 3) * d - slowSpan s.live n + 1) ((i + 4) * d)
        rsRows n b k ((s.bumpBy (Reg.SLOWn_RS_SKIPPED.pg n) g.2).setSlow n { x with
          rows := Amap.put x.outs row x.rows, outs := x.outs + 1, lastInst := some g.1, realign := false })

/-- Block `b` is begun: the rows of its outputs (R192, R199), the zone table it uses (R258) and swaps done (R202). After a realignment the rows
of the block before it, which stayed on the old grid, share no record with them (R206). [DEDUCED: log 122] -/
def beginBlock (n : Lane) (b : Nat) (s : State) : State :=
  let c := s.live
  let nb := blockFir c n
  let s0 := adoptTable n b (s.when (s.slow.get n).realign fun s =>
    (s.streamsOf 0x05 fun x => x.lane == n.val).foldl (fun s x => closeOpen x.sid 0 s) s)
  let x := s0.slow.get n
  let rs := s0.on (Reg.SLOWn_RS_CFG_EN.pg n)
  let s1 := if rs then rsRows n b (2 * nb + 8) (s0.setSlow n { x with rows := [] })
    else
      let rows := (List.range nb).map fun k =>
        let i := b * nb + k
        let j : Int := (i * slowDec c n : Nat)
        (i, outRow s0 n (firInst s0 n i) (j - slowSpan c n + 1) j)
      s0.setSlow n { x with rows := rows, outs := (b + 1) * nb }
  let y := s1.slow.get n
  let last : Int := (((b + 1) * blockLen c n : Nat) : Int) - slowDec c n
  let done := y.banks.any fun u => u.swap && !u.used && decide ((u.from_ : Int) ≤ last)
  let mark := y.banks.map fun (u : BankUse) => if (u.from_ : Int) ≤ last then { u with used := true } else u
  syncBanks n ((s1.setSlow n { y with banks := mark }).raiseIf done (0x02C + n) 3)

/-- A resampled output (R204): phase μ of the 8-tap prototype over eight FIR outputs, rounded to nearest, in 40 bits. [DEDUCED: log 32] -/
def resample (mu : Nat) (ys : List Int) : Int :=
  let acc := sumI (ys.zipIdx.map fun e => (Config.resampleTap mu e.2).toInt * e.1)
  sx 40 (ux 40 (divRound acc (2 ^ Config.resampleBits.toNat)))

/-- The outputs of point `p` in block `b`, one for each row, and the saturated CIC values. -/
def pointOuts (s : State) (n : Lane) (b p : Nat) : List Int × Nat :=
  let c := s.live
  let x := s.slow.get n
  let w := rateBytes c n
  let j0 : Int := ((b * blockLen c n : Nat) : Int) - slowOverlap c n
  let ins := (List.range (blockLen c n + slowOverlap c n)).map fun (k : Nat) =>
    let j := j0 + (k : Int)
    if j < 0 then 0 else match Amap.find j.toNat x.ct with
      | some r => if poisoned s (ctAddr s n j.toNat + p * w) w then 0 else r.vals.getD p 0
      | none => 0
  let nb := blockFir c n
  if s.on (Reg.SLOWn_RS_CFG_EN.pg n) then
    let ti := rsInsts s n b
    let ys := firOut c n x j0 ins ti.1 (nb + 7)
    (x.rows.map fun r =>
      match gridPhase ti.2 ti.1 r.2.inst with
      | some (i, mu) => resample mu ((List.range 8).map fun (k : Nat) => ys.getD (i - 3 + (k : Int) - ti.1).toNat 0)
      | none => 0, cicSat c n j0 ins)
  else (firOut c n x j0 ins (b * nb : Nat) nb, cicSat c n j0 ins)

/-! ### FILTERED (R212, R213) -/

/-- The preamble of a FILTERED payload. -/
def filteredLead (b : Nat) (inst : Time) (period : Nat) : List Byte :=
  let l := leBytes 8 inst.toNat ++ leBytes 8 period
  l ++ List.replicate ((if b = 2 then 16 else if b = 3 then 18 else 20) - 16) 0

/-- The block's outputs of a selection's points join its FILTERED record; it closes at the selection's count of lane
frames. -/
def filteredRows (n : Lane) (x : Stream) (a m : Nat) (s : State) : State :=
  let b := outBytes s.live n
  let per := max (s.lanePeriod n * duPerNs) 1
  let out := outPeriod s n
  (s.slow.get n).rows.foldl (fun s e =>
    let r := e.2
    let r0 : Rec := { product := 0x05, width := widthCode b, time := r.tick, firstPoint := BitVec.ofNat 32 (n.val * 2 ^ 31 + a)
                      pointCount := m, lead := filteredLead b r.inst out }
    if tDiff r.tick x.since ≤ 0 then s else
    let s1 := growOpen x 0 r0 (fun y => { y with
      body := y.body ++ valBytes b ((r.vals.drop a).take m), flags := y.flags ||| recFlags (rowFlags r a m), till := r.inst
      frameCount := (tDiff r.tick y.time / per).toNat + 1 }) s
    match openRec s1 x.sid 0 with
    | some y =>
      let nxt := r.inst + BitVec.ofNat 64 (out / 2 ^ 24)
      if (x.sel.frames : Int) ≤ tDiff nxt y.time / per then closeOpen x.sid 0 s1 else s1
    | none => s1) s

/-! ### a part -/

/-- The outputs of a part of block `b`, points `p0` to `p1 − 1`, and the saturated CIC values; those of a part discarded by an SRAM error have
no stated value (R15). -/
def partOuts (s : State) (n : Lane) (b p0 p1 : Nat) (lost : Bool) : List (List Int × Nat) :=
  let m := (s.slow.get n).rows.length
  (List.range (p1 - p0)).map fun k =>
    if lost then ((List.range m).map fun i => (Config.lostOutput (s.free + k * m + i)).toInt, 0) else pointOuts s n b (p0 + k)

/-- The rows of the block with the values of a part; a discarded part carries HOLE (R15). -/
def partRows (rows : Amap Row) (outs : List (List Int × Nat)) (p0 p1 : Nat) (lost : Bool) : Amap Row :=
  rows.zipIdx.map fun e =>
    let r := e.1.2
    let hole := fun (f : Nat × Nat) => if lost ∧ p0 / 256 ≤ f.1 ∧ f.1 * 256 < p1 then (f.1, f.2 ||| 8) else f
    (e.1.1, { r with vals := r.vals ++ outs.map (fun o => o.1.getD e.2 0), flags := r.flags.map hole })

/-- SLOW_PART (R15, R192): the next part of the lane's block, once PHZ has written the whole block. -/
def execSlowPart (n : Lane) (s0 : State) (e : Sram := ⟨0, false⟩) : Res :=
  let s := sramMet e s0
  let c := s.live
  let x := s.slow.get n
  let fb := s.lv (Reg.SLOWn_CT_FRAMES.pg n)
  let b := x.parts / max fb 1
  let i := x.parts % max fb 1
  .next (if fb = 0 ∨ x.next < (b + 1) * blockLen c n then s else
    let s0 := if i = 0 then beginBlock n b s else s
    let p := points c n
    let p0 := i * p / fb
    let p1 := (i + 1) * p / fb
    let outs := partOuts s0 n b p0 p1 e.lost
    let cic := outs.foldl (fun a o => a + o.2) 0
    let wide := outBytes c n
    let sat := if wide = 5 then 0 else
      outs.foldl (fun a o => a + (o.1.filter fun v => satN (8 * wide) v != v).length) 0
    let y := s0.slow.get n
    let rows := partRows y.rows outs p0 p1 e.lost
    let spent := if e.lost then (p1 - p0) * y.rows.length else 0
    let s1 := frameDone (4 + n) ({ s0 with free := s0.free + spent }.setSlow n { y with rows := rows, parts := x.parts + 1 })
    let s2 := (s1.bumpBy (Reg.SLOWn_CIC_SAT.pg n) cic).raiseIf (cic != 0) (0x02C + n) 0
    let s3 := (s2.bumpBy (Reg.SLOWn_OUT_SAT.pg n) sat).raiseIf (sat != 0) (0x02C + n) 1
    let s4 := if histSrc s3 n = 1 then
        captAdvance n (rows.foldl (fun s e => histPut n e.1 e.2 p0 (e.2.vals.drop p0) s) s3)
      else s3
    let s5 := (s4.streamsOf 0x05 fun z => z.lane == n.val).foldl (fun s z =>
      match selRange z.sel p with
      | some (a, m) => if p0 < a + m ∧ a + m ≤ p1 then filteredRows n z a m s else s
      | none => s) s4
    let s6 := zonePart n p0 p1 rows s5
    syncBanks n (if i + 1 = fb then zoneBlockEnd n rows s6 else s6))

/-! ### lane start, commits, the epoch -/

/-- The lane's RESTART fields have taken effect: SLOW begins with them. -/
def startSlow (n : Lane) (s0 : State) : State :=
  let f := Reg.SLOWn_FIR_CFG_BANK.pg n
  let x := s0.slow.get n
  let use : BankUse := {
    from_ := 0, bank := s0.lv f, shift := s0.lv (Reg.SLOWn_FIR_SCALE_SHIFT.pg n), gd := s0.lv (Reg.SLOWn_FIR_SCALE_GD.pg n), used := true }
  syncBanks n (((s0.setSlow n { coef := x.coef, banks := [use] }).setSt (Reg.SLOWn_OVERLAP.pg n) (slowOverlap s0.live n)).setSt
    (Reg.SLOWn_GROUP_DELAY.pg n) (groupDelay s0 n use.gd / duPerNs))

/-- A commit of the SLOW page has applied at the tick of lane frame `f`; `old` was in force before it (R202). -/
def commitSlow (n : Lane) (f : Nat) (old : RegFile) (s : State) : State :=
  let fb := Reg.SLOWn_FIR_CFG_BANK.pg n
  let x := s.slow.get n
  let b0 := RegFile.get old fb
  let gd := s.lv (Reg.SLOWn_FIR_SCALE_GD.pg n)
  let sh := s.lv (Reg.SLOWn_FIR_SCALE_SHIFT.pg n)
  let s1 := s.setSt (Reg.SLOWn_GROUP_DELAY.pg n) (groupDelay s n gd / duPerNs)
  if s.lv (Reg.SLOWn_FIR_CFG_POLICY.pg n) = 0 ∨ s.laneState n = 0 ∨ s.lv fb = b0 then
    if s.laneState n = 0 then syncBanks n s1
    else s1.setSlow n { x with banks := { from_ := f * kPhz s.live n, bank := bankNow s n, shift := sh, gd := gd } :: x.banks }
  else if 65536 < coefSum x (s.lv fb) (s.lv (Reg.SLOWn_FIR_CFG_TAPS.pg n)) then
    ((s1.setLive fb b0).setSlow n { x with
      banks := { from_ := f * kPhz s.live n, bank := bankNow s n, shift := sh, gd := gd } :: x.banks }).raise (0x02C + n) 4
  else
    syncBanks n ((s1.setSlow n { x with
      banks := { from_ := f * kPhz s.live n, bank := s.lv fb, shift := sh, gd := gd, swap := true } :: x.banks }).setSt
      (Reg.SLOWn_SWAP_TICK.pg n) s.tickCount)

/-- A committed epoch write has moved a lane's locked grid (R206). -/
def realignLane (before : State) (s : State) (n : Lane) : State :=
  let p := max (s.lv (Reg.SLOWn_RS_PERIOD.pg n) * duPerNs) 1
  if !s.on (Reg.SLOWn_RS_CFG_EN.pg n) || !s.on (Reg.SLOWn_RS_CFG_LOCK.pg n) || s.laneState n == 0 || !usesSlow s.live n ||
      mappedUnits before s.time % p == mappedUnits s s.time % p then s
  else
    let s1 := (s.streamsOf 0x05 fun x => x.lane == n.val).foldl (fun s x => closeOpen x.sid 0 s) s
    ((s1.setSlow n { s1.slow.get n with realign := true }).bump (Reg.SLOWn_RS_REALIGNS.pg n)).raise (0x02C + n) 5

/-- The commit of the epoch registers with its effect on the resamplers (R61, R206). -/
def epochWrite (lo : Word) (s : State) : State :=
  let s1 := epochCommit lo s
  realignLane s (realignLane s s1 0) 1

/-- EPOCH_SET (R61). -/
def execEpochSet (q : Requester) (t : Time) (lo : Word) (s : State) : Res :=
  .next ((advance t s).shadowWrite q 0x012 (epochWrite lo))

end Sys2Proof.Machine
end

