-- ==== Sys2Proof/Machine/Bus.lean ====
section
/-!
DEFINITION. Register words: the fields of a word, and what a write and a read of one do by themselves (R4 to R8, R545, R546).
-/

namespace Sys2Proof.Machine

/-- The register field that a key of the register file names. -/
def fieldOfKey (k : Nat) : Option Fld :=
  let p := k / 32 / 4096
  let o := k / 32 % 4096
  (Reg.pageFields p).findSome? fun f =>
    if f.lo = k % 32 then f.at? p o else none

/-- The fields of the word at `off` of a page. [DEDUCED: log 99] -/
def wordFields (page off : Nat) : List Fld := (Reg.pageFields page).filterMap fun f => f.at? page off

/-- The bits of field `f` in a written word. -/
def fieldBits (f : Fld) (w : Nat) : Nat := w / 2 ^ f.lo % 2 ^ f.width

/-- Write one field: a written value is the shadow; a field with effect NOW takes effect with it, one with effect TICK waits for
its tick (R7); RO, RC, W1C, WO and W1S fields are not stored (R4, R546). -/
def writeField (f : Fld) (w : Nat) (s : State) : State :=
  if f.ty = .rw then
    let v := fieldBits f w
    let s1 := { s with shadow := RegFile.set s.shadow f v }
    match f.eff with
    | .now => s.setNow f v
    | .tick =>
      let t : TickWrite := { at_ := s.time, key := f.key, value := BitVec.ofNat 32 v }
      { s1 with tickQ := s1.tickQ ++ [t] }
    | _ => s1
  else s

/-- Write every field of a word. [DEDUCED: log 99] -/
def writeWord (page off w : Nat) (s : State) : State := (wordFields page off).foldl (fun s f => writeField f w s) s

end Sys2Proof.Machine
end

