-- ==== Sys2Proof/Machine/Codec.lean ====
section
/-!
DEFINITION. The bitstream of the stream codec (chapter 13, R319 to R333): predictors, Rice code, blocks, and their decoder.
-/

namespace Sys2Proof.Machine

/-! ### the sample array (R321, R322) -/

/-- Bytes of a sample, and bits of a component, for a sample width code. -/
def codeBytes (code : Nat) : Nat := ([1, 2, 3, 4, 5, 5] : List Nat).getD code 5
def compBits (code : Nat) : Nat := ([8, 16, 24, 32, 40, 20] : List Nat).getD code 40

/-- W: samples per row. -/
def rowLen (product points : Nat) : Nat :=
  match product with
  | 0x0A => 2 | 0x07 => 12 | 0x0B => 6 | 0x0C => 3 | 0x0D => 1 | _ => points

/-- R: rows per frame step. -/
def rowStep (product orig points frames : Nat) : Nat :=
  if product = 0x02 ∨ product = 0x0E then max 1 (orig / (5 * points * frames)) else 1

/-- Bytes of the lead that a header implies; `code` is the sample width code. -/
def leadLen (product code points : Nat) : Nat :=
  match product with
  | 0x05 => if code = 1 then 16 else if code = 2 then 18 else 20
  | 0x06 => (16 + 2 * points + 4) / 5 * 5
  | 0x08 => 64
  | 0x09 => 48
  | 0x0A => 40
  | _ => 0

/-- `n` words of `b` bytes, little-endian. -/
def wordsOf (b : Nat) : Nat → List Byte → List Nat
  | 0, _ => []
  | n + 1, l => leNat (l.take b) :: wordsOf b n (l.drop b)

/-- `n` rows of `w` words. -/
def rowsOf (w : Nat) : Nat → List Nat → List (List Nat)
  | 0, _ => []
  | n + 1, l => l.take w :: rowsOf w n (l.drop w)

/-! ### prediction (R326, R327) -/

/-- A sample and the samples it may be predicted from: one frame earlier, two frames earlier, the previous point, and the
previous point one frame earlier. -/
structure Ref where
  x : Nat
  up : Nat
  up2 : Nat
  left : Nat
  leftUp : Nat

/-- The references of a row, from its left neighbours on. -/
def refsRow (left leftUp : Nat) : List Nat → List Nat → List Nat → List Ref
  | [], _, _ => []
  | x :: xs, up, up2 => ⟨x, up.headD 0, up2.headD 0, left, leftUp⟩ :: refsRow x (up.headD 0) xs up.tail up2.tail

/-- The references of a record's rows with the history before them; a row that is not held reads 0. -/
def refsAll (step : Nat) (hist rows : List (List Nat)) : List Ref :=
  let all := hist ++ rows
  let h := hist.length
  rows.zipIdx.flatMap fun e =>
    let at_ := fun (d : Nat) => if d ≤ h + e.2 then all.getD (h + e.2 - d) [] else []
    refsRow 0 0 e.1 (at_ step) (at_ (2 * step))

/-- Component `j` of a sample word: I and Q of code 5, else the word (R321). -/
def component (two : Bool) (j word : Nat) : Nat := if two then (if j = 0 then word / 2 ^ 20 % 2 ^ 20 else word % 2 ^ 20) else word

/-- The prediction of a component, modulo 2^w. -/
def predictW (pred w up up2 left leftUp : Nat) : Nat :=
  let m : Nat := 2 ^ w
  match pred with
  | 0 => 0
  | 1 => up % m
  | 2 => (2 * up + m - up2 % m) % m
  | 3 => left % m
  | _ => (left + up + m - leftUp % m) % m

/-- The prediction of component `j` of a sample. -/
def predictRef (pred w : Nat) (two : Bool) (j : Nat) (r : Ref) : Nat :=
  predictW pred w (component two j r.up) (component two j r.up2) (component two j r.left) (component two j r.leftUp)

/-- The residual, mapped to unsigned (R328), and back. -/
def zigzag (w e : Nat) : Nat := if e < 2 ^ (w - 1) then 2 * e else 2 ^ (w + 1) - 2 * e - 1
def unzigzag (w u : Nat) : Nat := if u % 2 = 0 then u / 2 else 2 ^ w - 1 - u / 2

/-! ### the Rice code (R329) -/

/-- The smallest k from `k` on with N · 2^k ≥ A, at most w − 1. -/
def riceK (w a n : Nat) : Nat → Nat → Nat
  | 0, _ => w - 1
  | f + 1, k => if a ≤ n * 2 ^ k then k else riceK w a n f (k + 1)

/-- k of a plane. -/
def planeK (w a n : Nat) : Nat := riceK w a n (w - 1) 0

/-- The low `k` bits of a number, most significant first. -/
def bitsMsb (k u : Nat) : List Bool := (List.range k).map fun i => u / 2 ^ (k - 1 - i) % 2 == 1

/-- The code of a residual. -/
def riceBits (w k u : Nat) : List Bool :=
  let q := u / 2 ^ k
  if q < 32 then List.replicate q true ++ false :: bitsMsb k u else List.replicate 32 true ++ bitsMsb w u

/-- A and N after a residual. -/
def riceNext (a n u : Nat) : Nat × Nat :=
  let a1 := (a + u) % 2 ^ 48
  if n + 1 = 64 then (a1 / 2, 32) else (a1, n + 1)

/-- A and N of plane `j`. -/
def Coder.plane (c : Coder) (j : Nat) : Nat × Nat := if j = 0 then (c.a0, c.n0) else (c.a1, c.n1)
def Coder.setPlane (c : Coder) (j : Nat) (p : Nat × Nat) : Coder :=
  if j = 0 then { c with a0 := p.1, n0 := p.2 } else { c with a1 := p.1, n1 := p.2 }

/-- The state of R329 and R332 at a reset. -/
def Coder.fresh : Coder := {}

/-- Code one component. -/
def codeComp (pred w : Nat) (two : Bool) (r : Ref) (acc : List Bool × Coder) (j : Nat) : List Bool × Coder :=
  let p := acc.2.plane j
  let k := planeK w p.1 p.2
  let e := (component two j r.x % 2 ^ w + 2 ^ w - predictRef pred w two j r) % 2 ^ w
  let u := zigzag w e
  ((riceBits w k u).reverse ++ acc.1, acc.2.setPlane j (riceNext p.1 p.2 u))

/-- The planes of a width code. -/
def planes (two : Bool) : List Nat := if two then [0, 1] else [0]

/-- The bits of a block under a predictor, and the state after it. -/
def codeBits (pred w : Nat) (two : Bool) (refs : List Ref) (c : Coder) : List Bool × Coder :=
  let r := refs.foldl (fun acc x => (planes two).foldl (codeComp pred w two x) acc) ([], c)
  (r.1.reverse, r.2)

/-- Bits to bytes, bit 7 first, padded with zeros; `n` bytes. -/
def packBits : Nat → List Bool → List Byte
  | 0, _ => []
  | n + 1, l =>
    BitVec.ofNat 8 (((l.take 8) ++ List.replicate (8 - (l.take 8).length) false).foldl (fun a b => 2 * a + bit b) 0) ::
      packBits n (l.drop 8)

/-! ### blocks (R323 to R325, R330, R331) -/

/-- A block header. -/
def blockHeader (raw : Bool) (pred k len : Nat) : List Byte := leBytes 4 (2 ^ 31 * bit raw + 2 ^ 28 * pred + 2 ^ 24 * min k 15 + len)

/-- The opening block. -/
def openingBlock (reset : Bool) (lead : List Byte) : List Byte :=
  blockHeader true 7 0 (1 + lead.length) ++ [BitVec.ofNat 8 (bit reset)] ++ lead

/-- A block of samples under one predictor: its bytes, whether it is RAW, the state after it. -/
def blockWith (code : Nat) (refs : List Ref) (c : Coder) (pred : Nat) : List Byte × Bool × Coder × Nat :=
  let w := compBits code
  let two := code == 5
  let k := planeK w c.a0 c.n0
  let r := codeBits pred w two refs c
  let n := (r.1.length + 7) / 8
  let b := codeBytes code
  let raw := refs.length * b ≤ n
  if raw then (blockHeader true pred k (refs.length * b) ++ refs.flatMap (fun x => leBytes b x.x), true, r.2, n)
  else (blockHeader false pred k n ++ packBits n r.1, false, r.2, n)

/-- The block as the context's configuration has it: under AUTO the shortest coded data, the lowest code on a tie. -/
def blockOf (auto : Bool) (pred code : Nat) (refs : List Ref) (c : Coder) : List Byte × Bool × Coder × Nat :=
  if !auto then blockWith code refs c pred
  else
    [1, 2, 3, 4].foldl (fun best p =>
      let r := blockWith code refs c p
      if r.2.2.2 < best.2.2.2 then r else best) (blockWith code refs c 0)

/-- Blocks of 4,096 samples: each one's bytes, whether it is RAW, and the state before it; and the state after all. -/
def blocksFrom (auto : Bool) (pred code : Nat) : Nat → List Ref → Coder → List (List Byte × Bool × Coder) × Coder
  | 0, _, c => ([], c)
  | n + 1, refs, c =>
    if refs.isEmpty then ([], c)
    else
      let r := blockOf auto pred code (refs.take 4096) c
      let rest := blocksFrom auto pred code n (refs.drop 4096) r.2.2.1
      ((r.1, r.2.1, c) :: rest.1, rest.2)

/-- The rows that the history holds after a record (R327). -/
def keepRows (step w b : Nat) (all : List (List Nat)) : List (List Nat) :=
  if 2 * step * w * b ≤ 1464320 then all.drop (all.length - 2 * step) else []

/-- The history is kept for a record's W, R and b. -/
def histKept (step w b : Nat) : Bool := decide (2 * step * w * b ≤ 1464320)

/-- The blocks of a taken record and the coding state after it. [DEDUCED: log 58] -/
def codeJob (j : CodeJob) : List (List Byte × Bool × Coder) × Coder :=
  let r := j.ready.rec_
  if j.pass then ([(r.lead ++ r.body, false, j.start)], j.start)
  else
    let b := codeBytes r.width
    let w := rowLen r.product r.pointCount
    let step := rowStep r.product (r.lead.length + r.body.length) r.pointCount r.frameCount
    let n := if w = 0 then 0 else r.body.length / b / w
    let rows := rowsOf w n (wordsOf b (n * w) r.body)
    let refs := refsAll step j.start.rows rows
    let bl := blocksFrom j.auto j.pred r.width (refs.length / 4096 + 1) refs j.start
    ((openingBlock j.reset r.lead, false, j.start) :: bl.1, { bl.2 with rows := keepRows step w b (j.start.rows ++ rows) })

/-- The completed record's header with its check (R320, R372). -/
def jobHeader (j : CodeJob) (payload : Nat) : List Byte :=
  let r := j.ready.rec_
  let pay := r.lead ++ r.body
  let h := headerBytes r (!j.pass) j.ready.seq payload pay.length (crc32c pay)
  h ++ leBytes 4 (crc32c h)

/-- A record's copy that carries GAP (R377). -/
def withGap (l : List Byte) : List Byte :=
  let h := (l.take 6) ++ leBytes 2 (leNat ((l.drop 6).take 2) ||| 0x40) ++ ((l.drop 8).take 36)
  h ++ leBytes 4 (crc32c h) ++ l.drop 48

/-! ### decoding (R323 to R330, R339 to R341) -/

/-- Bits of bytes, bit 7 first. -/
def unpackBits (l : List Byte) : List Bool := l.flatMap fun b => bitsMsb 8 b.toNat

/-- A number from bits, most significant first; none where they run out. -/
def takeBits (k : Nat) (l : List Bool) : Option (Nat × List Bool) :=
  if l.length < k then none else some ((l.take k).foldl (fun a b => 2 * a + bit b) 0, l.drop k)

/-- The count of one-bits at the front, at most 32, and what follows the zero-bit, or follows the 32 ones. -/
def takeUnary : Nat → List Bool → Option (Nat × List Bool)
  | 0, l => some (0, l)
  | f + 1, l =>
    match l with
    | [] => none
    | false :: r => some (0, r)
    | true :: r => (takeUnary f r).map fun x => (x.1 + 1, x.2)

/-- Decode one residual. -/
def takeRice (w k : Nat) (l : List Bool) : Option (Nat × List Bool) :=
  match takeUnary 32 l with
  | none => none
  | some (q, r) =>
    if q = 32 then takeBits w r else (takeBits k r).map fun x => (q * 2 ^ k + x.1, x.2)

/-- The decoder's place: the completed rows (oldest first) with the history before them, the row being read, reversed, and
the state. -/
structure DecPos where
  done : List (List Nat)
  cur : List Nat
  c : Coder

/-- The references of the next sample. -/
def DecPos.ref (p : DecPos) (step : Nat) : Ref :=
  let h := p.done.length
  let at_ := fun (d : Nat) => if d ≤ h then p.done.getD (h - d) [] else []
  let i := p.cur.length
  { x := 0, up := (at_ step).getD i 0, up2 := (at_ (2 * step)).getD i 0, left := p.cur.headD 0
    leftUp := if i = 0 then 0 else (at_ step).getD (i - 1) 0 }

/-- The place after a sample. -/
def DecPos.push (p : DecPos) (w x : Nat) (c : Coder) : DecPos :=
  if p.cur.length + 1 = w then { done := p.done ++ [(x :: p.cur).reverse], cur := [], c := c }
  else { p with cur := x :: p.cur, c := c }

/-- Decode one component: its value, the bits left, the state. -/
def decComp (pred w : Nat) (two : Bool) (r : Ref) (j : Nat) (l : List Bool) (c : Coder) : Option (Nat × List Bool × Coder) :=
  let p := c.plane j
  (takeRice w (planeK w p.1 p.2) l).map fun x =>
    ((unzigzag w x.1 + predictRef pred w two j r) % 2 ^ w, x.2, c.setPlane j (riceNext p.1 p.2 x.1))

/-- Decode `n` samples of a coded block. -/
def decSamples (pred code step w : Nat) : Nat → List Bool → DecPos → Option (List Bool × DecPos)
  | 0, l, p => some (l, p)
  | n + 1, l, p =>
    let two := code == 5
    let bits := compBits code
    let r := p.ref step
    match decComp pred bits two r 0 l p.c with
    | none => none
    | some (x, l1, c1) =>
      if !two then decSamples pred code step w n l1 (p.push w x c1)
      else
        match decComp pred bits two r 1 l1 c1 with
        | none => none
        | some (y, l2, c2) => decSamples pred code step w n l2 (p.push w (x * 2 ^ 20 + y) c2)

/-- Take the samples of a RAW block (R330). -/
def rawSamples (pred code step w : Nat) : List Nat → DecPos → DecPos
  | [], p => p
  | x :: xs, p =>
    let two := code == 5
    let r := { p.ref step with x := x }
    let c := ((planes two).foldl (codeComp pred (compBits code) two r) ([], p.c)).2
    rawSamples pred code step w xs (p.push w x c)

/-- Decode the blocks after the opening block: `left` samples remain, `pay` bytes of payload. The error code of R341, or the
place at the end. `n` bounds the number of blocks. -/
def decBlocks (code step w : Nat) : Nat → Nat → List Byte → DecPos → Except Nat DecPos
  | 0, left, pay, p => if left = 0 ∧ pay.isEmpty then .ok p else .error 9
  | f + 1, left, pay, p =>
    if left = 0 then (if pay.isEmpty then .ok p else .error 9)
    else if pay.length < 4 then .error 9
    else
      let h := leNat (pay.take 4)
      let len := h % 2 ^ 24
      let pred := h / 2 ^ 28 % 8
      let data := (pay.drop 4).take len
      let rest := (pay.drop 4).drop len
      let m := min left 4096
      let b := codeBytes code
      if 4 < pred then .error 4
      else if pay.length - 4 < len then .error 5
      else if min (planeK (compBits code) p.c.a0 p.c.n0) 15 ≠ h / 2 ^ 24 % 16 then .error 8
      else if h / 2 ^ 31 = 1 then
        if len ≠ m * b then .error 6
        else decBlocks code step w f (left - m) rest (rawSamples pred code step w (wordsOf b m data) p)
      else
        match decSamples pred code step w m (unpackBits data) p with
        | none => .error 7
        | some (l, q) => if 8 < l.length ∨ l.any (fun x => x) then .error 7 else decBlocks code step w f (left - m) rest q

end Sys2Proof.Machine
end

