-- ==== Sys2Proof/Machine/Pcie.lean ====
section
/-!
DEFINITION. MSI-X messages and the channel pages' interrupt bits (R412, R432, R437).
-/

namespace Sys2Proof.Machine

/-- A function may issue nothing: it is in D3hot, or the link is in L2 (R432). -/
def State.asleep (s : State) (f : Nat) : Bool := s.pcie.l2 || s.pcie.d3.contains f

/-- Signal MSI-X vector `e` of function `f` (R412): a masked one sets its PBA bit, a sleeping function's one waits for D0. [PRESUMED: log 73] -/
def signal (f e : Nat) (s : State) : State :=
  if s.mode = 5 then s
  else if s.asleep f then
    if s.pcie.asleep.contains (f, e) then s else { s with pcie := { s.pcie with asleep := s.pcie.asleep ++ [(f, e)] } }
  else if Amap.get s.pcie.unmasked (64 * f + e) false then s.emit (.msix (Fin.ofNat 32 f) e)
  else { s with pcie := { s.pcie with pba := Amap.put (64 * f + e) true s.pcie.pba } }

/-- Raise bit `b` of a page whose bits signal a vector as they set (R412). -/
def raiseSignal (page b f e : Nat) (s : State) : State :=
  let was := s.st (irqStatus page) / 2 ^ b % 2 == 1
  let s1 := s.raise page b
  if !was && s1.lv (irqEnable page) / 2 ^ b % 2 == 1 then signal f e s1 else s1

/-- Raise bit `b` of a channel's page. -/
def raiseChan (ch b : Nat) (s : State) : State := raiseSignal (0x0C0 + ch) b (ch / 2) (1 + ch % 2) s

/-- Raise bit `b` of the DCMP page. -/
def raiseDcmp (b : Nat) (s : State) : State := raiseSignal 0x081 b 0 4 s

/-- MSIX_UNMASK (R412): the pending message is sent. [PRESUMED: log 73] -/
def execMsixUnmask (f : Func) (e : Fin 64) (s : State) : Res :=
  let k := 64 * f.val + e.val
  let s1 := { s with pcie := { s.pcie with unmasked := Amap.put k true s.pcie.unmasked, pba := Amap.del s.pcie.pba k } }
  .next (if Amap.get s.pcie.pba k false then signal f e s1 else s1)

/-! ### data writes (R416) -/

/-- The max payload size: 128, 256 or 512 bytes, as the host has set it (R407). [PRESUMED: log 73] -/
def maxPayload : Nat := 128 * 2 ^ (Config.payloadCode % 3)

/-- Bytes at an address as the device writes them: split at the max payload size and at 4 KB boundaries (R416). -/
def tlps : Nat → Nat → List Byte → List (Nat × List Byte)
  | 0, _, _ => []
  | n + 1, a, l =>
    if l.isEmpty then [] else
      let k := min (4096 - a % 4096) maxPayload
      (a, l.take k) :: tlps n (a + k) (l.drop k)

/-- Data goes to host memory; `ep o n` says whether the `n` bytes from offset `o` on are poisoned, `ro` gives them Relaxed Ordering (R420). -/
def hostData (f : Func) (a : Nat) (l : List Byte) (ep : Nat → Nat → Bool) (ro : Bool) (s : State) : State :=
  { s with out := ((tlps l.length a l).map fun e => .hostWrite f e.1 e.2 (ep (e.1 - a) e.2.length) ro).reverse ++ s.out }

/-- Data without an error. -/
def clean (_ _ : Nat) : Bool := false

def State.chan (s : State) (ch : Nat) : DmaChan := Amap.get s.pcie.chans ch {}
def State.setChan (ch : Nat) (c : DmaChan) (s : State) : State := { s with pcie := { s.pcie with chans := Amap.put ch c s.pcie.chans } }

/-- State of a channel (R414): 0 STOPPED, 1 RUNNING, 2 ABORTING, 3 HALTED. -/
def State.chanState (s : State) (ch : Nat) : Nat := s.st (Reg.DMACHn_STATUS_STATE.pg ch)

end Sys2Proof.Machine
end

