-- ==== Sys2Proof/Machine/Chain.lean ====
section
/-!
DEFINITION. Output chains and the records that consumers hold in them (R337, R380, R384, R400, R434).
-/

namespace Sys2Proof.Machine

/-- Record-memory address of a buffer. -/
def bufAddr (s : State) (b : Nat) : Nat := (regionBytes s 4).1 + 65536 * b

/-- The chain byte after the last linked buffer. -/
def Ctx.cap (c : Ctx) : Nat := c.base + bufData * c.bufs.length

/-- Link buffer `b` to a slot's chain (R337). [DEDUCED: log 59] -/
def linkBuf (slot b : Nat) (s : State) : State :=
  let c := s.ctx slot
  let s1 := match c.bufs.getLast? with
    | some p => memWrite (bufAddr s p) (leBytes 4 b) s
    | none => s
  let s2 := memWrite (bufAddr s b) (leBytes 4 0xFFFFFFFF ++ leBytes 2 c.sid ++ leBytes 2 0 ++ leBytes 4 0 ++ leBytes 4 0xFFFFFFFF) s1
  s2.setCtx slot { c with bufs := c.bufs ++ [b] }

/-- Write bytes at chain position `p`; `n` bounds the buffers met. [DEDUCED: log 59] -/
def writeChain (slot : Nat) : Nat → Nat → List Byte → State → State
  | 0, _, _, s => s
  | n + 1, p, l, s =>
    let c := s.ctx slot
    if l.isEmpty ∨ p < c.base then s
    else
      let i := (p - c.base) / bufData
      let o := (p - c.base) % bufData
      match c.bufs[i]? with
      | none => s
      | some b =>
        let k := bufData - o
        writeChain slot n (p + k) (l.drop k) (memWrite (bufAddr s b + 16 + o) (l.take k) s)

/-- FILL and the first-header offset of a slot's buffers follow a completed record from `a` to `b` (R337). [DEDUCED: log 59] -/
def fillHeaders (slot a b : Nat) (s : State) : State :=
  let c := s.ctx slot
  c.bufs.zipIdx.foldl (fun s e =>
    let lo := c.base + bufData * e.2
    if b ≤ lo ∨ lo + bufData ≤ a then s
    else
      let s1 := memWrite (bufAddr s e.1 + 8) (leBytes 4 (min bufData (b - lo))) s
      if lo ≤ a ∧ memRead s1 (bufAddr s e.1 + 12) 4 = leBytes 4 0xFFFFFFFF then memWrite (bufAddr s e.1 + 12) (leBytes 4 (a - lo)) s1
      else s1) s

/-! ### subscriber entries -/

def State.sub (s : State) (i : Nat) : Sub := Amap.get s.strm.subs i {}
def State.setSub (i : Nat) (x : Sub) (s : State) : State := { s with strm := { s.strm with subs := Amap.put i x s.strm.subs } }

/-- Change selection `k` of an entry. -/
def Sub.updSel (x : Sub) (k : Nat) (f : SubSel → SubSel) : Sub :=
  { x with sels := x.sels.zipIdx.map fun e => if e.2 = k then f e.1 else e.1 }

/-- The selections that consume a stream: entry and selection numbers. -/
def consumers (s : State) (sid : Nat) : List (Nat × Nat) :=
  s.strm.subs.flatMap fun e =>
    if e.2.st = 0 then [] else (e.2.sels.zipIdx.filter fun x => x.1.sid == sid).map fun x => (e.1, x.2)

/-- The selection's record in delivery, if it has one. -/
def Sub.inHand (x : Sub) (k : Nat) : Option Nat :=
  match x.cur, x.sels[k]? with
  | some (j, _), some ss => if j = k then ss.todo.head? else none
  | _, _ => none

/-- `n` records are dropped or skipped for a consumer (R400, R434); the first of a run signals vector 3 (R412). -/
def countDrops (i n : Nat) (first : Bool) (s : State) : State :=
  if n = 0 then s else
    let s0 := if s.mode = 5 then (s.bumpBy Reg.B50_DROPS n).b50Raise 3 else s
    let s1 := (s0.bumpBy Reg.STRM_GAP_DROPS n).raise 0x090 3
    match (s.sub i).path with
    | .mailbox f =>
      let s2 := raiseChan (s.sub i).chan 4 (s1.bumpBy (Reg.DMACHn_GAP_DROPS.pg (s.sub i).chan) n)
      if first then signal f 3 s2 else s2
    | .eth .. => s1

/-- An entry whose selections each have had a deliverable record becomes ACTIVE (R382). -/
def activate (i : Nat) (s : State) : State :=
  let x := s.sub i
  if x.st = 1 ∧ x.sels.all (·.started) then s.setSub i { x with st := 2 } else s

/-- The stream `sid`. -/
def State.stream (s : State) (sid : Nat) : Option Stream := s.strm.streams.find? fun x => x.sid = sid

/-- Force the stream to reset for a consumer (R380): at once, or at the end of the join holdoff. -/
def forceReset (sid : Nat) (s : State) : State :=
  match s.stream sid with
  | none => s
  | some x =>
    let c := s.ctx x.slot
    if c.pass then s
    else
      let hold := match x.lastReset with
        | none => false
        | some t => (tDiff s.time t).toNat < s.lv Reg.STRM_JOIN_HOLDOFF * 1000000 * duPerNs
      if hold then s.updStream sid fun y => { y with resetDue := true }
      else (s.setCtx x.slot { c with resetPending := true }).updStream sid fun y => { y with lastReset := some s.time }

/-- The slot of a record's position. -/
def recOf (c : Ctx) (seq : Nat) : Option ChainRec := c.recs.find? fun r => r.seq = seq

/-- Skip to the next record that opens: the SEQs left, and how many were skipped. -/
def skipTo (c : Ctx) : List Nat → List Nat × Nat
  | [] => ([], 0)
  | q :: r => if ((recOf c q).map (·.opens)).getD false then (q :: r, 0) else ((skipTo c r).1, (skipTo c r).2 + 1)

/-- A consumer drops the waiting records that `p` selects and resumes at the next one with RESET = 1 (R400). A record in
delivery stays. -/
def dropWaiting (i k : Nat) (p : Nat → Bool) (s : State) : State :=
  let x := s.sub i
  match x.sels[k]? with
  | none => s
  | some ss =>
    let hand := (x.inHand k).toList
    let rest := ss.todo.drop hand.length
    let gone := rest.takeWhile p
    if gone.isEmpty then s else
      let slot := ((s.stream ss.sid).map (·.slot)).getD 0
      let sk := skipTo (s.ctx slot) (rest.drop gone.length)
      let n := gone.length + sk.2
      let s1 := s.setSub i (x.updSel k fun y => { y with
        todo := hand ++ sk.1, wait := sk.1.isEmpty, after := 0, dropping := sk.1.isEmpty, gap := true, drops := y.drops + n })
      let s2 := countDrops i n (!ss.dropping) s1
      if sk.1.isEmpty then forceReset ss.sid s2 else s2

/-- A record of a slot's chain is still held by a consumer. -/
def recHeld (s : State) (sid seq : Nat) : Bool :=
  (consumers s sid).any fun e => (((s.sub e.1).sels[e.2]?).map fun ss => ss.todo.contains seq).getD false

/-- Records that no consumer holds any longer leave the chain, oldest first, and empty buffers return to the pool (R337). -/
def releaseChain (slot : Nat) (s : State) : State :=
  let c := s.ctx slot
  let recs := c.recs.dropWhile fun r => !recHeld s c.sid r.seq
  let first := (recs.head?.map (·.start)).getD c.fill
  let n := if !c.bound && recs.isEmpty then c.bufs.length else (first - c.base) / bufData
  syncBufs (s.setCtx slot { c with recs := recs, bufs := c.bufs.drop n, base := c.base + bufData * min n c.bufs.length })

/-- Consumers that hold the oldest buffer drop what lies in it (R400). [DEDUCED: log 58] -/
def gapDrop (slot : Nat) (s : State) : State :=
  let c := s.ctx slot
  let old := fun (q : Nat) => ((recOf c q).map fun r => decide (r.start < c.base + bufData)).getD true
  releaseChain slot ((consumers s c.sid).foldl (fun s e => dropWaiting e.1 e.2 old s) s)

/-- A port that a flow uses has no link (R398). -/
def noLink (s : State) (x : Sub) : Bool :=
  match x.path with
  | .eth p _ _ => s.st (Reg.ETHn_STATUS_LINK.pg p) == 0
  | .mailbox _ => false

/-- Entry `i` is carried by the multicast flow of a lower entry: same port, GROUP, DATA_PORT and selection set (R390). [DEDUCED: log 68] -/
def flowLead (s : State) (i : Nat) : Nat :=
  let x := s.sub i
  match x.path with
  | .mailbox _ => i
  | .eth p _ _ =>
    if x.body.delivery ≠ 1 then i else
      ((s.strm.subs.find? fun e =>
        (e.2.st == 1 || e.2.st == 2) && e.2.body.delivery == 1 && e.2.body.group == x.body.group &&
        e.2.body.dataPort == x.body.dataPort && e.2.body.sels == x.body.sels &&
        (match e.2.path with | .eth p' _ _ => p' == p | .mailbox _ => false)).map (·.1)).getD i

/-- What a consumer has to deliver grows by a record; an entry that another one's flow carries only follows it. [DEDUCED: log 58] -/
def takeRec (s : State) (i : Nat) (ss : SubSel) (seq : Nat) : List Nat := if flowLead s i = i then ss.todo ++ [seq] else ss.todo

/-- A record completes for one consumer: it joins what it has to deliver, or is skipped (R380, R398, R400). -/
def offerRec (r : ChainRec) (i k : Nat) (s : State) : State :=
  let x := s.sub i
  match x.sels[k]? with
  | none => s
  | some ss =>
    if x.st = 3 then s
    else if noLink s x then
      countDrops i 1 (!ss.dropping) (s.setSub i (x.updSel k fun y => { y with
        wait := true, after := 0, dropping := true, gap := true, drops := y.drops + 1 }))
    else if !ss.wait then s.setSub i (x.updSel k fun y => { y with todo := takeRec s i y r.seq })
    else if r.opens && ss.after ≤ r.no then
      activate i (s.setSub i (x.updSel k fun y => { y with
        todo := takeRec s i y r.seq, wait := false, dropping := false, started := true }))
    else if ss.dropping then countDrops i 1 false (s.setSub i (x.updSel k fun y => { y with drops := y.drops + 1 }))
    else s

/-- A record of a slot completes: the chain grows, consumers take it, and what nobody holds is released. -/
def completeRec (slot : Nat) (r : ChainRec) (s : State) : State :=
  let c := s.ctx slot
  let s1 := s.setCtx slot { c with recs := c.recs ++ [r], fill := r.start + r.bytes.length }
  releaseChain slot ((consumers s1 c.sid).foldl (fun s e => offerRec r e.1 e.2 s) (fillHeaders slot r.start (r.start + r.bytes.length) s1))

/-- Some of `n` bytes of a slot's chain from position `p` on lie in an uncorrectable code word of its buffers (R364). -/
def bytesPoisoned (s : State) (slot p n : Nat) : Bool :=
  let c := s.ctx slot
  !s.poison.isEmpty && c.bufs.zipIdx.any fun e =>
    let lo := c.base + bufData * e.2
    let a := max lo p
    let b := min (lo + bufData) (p + n)
    decide (a < b) && poisoned s (bufAddr s e.1 + 16 + (a - lo)) (b - a)

/-- Some byte of a completed record is so (R364). -/
def recPoisoned (s : State) (slot : Nat) (r : ChainRec) : Bool := bytesPoisoned s slot r.start r.bytes.length

/-- The next record of an entry: the one in delivery, else the earliest completed of its selections. The selection, the
bytes already sent, and the record. [DEDUCED: log 58] -/
def nextRec (s : State) (i : Nat) : Option (Nat × Nat × ChainRec) :=
  let x := s.sub i
  let cand := fun (k : Nat) (ss : SubSel) =>
    (s.stream ss.sid).bind fun st => ss.todo.head?.bind fun q => (recOf (s.ctx st.slot) q).map fun r => (k, r)
  match x.cur with
  | some (k, n) => (x.sels[k]?).bind fun ss => (cand k ss).map fun c => (c.1, n, c.2)
  | none =>
    if x.st ≠ 1 ∧ x.st ≠ 2 then none else
      (x.sels.zipIdx.filterMap fun e => cand e.2 e.1).foldl (fun (b : Option (Nat × Nat × ChainRec)) c =>
        match b with
        | none => some (c.1, 0, c.2)
        | some y => if c.2.done < y.2.2.done then some (c.1, 0, c.2) else b) none

/-- The bytes of a record as they go to a consumer (R377). -/
def carried (s : State) (i k : Nat) (r : ChainRec) : List Byte :=
  if (((s.sub i).sels[k]?).map (·.gapHand)).getD false then withGap r.bytes else r.bytes

/-- The delivery of the head record of a selection begins. -/
def beginRec (i k : Nat) (s : State) : State :=
  let x := (s.sub i).updSel k fun y => { y with gapHand := y.gap, gap := false }
  s.setSub i { x with cur := some (k, 0) }

/-- A consumer has delivered the record at the head of a selection: it releases it (R400). -/
def delivered (i k : Nat) (s : State) : State :=
  let x := s.sub i
  match x.sels[k]? with
  | none => s
  | some ss =>
    let y := x.updSel k fun y => { y with todo := y.todo.drop 1, gapHand := false, sent := y.sent + 1, lastSeq := y.todo.headD 0 }
    let s1 := s.setSub i { y with cur := none }
    let s2 := (s.strm.subs.filter fun e => e.1 != i && flowLead s e.1 == i).foldl (fun s e =>
      s.setSub e.1 (e.2.updSel k fun z => if z.wait then z else { z with sent := z.sent + 1, lastSeq := ss.todo.headD 0 })) s1
    match s2.stream ss.sid with
    | some st => stopAtBoundary ss.sid (releaseChain st.slot s2)
    | none => s2

/-- Link buffers until the chain reaches position `p`; whether it does. `n` bounds the links. At the quota, lagging consumers
let go of the oldest buffer first (R337, R400). -/
def linkTo (slot p : Nat) : Nat → State → State × Bool
  | 0, s => (s, p ≤ (s.ctx slot).cap)
  | n + 1, s =>
    if p ≤ (s.ctx slot).cap then (s, true)
    else
      let s1 := if (s.ctx slot).quota ≤ (s.ctx slot).bufs.length then gapDrop slot s else s
      if (s1.ctx slot).quota ≤ (s1.ctx slot).bufs.length then (s1, false)
      else
        match freeBuf s1 with
        | none => (s1, false)
        | some b => linkTo slot p n (syncBufs (linkBuf slot b s1))

/-- A link is available to a slot's chain. -/
def linkAvailable (s : State) (slot : Nat) : Bool := (s.ctx slot).bufs.length < (s.ctx slot).quota && (freeBuf s).isSome

end Sys2Proof.Machine
end

