-- ==== Sys2Proof/Machine/Cmp.lean ====
section
/-!
DEFINITION. The compress engines and the context slots (chapter 13, R331 to R338, R343).
-/

namespace Sys2Proof.Machine

def State.engine (s : State) (e : Nat) : Engine := Amap.get s.cmp.engines e {}
def State.setEngine (e : Nat) (x : Engine) (s : State) : State :=
  let s1 := { s with cmp := { s.cmp with engines := Amap.put e x s.cmp.engines } }
  s1.setSt Reg.CMP_STATUS_ENGINE ((List.range 6).foldl (fun a k => a + 8 ^ k * (s1.engine k).phase) 0)

/-- Usable slots (R334). [DEDUCED: log 61] -/
def slotCount (s : State) : Nat := min 1024 ((regionBytes s 5).2 / 1468416)

/-- The slots that admission counts (R385): in CONFIG those of the region table that the next entry to RUN takes. [DEDUCED: log 61] -/
def admitSlots (s : State) : Nat :=
  if s.mode = 1 then min 1024 ((Amap.get s.regionShadow 5 (0, 0)).2 * 2 ^ 20 / 1468416) else slotCount s

/-- An engine works for a slot. -/
def slotBusy (s : State) (slot : Nat) : Bool :=
  s.cmp.engines.any fun e => (e.2.job.map fun j => j.ready.slot == slot).getD false

/-- The oldest ready record whose stream no engine codes, ties to the lower slot (R335). -/
def pickReady (s : State) : Option Ready :=
  -- a stream's records keep their order: only the first one of each slot may be taken
  let cand := s.cmp.ready.zipIdx.filter fun e =>
    !slotBusy s e.1.slot && !(s.ctx e.1.slot).paused && !((s.cmp.ready.take e.2).any fun r => r.slot == e.1.slot)
  (cand.foldl (fun (b : Option Ready) e =>
    match b with
    | none => some e.1
    | some y => if 0 < tDiff y.at_ e.1.at_ ∨ (e.1.at_ = y.at_ ∧ e.1.slot < y.slot) then some e.1 else b) none)

/-- The record resets (R332), for its slot as it stands when the engine takes it. -/
def wantsReset (c : Ctx) (r : Rec) : Bool :=
  c.fresh || c.product != r.product || c.width != r.width || c.w != rowLen r.product r.pointCount ||
  c.r != rowStep r.product (r.lead.length + r.body.length) r.pointCount r.frameCount || c.firstPoint != r.firstPoint ||
  c.lastPass != c.pass || c.resetPending || (c.resync != 0 && decide (c.resync ≤ c.since))

/-- A reset is counted and dated (R332, R380). -/
def countReset (sid : Nat) (s : State) : State :=
  (s.bump Reg.CMP_RESETS).updStream sid fun y => { y with lastReset := some s.time }

/-- CMP_TAKE (R335): the take of a record whose coding a pause interrupted goes on from the saved block. -/
def execCmpTake (e : Fin 6) (s : State) : Res :=
  .next (if (s.engine e).phase ≠ 0 then s else
    match pickReady s with
    | none => s
    | some r =>
      let c := s.ctx r.slot
      let s0 := { s with cmp := { s.cmp with ready := s.cmp.ready.filter fun x => !(x.slot == r.slot && x.seq == r.seq) } }
      match c.held with
      | some j => (s0.setCtx r.slot { c with held := none }).setEngine e { s.engine e with phase := 1, job := some j }
      | none =>
        let p := r.rec_
        let reset := !c.pass && wantsReset c p
        let j : CodeJob := { ready := r, no := s.cmp.takes, pred := c.pred, auto := c.auto, pass := c.pass, reset := reset
                             start := if reset then Coder.fresh else c.coder }
        let c1 := { c with
          stateSid := c.sid, product := p.product, width := p.width, w := rowLen p.product p.pointCount
          r := rowStep p.product (p.lead.length + p.body.length) p.pointCount p.frameCount, firstPoint := p.firstPoint
          lastPass := c.pass, fresh := false, resetPending := c.resetPending && c.pass, resumeBlock := 0, resumeBytes := 0 }
        let s1 := { s0 with cmp := { s0.cmp with takes := s0.cmp.takes + 1 } }.setCtx r.slot c1
        (s1.when reset (countReset c.sid)).setEngine e { s.engine e with phase := 1, job := some j })

/-- The header area of a slot in record memory fails its check, or the slot holds an uncorrectable word (R332, R364). [DEDUCED: log 58] -/
def ctxBad (s : State) (slot : Nat) : Bool :=
  let c := s.ctx slot
  let a := (regionBytes s 5).1 + 1468416 * slot
  c.saved && (crc32c (memRead s a 252) != leNat (memRead s (a + 252) 4) ||
    poisoned s a (4096 + c.coder.rows.length * c.w * codeBytes c.width))

/-- CMP_RESTORE_DONE (R335): a check that fails, or an uncorrectable word, resets the record (R332). A slot whose state the
engine still holds reads no record memory. [DEDUCED: log 58] -/
def execCmpRestoreDone (e : Fin 6) (ue : Bool) (s : State) : Res :=
  let x := s.engine e
  .next (match x.job with
    | none => s
    | some j =>
      if x.phase ≠ 1 then s
      else if (ue || ctxBad s j.ready.slot) && x.store != some j.ready.slot then
        let j1 : CodeJob := if j.pass then j else { j with reset := true, start := Coder.fresh }
        -- an interrupted record is coded again from its start
        let c := s.ctx j.ready.slot
        -- a reset that the take has made already is counted once
        let again := !j.pass && (!j.reset || c.resumeBlock != 0)
        let s1 := (s.setCtx j.ready.slot { c with resumeBlock := 0, resumeBytes := 0 }).when again (countReset c.sid)
        (s1.setEngine e { x with phase := 2, job := some j1 }).raise 0x080 2
      else s.setEngine e { x with phase := 2 })

/-- The samples of a record, of one component each, that its first `k` blocks carry; the opening block carries none (R323, R325). -/
def samplesBefore (j : CodeJob) (k : Nat) : Nat :=
  if j.pass then 0 else min (j.ready.rec_.body.length / codeBytes j.ready.rec_.width) ((k - 1) * 4096)

/-- Residuals of a record's first `k` blocks (R328, R336). -/
def residualsBefore (j : CodeJob) (k : Nat) : Nat := samplesBefore j k * (if j.ready.rec_.width = 5 then 2 else 1)

/-- The history as at the start of block `k` (R327, R337): the last rows that the earlier blocks complete. -/
def rowsBefore (j : CodeJob) (k : Nat) : List (List Nat) :=
  let r := j.ready.rec_
  let b := codeBytes r.width
  let w := rowLen r.product r.pointCount
  let n := if w = 0 then 0 else samplesBefore j k / w
  let step := rowStep r.product (r.lead.length + r.body.length) r.pointCount r.frameCount
  if j.pass then j.start.rows else keepRows step w b (j.start.rows ++ rowsOf w n (wordsOf b (n * w) r.body))

/-- Residuals are counted in the compress load of the last second (R336). -/
def countLoad (n : Nat) (s : State) : State :=
  { s with cmp := { s.cmp with load := (s.time, n) :: s.cmp.load.filter fun e => decide ((tDiff s.time e.1).toNat < duPerS) } }

/-- CMP_LOAD (R336, R343): 10⁶ residuals coded in the last second, low bits dropped. [DEDUCED: log 58] -/
def cmpLoad (s : State) : Nat :=
  min 65535 (((s.cmp.load.filter fun e => decide ((tDiff s.time e.1).toNat < duPerS)).foldl (fun a e => a + e.2) 0) / 1000000)

/-- The stream pauses (R337): the state is that at the start of block `k`, whose output begins at byte `n`. [DEDUCED: log 58] -/
def pauseAt (j : CodeJob) (k n : Nat) (c : Coder) (s : State) : State :=
  let x := s.ctx j.ready.slot
  (((s.setCtx j.ready.slot { x with paused := true, held := some j, coder := { c with rows := rowsBefore j k }, resumeBlock := k, resumeBytes := n }).bump
    Reg.CMP_CHAIN_EMPTY).raise 0x080 0)

/-- Put blocks `k` on into the chain, the next one at byte `n` of the record. The state, and whether all went in. -/
def putBlocks (j : CodeJob) : List (List Byte × Bool × Coder) → Nat → Nat → State → State × Bool
  | [], _, _, s => (s, true)
  | b :: rest, k, n, s =>
    let slot := j.ready.slot
    let start := (s.ctx slot).fill
    let stop := start + n + b.1.length
    let links := stop / bufData + 2
    let r := linkTo slot stop links s
    if r.2 then
      let s1 := writeChain slot links (start + n) b.1 r.1
      putBlocks j rest (k + 1) (n + b.1.length) (s1.bumpBy Reg.CMP_RAW_BLOCKS (bit b.2.1))
    else (pauseAt j k (if k = 0 then 0 else n) b.2.2 r.1, false)

/-- The record is complete: its header is filled in, the coding state moves on, its consumers see it. -/
def finishRec (j : CodeJob) (blocks : List (List Byte × Bool × Coder)) (after : Coder) (s : State) : State :=
  let slot := j.ready.slot
  let c := s.ctx slot
  let pay := blocks.flatMap (·.1)
  let hdr := jobHeader j pay.length
  let start := c.fill
  let s1 := writeChain slot (start / bufData + 2) start hdr s
  let c1 := { c with
    coder := after, lastSeq := j.ready.seq
    since := if j.pass then c.since else if j.reset then 1 else min 255 (c.since + 1) }
  let s2 := (s1.setCtx slot c1).bump Reg.CMP_RECORDS
  completeRec slot { seq := j.ready.seq, start := start, opens := j.reset || j.pass, no := j.no, done := s.cmp.dones
                     bytes := hdr ++ pay } { s2 with cmp := { s2.cmp with dones := s2.cmp.dones + 1 } }

/-- The record that goes out where an SRAM error discards the samples (R15): it carries HOLE, and the samples have no stated value. [DEDUCED: log 32, 58] -/
def lostJob (j : CodeJob) (s : State) : CodeJob :=
  let r := j.ready.rec_
  let body := (List.range r.body.length).map fun i => (Config.lostOutput (s.free + i)).setWidth 8
  { j with ready := { j.ready with rec_ := { r with flags := r.flags ||| 8, body := body } } }

/-- The blocks of a job from the context's resume block on go into the chain; the record completes, or the stream pauses. -/
def codeOut (j : CodeJob) (s : State) : State :=
  let c := s.ctx j.ready.slot
  let r := codeJob j
  let p := putBlocks j (r.1.drop c.resumeBlock) c.resumeBlock (if c.resumeBlock = 0 then 48 else c.resumeBytes) s
  let stop := if p.2 then r.1.length else (p.1.ctx j.ready.slot).resumeBlock
  countLoad (residualsBefore j stop - residualsBefore j c.resumeBlock) (if p.2 then finishRec j r.1 r.2 p.1 else p.1)

/-- CMP_CODE_DONE (R15, R320, R324, R337): the record's blocks from the saved one on go into the chain behind the reserved header. A record
that meets an uncorrectable SRAM error is put in anew, from its start. [DEDUCED: log 58] -/
def execCmpCodeDone (e : Fin 6) (s0 : State) (err : Sram := ⟨0, false⟩) : Res :=
  let s := sramMet err s0
  let x := s.engine e
  .next (match x.job with
    | none => s
    | some j =>
      if x.phase ≠ 2 then s else
        let s1 := if err.lost then
            codeOut (lostJob j s) ({ s with free := s.free + j.ready.rec_.body.length }.setCtx j.ready.slot
              { s.ctx j.ready.slot with resumeBlock := 0, resumeBytes := 0 })
          else codeOut j s
        syncDeliver (frameDone 9 (s1.setEngine e { x with phase := 3 })))

/-- The header area of a slot (R334). -/
def ctxHeader (c : Ctx) : List Byte :=
  let kept := histKept c.r c.w (codeBytes c.width)
  let h := leBytes 2 c.stateSid ++ leBytes 1 c.product ++ leBytes 1 c.width ++ leBytes 4 c.w ++ leBytes 2 c.r ++
    leBytes 2 (bit kept + 2 * bit c.paused + 4 * bit c.resetPending + 8 * bit c.gapPending) ++ leBytes 4 c.lastSeq ++
    leBytes 4 c.firstPoint.toNat ++ leBytes 4 c.coder.rows.length ++ leBytes 8 c.coder.a0 ++ leBytes 8 c.coder.a1 ++
    leBytes 1 c.coder.n0 ++ leBytes 1 c.coder.n1 ++ leBytes 1 c.since ++ leBytes 1 0 ++ leBytes 4 c.resumeBlock ++
    leBytes 4 c.resumeBytes
  let b := h ++ List.replicate (252 - h.length) (0 : Byte)
  b ++ leBytes 4 (crc32c b)

/-- The slot is written to the codec-context region: its header area, then its history rows (R334). -/
def saveSlot (slot : Nat) (s : State) : State :=
  let c := s.ctx slot
  let a := (regionBytes s 5).1 + 1468416 * slot
  let h := ctxHeader c
  if slotCount s ≤ slot then s else
  State.setCtx slot { c with saved := true } <| memWrite a (h ++ List.replicate (4096 - h.length) (0 : Byte) ++ c.coder.rows.flatMap fun r => r.flatMap (leBytes (codeBytes c.width))) s

/-- Bytes of a slot's state: its header area and its history rows. -/
def slotBytes (c : Ctx) : Nat := 4096 + c.coder.rows.length * c.w * codeBytes c.width

/-- The slot's state is cleared: what it held in record memory reads 0 (R339). -/
def clearSlot (slot : Nat) (s : State) : State :=
  let c := s.ctx slot
  let s1 := if slotCount s ≤ slot then s
    else memWrite ((regionBytes s 5).1 + 1468416 * slot) (List.replicate (slotBytes c) (0 : Byte)) s
  s1.setCtx slot { bound := c.bound, sid := c.sid, pred := c.pred, auto := c.auto, pass := c.pass, resync := c.resync, quota := c.quota }

/-- CMP_SAVE_DONE (R335): an engine's working store of 256 KB keeps a state that it can hold. [DESIGN CHOICE: log 3] -/
def execCmpSaveDone (e : Fin 6) (s : State) : Res :=
  let x := s.engine e
  .next (match x.job with
    | none => s
    | some j =>
      if x.phase ≠ 3 then s else
        -- the engine alone still holds the slot's state
        let s1 := (List.range 6).foldl (fun s k =>
          if k ≠ e.val ∧ (s.engine k).store = some j.ready.slot then s.setEngine k { s.engine k with store := none } else s) s
        let kept := if slotBytes (s1.ctx j.ready.slot) ≤ 262144 then some j.ready.slot else none
        syncDeliver (saveSlot j.ready.slot (s1.setEngine e { phase := 0, job := none, store := kept })))

/-- CHAIN_LINK_AVAILABLE (R335, R337): the paused record becomes ready again now, ahead of its stream's later ones; the next one formed carries
GAP. [DEDUCED: log 59] -/
def execChainLinkAvailable (c : Nat) (s : State) : Res :=
  let x := s.ctx c
  .next (match x.held with
    | none => s
    | some j =>
      if !x.paused || !linkAvailable s c then s
      else
        let s1 := s.setCtx c { x with paused := false, gapPending := true }
        { s1 with cmp := { s1.cmp with ready := { j.ready with at_ := s.time } :: s1.cmp.ready } })

/-- The stream's next formed record carries GAP (R338): one that waits for an engine already, else the next that becomes ready. [DEDUCED: log 59] -/
def gapNext (slot : Nat) (s : State) : State :=
  match s.cmp.ready.find? fun r => r.slot == slot with
  | some r => { s with cmp := { s.cmp with
      ready := s.cmp.ready.map fun x => if x = r then { x with rec_ := { x.rec_ with flags := x.rec_.flags ||| 0x40 } } else x } }
  | none => s.setCtx slot { s.ctx slot with gapPending := true }

/-- ABANDONED (R338). -/
def execAbandoned (c : Nat) (s : State) : Res :=
  let x := s.ctx c
  .next (if !x.paused || x.held.isNone || linkAvailable s c then s else
    -- the buffers after the one that holds the record's start
    let keep := (x.fill - x.base) / bufData + 1
    let s1 := s.setCtx c { x with
      paused := false, held := none, resetPending := true, bufs := x.bufs.take keep, resumeBlock := 0
      resumeBytes := 0 }
    let s2 := match (x.bufs.take keep).getLast? with
      | some b => memWrite (bufAddr s b) (leBytes 4 0xFFFFFFFF) s1
      | none => s1
    syncDeliver (syncBufs (((gapNext c s2).bump Reg.CMP_ABANDONED).raise 0x080 1)))

/-- PAUSE_DROP (R337). -/
def execPauseDrop (c : Nat) (s : State) : Res := .next (if (s.ctx c).paused then pauseDropAt c s else s)

/-- The slot that a requester's window selects. -/
def ctxIndex (s : State) (q : Requester) : Nat := s.winIndex q 0x080 % 1024

/-- CTX_RESET (R332): the write goes to the slot that the requester's window selects. -/
def execCtxReset (q : Requester) (w : Word) (s : State) : Res :=
  .next (s.busWrite q 0x080 fun s =>
    let c := ctxIndex s q
    if w.toNat % 2 = 1 then s.setCtx c { s.ctx c with resetPending := true } else s)

/-- CTX_CFG_WRITE (R331, R343). -/
def execCtxCfgWrite (q : Requester) (w : Word) (s : State) : Res :=
  .next (s.busWrite q 0x080 fun s =>
    let i := ctxIndex s q
    let c := s.ctx i
    let p := w.toNat / 2 ^ 16 % 8
    s.setCtx i { c with
      pred := if p ≤ 4 then p else c.pred, auto := w.toNat / 2 ^ 19 % 2 == 1, pass := w.toNat / 2 ^ 20 % 2 == 1
      resync := w.toNat / 2 ^ 24 })

/-- CMP_CTXc_STATUS.STATE (R343). -/
def ctxState (s : State) (c : Nat) : Nat :=
  let x := s.ctx c
  if !x.bound then 0 else if x.paused then 3 else if slotBusy s c then 2 else 1

/-- The engine that codes a slot's record, 0 if none. -/
def ctxEngine (s : State) (c : Nat) : Nat :=
  ((s.cmp.engines.find? fun e => (e.2.job.map fun j => j.ready.slot == c).getD false).map (·.1)).getD 0

end Sys2Proof.Machine
end

