-- ==== Sys2Proof/Machine/Dcmp.lean ====
section
/-!
DEFINITION. The decompress engines (chapter 13, R339 to R342, R344).
-/

namespace Sys2Proof.Machine

/-- A register of engine `e`. -/
def dcF (f : Fld) (e : Fin 2) : Fld := f.ix e.val

/-- The engine returns to IDLE (R342). [DEDUCED: log 60] -/
def dcmpIdle (e : Fin 2) (s : State) : State :=
  raiseDcmp e.val ({ s with cmp := { s.cmp with abort := s.cmp.abort.set e false } }.setSt (dcF Reg.DCMP_Ee_STATUS_STATE e) 0)

/-- The source of a job lies where R339 and R16 allow it: in host memory, or whole in a history ring or the segment pool. [DEDUCED: log 60] -/
def dcmpSource (s : State) (e : Fin 2) : Bool :=
  let a := s.lv (dcF Reg.DCMP_Ee_SRC_LO e) + 2 ^ 32 * s.lv (dcF Reg.DCMP_Ee_SRC_HI e)
  let n := s.lv (dcF Reg.DCMP_Ee_SRC_LEN e)
  !s.on (dcF Reg.DCMP_Ee_CFG_SRC_SPACE e) ||
    ([1, 2, 3] : List Nat).any fun k => decide ((regionBytes s k).1 ≤ a ∧ a + n ≤ (regionBytes s k).1 + (regionBytes s k).2)

/-- The slot as a job finds it: cleared with KEEP = 0; with KEEP = 1 its own state, which is dropped where its check or read fails
(R332, R339, R364). [DEDUCED: log 60] -/
def dcmpSlot (slot : Nat) (keep : Bool) (s : State) : State :=
  if !keep then clearSlot slot s
  else if ctxBad s slot then (clearSlot slot s).raise 0x080 2 else s

/-- DCMP_GO (R339, R342): a job whose slot is bound, or whose source lies in no region that DCMP reads, is refused. [DEDUCED: log 60] -/
def execDcmpGo (q : Requester) (e : Fin 2) (s : State) : Res :=
  .next (s.shadowWrite q 0x081 fun s =>
    let slot := s.lv (dcF Reg.DCMP_Ee_CFG_CTX e)
    if s.st (dcF Reg.DCMP_Ee_STATUS_STATE e) ≠ 0 then s
    else if (s.ctx slot).bound || !dcmpSource s e then raiseDcmp 6 s
    else
      let s1 := dcmpSlot slot (s.on (dcF Reg.DCMP_Ee_CFG_KEEP e)) s
      let s2 := (((s1.setSt (dcF Reg.DCMP_Ee_STATUS_STATE e) 1).setSt (dcF Reg.DCMP_Ee_STATUS_ERR_CODE e) 0).setSt
        (dcF Reg.DCMP_Ee_RECORDS e) 0).setSt (dcF Reg.DCMP_Ee_CONSUMED e) 0
      let s3 := (s2.setSt (dcF Reg.DCMP_Ee_PRODUCED e) 0).setSt (dcF Reg.DCMP_Ee_ERR_OFFSET e) 0
      if s.lv (dcF Reg.DCMP_Ee_SRC_LEN e) = 0 then dcmpIdle e s3 else s3)

/-- A malformed record stops the engine (R341). -/
def dcmpStop (e : Fin 2) (code : Nat) (s : State) : State :=
  let s1 := (s.setSt (dcF Reg.DCMP_Ee_STATUS_STATE e) 2).setSt (dcF Reg.DCMP_Ee_STATUS_ERR_CODE e) code
  raiseDcmp (4 + e.val) ({ s1 with cmp := { s1.cmp with abort := s1.cmp.abort.set e false } }.setSt
    (dcF Reg.DCMP_Ee_ERR_OFFSET e) (s.st (dcF Reg.DCMP_Ee_CONSUMED e)))

/-- `n` source bytes are consumed; the job ends where none are left or an abort waits. -/
def dcmpConsume (e : Fin 2) (n : Nat) (s : State) : State :=
  let c := s.st (dcF Reg.DCMP_Ee_CONSUMED e) + n
  let s1 := s.setSt (dcF Reg.DCMP_Ee_CONSUMED e) c
  if s.lv (dcF Reg.DCMP_Ee_SRC_LEN e) ≤ c || s.cmp.abort.get e then dcmpIdle e s1 else s1

/-- A record's fields as the decoder reads them. -/
structure RecIn where
  product : Nat
  code : Nat
  compressed : Bool
  sid : Nat
  seq : Nat
  payload : Nat
  first : Nat
  points : Nat
  frames : Nat
  orig : Nat
  check : Nat

/-- A header's fields; the error code of R341 where it is malformed. -/
def parseHeader (h : List Byte) : Except Nat RecIn :=
  let f := fun (o n : Nat) => leNat ((h.drop o).take n)
  if f 0 2 ≠ 0x5A58 ∨ f 0x2C 4 ≠ crc32c (h.take 44) then .error 1
  else if f 3 1 % 16 ≠ 1 ∨ 5 < f 3 1 / 32 then .error 2
  else .ok { product := f 2 1, code := f 3 1 / 32, compressed := f 3 1 / 16 % 2 == 1, sid := f 4 2, seq := f 8 4
             payload := f 0xC 4, first := f 0x18 4, points := f 0x1C 4, frames := f 0x20 4, orig := f 0x24 4, check := f 0x28 4 }

/-- What decoding a payload gives: the payload, and how the slot's state changes. -/
inductive Decoded
  | ok (pay : List Byte) (st : Ctx → Ctx)
  | noHist
  | bad (code : Nat)

/-- Decode a compressed payload (R323 to R330, R340, R341). -/
def decodePayload (h : RecIn) (pay : List Byte) (st : Ctx) : Decoded :=
  let w0 := leNat (pay.take 4)
  let len := w0 % 2 ^ 24
  let first := ((pay.drop 4).headD 0).toNat
  if pay.length < 4 ∨ w0 / 2 ^ 28 ≠ 15 ∨ len = 0 then .bad 3
  else if pay.length - 4 < len then .bad 5
  else if first / 2 ≠ 0 then .bad 3
  else
    let lead := len - 1
    let b := codeBytes h.code
    let w := rowLen h.product h.points
    let step := rowStep h.product h.orig h.points h.frames
    let n := (h.orig - lead) / b
    if lead ≠ leadLen h.product h.code h.points ∨ h.orig < lead ∨ (h.orig - lead) % b ≠ 0 ∨ (w = 0 ∧ n ≠ 0) ∨ (w ≠ 0 ∧ n % w ≠ 0) then
      .bad 9
    else
      let cont := !st.fresh && st.stateSid == h.sid && (st.lastSeq + 1) % 2 ^ 32 == h.seq
      if first = 0 ∧ !cont then .noHist
      else
        let c : Coder := if first = 1 then Coder.fresh else st.coder
        match decBlocks h.code step w (n / 4096 + 2) n (pay.drop (4 + len)) { done := c.rows, cur := [], c := c } with
        | .error k => .bad k
        | .ok p =>
          let rows := p.done.drop c.rows.length
          .ok ((pay.drop 5).take lead ++ rows.flatMap fun r => r.flatMap (leBytes b))
            fun x => { x with
              stateSid := h.sid, lastSeq := h.seq, product := h.product, width := h.code, w := w, r := step
              firstPoint := BitVec.ofNat 32 h.first, fresh := false, since := if first = 1 then 1 else min 255 (x.since + 1)
              coder := { p.c with rows := keepRows step w b p.done } }

/-- A decoded record goes out (R339, R340): its header is rewritten, its check inverted where ORIG_CHECK fails. -/
def dcmpOutput (e : Fin 2) (hdr : List Byte) (h : RecIn) (pay : List Byte) (d : Option (Ctx → Ctx)) (s : State) : State :=
  let good := crc32c pay == h.check
  let verify := s.on (dcF Reg.DCMP_Ee_CFG_VERIFY_ONLY e)
  let made := s.st (dcF Reg.DCMP_Ee_PRODUCED e)
  if !verify ∧ s.lv (dcF Reg.DCMP_Ee_DST_LEN e) < made + 48 + pay.length then dcmpStop e 10 s
  else
    let f := ((hdr.drop 3).headD 0).toNat
    let h1 := hdr.take 3 ++ leBytes 1 (f % 16 + f / 32 * 32) ++ (hdr.drop 4).take 8 ++ leBytes 4 pay.length ++ (hdr.drop 16).take 28
    let ck := crc32c h1
    let out := h1 ++ leBytes 4 (if good then ck else ck ^^^ 0xFFFFFFFF) ++ pay
    let dst := s.lv (dcF Reg.DCMP_Ee_DST_LO e) + 2 ^ 32 * s.lv (dcF Reg.DCMP_Ee_DST_HI e) + made
    let s1 := if verify then s else (hostData 0 dst out clean (s.on Reg.DMA_CFG_RO_EN) s).setSt (dcF Reg.DCMP_Ee_PRODUCED e) (made + out.length)
    let s2 := if good then s1 else raiseDcmp (2 + e.val) (s1.bump (dcF Reg.DCMP_Ee_CHECK_FAILS e))
    let s3 := (s2.bump (dcF Reg.DCMP_Ee_RECORDS e)).setSt (dcF Reg.DCMP_Ee_LAST_SEQ e) h.seq
    let keep := fun (s : State) => match d with
      | some g =>
        let slot := s.lv (dcF Reg.DCMP_Ee_CFG_CTX e)
        saveSlot slot (s.setCtx slot (g (s.ctx slot)))
      | none => s
    dcmpConsume e (48 + h.payload) (keep s3)

/-- DCMP_RECORD (R339 to R342): the next record of the job. `src` are the source bytes from the next unread one on; from
record memory the device reads them itself. -/
def execDcmpRecord (e : Fin 2) (src : List Byte) (s : State) : Res :=
  .next (if s.st (dcF Reg.DCMP_Ee_STATUS_STATE e) ≠ 1 then s else
    let used := s.st (dcF Reg.DCMP_Ee_CONSUMED e)
    let left := s.lv (dcF Reg.DCMP_Ee_SRC_LEN e) - used
    let base := s.lv (dcF Reg.DCMP_Ee_SRC_LO e) + 2 ^ 32 * s.lv (dcF Reg.DCMP_Ee_SRC_HI e)
    let slot := s.lv (dcF Reg.DCMP_Ee_CFG_CTX e)
    let read := fun (o n : Nat) =>
      if s.on (dcF Reg.DCMP_Ee_CFG_SRC_SPACE e) then memRead s (base + used + o) n else (src.drop o).take n
    if left < 48 then dcmpIdle e s
    else
      let hdr := read 0 48
      match parseHeader hdr with
      | .error k => dcmpStop e k s
      | .ok h =>
        if left < 48 + h.payload then dcmpIdle e s
        else if h.product = 0xFF then dcmpConsume e (48 + h.payload) s
        else
          let pay := read 48 h.payload
          if !h.compressed then dcmpOutput e hdr h pay none s
          else
            match decodePayload h pay (s.ctx slot) with
            | .bad k => dcmpStop e k s
            | .noHist => dcmpConsume e (48 + h.payload) (s.bump (dcF Reg.DCMP_Ee_NO_HIST e))
            | .ok p d => dcmpOutput e hdr h p (some d) s)

/-- DCMP_ABORT (R342): the job stops at the next record boundary. -/
def execDcmpAbort (q : Requester) (e : Fin 2) (s : State) : Res :=
  .next (s.shadowWrite q 0x081 fun s =>
    if s.st (dcF Reg.DCMP_Ee_STATUS_STATE e) = 1 then { s with cmp := { s.cmp with abort := s.cmp.abort.set e true } } else s)

/-- DCMP_CLEAR (R342). -/
def execDcmpClear (q : Requester) (e : Fin 2) (s : State) : Res :=
  .next (s.shadowWrite q 0x081 fun s =>
    if s.st (dcF Reg.DCMP_Ee_STATUS_STATE e) = 2 then s.setSt (dcF Reg.DCMP_Ee_STATUS_STATE e) 0 else s)

end Sys2Proof.Machine
end

