-- ==== Sys2Proof/Machine/Memory.lean ====
section
/-!
DEFINITION. Record memory: channels, training, address mapping, scheduling, errors (chapter 14, R346 to R371).
-/

namespace Sys2Proof.Machine

def State.setMemc (ch : Fin 2) (c : MemChan) (s : State) : State := { s with memc := s.memc.set ch c }

/-! ### fitted memory (R346, R347) -/

/-- ρ: bits of the row field. -/
def rowBits (s : State) (ch : Nat) : Nat :=
  16 + (if s.lv (Reg.MEMCn_CFG_WIDTH.pg ch) = 0 then 1 else 0) + s.lv (Reg.MEMCn_CFG_DENSITY.pg ch)

/-- Ranks of a channel. -/
def rankCount (s : State) (ch : Nat) : Nat := 1 + s.lv (Reg.MEMCn_CFG_RANKS.pg ch)

/-- Capacity of a channel in MB: rows × 16 banks × 8 KB, per rank. -/
def chanMb (s : State) (ch : Nat) : Nat := 2 ^ rowBits s ch * 16 * rankCount s ch / 128

/-- The geometry and rate that a channel's configuration declares. -/
def geometry (s : State) (ch : Nat) : List Nat :=
  [Reg.MEMCn_CFG_WIDTH, Reg.MEMCn_CFG_RANKS, Reg.MEMCn_CFG_DENSITY, Reg.MEMCn_CFG_RDIMM, Reg.MEMCn_CFG_SPEED].map fun f => s.lv (f.pg ch)

/-- Channel 1 is used. -/
def twoChannels (s : State) : Bool := s.on (Reg.MEMCn_CFG_PRESENT.pg 1) && geometry s 0 == geometry s 1

/-- Capacity fitted, in bytes. -/
def fittedBytes (s : State) : Nat := (chanMb s 0 + (if twoChannels s then chanMb s 1 else 0)) * 2 ^ 20

/-- Peak of the channels fitted in MB/s (10⁶): 8 bytes times the data rate. -/
def peakMBs (s : State) : Nat :=
  let rate := ([3200, 2933, 2666, 2400] : List Nat).getD (s.lv (Reg.MEMCn_CFG_SPEED.pg 0)) 3200
  8 * rate * (if twoChannels s then 2 else 1)

/-! ### address mapping (R351, R352) -/

/-- The address bit that selects the channel, less one: the bytes of one interleave piece are 2^h. -/
def chanBit (s : State) : Nat := if s.lv (Reg.MEMCn_CFG_ORDER.pg 0) = 3 then 8 else 12

/-- Channel and channel address of a record-memory address, and back. -/
def chanOf (s : State) (ra : Nat) : Nat × Nat :=
  let h := chanBit s
  if twoChannels s then (ra / 2 ^ h % 2, ra / 2 ^ (h + 1) * 2 ^ h + ra % 2 ^ h) else (0, ra)
def raOf (s : State) (ch a : Nat) : Nat :=
  let h := chanBit s
  if twoChannels s then a / 2 ^ h * 2 ^ (h + 1) + ch * 2 ^ h + a % 2 ^ h else a

/-- Rank, bank, row and column of a channel address. -/
def dramOf (s : State) (ch a : Nat) : Nat × Nat × Nat × Nat :=
  let r := rowBits s ch
  let rank := a / 2 ^ (17 + r) % 2
  match s.lv (Reg.MEMCn_CFG_ORDER.pg 0) with
  | 0 => (rank, a / 2 ^ 13 % 16, a / 2 ^ 17 % 2 ^ r, a / 64 % 128)
  | 1 => (rank, a / 2 ^ (13 + r) % 16, a / 2 ^ 13 % 2 ^ r, a / 64 % 128)
  | _ =>
    let row := a / 2 ^ 17 % 2 ^ r
    (rank, (a / 2 ^ 8 % 16) ^^^ (row % 16), row, a / 64 % 4 + 4 * (a / 2 ^ 12 % 32))

/-! ### training and fill (R348 to R350) -/

/-- Training fails, or is refused, with a cause. -/
def trainFail (ch : Fin 2) (cause lane : Nat) (s : State) : State :=
  ((s.setSt (Reg.MEMCn_STATUS_TRAIN_FAIL.pg ch) cause).setSt (Reg.MEMCn_STATUS_FAIL_LANE.pg ch) lane).raise (0x088 + ch) 3

/-- The fields of MEMCn_CFG and MEMCn_TRAIN apply (R369). -/
def applyMemCfg (ch : Nat) (s : State) : State :=
  [Reg.MEMCn_CFG_PRESENT, Reg.MEMCn_CFG_WIDTH, Reg.MEMCn_CFG_RANKS, Reg.MEMCn_CFG_DENSITY, Reg.MEMCn_CFG_RDIMM,
   Reg.MEMCn_CFG_MIRROR, Reg.MEMCn_CFG_SPEED, Reg.MEMCn_CFG_ORDER, Reg.MEMCn_TRAIN_EYE_MIN].foldl
    (fun s f => s.setLive (f.pg ch) (s.sh (f.pg ch))) s

/-- MEMC_TRAIN (R350). -/
def execMemcTrain (q : Requester) (ch : Fin 2) (s : State) : Res :=
  .next (s.shadowWrite q (0x088 + ch) fun s =>
    if s.mode ≠ 1 then s
    else if s.st Reg.SYS_SUPPLY_BELOW ≠ 0 then trainFail ch 6 0 s
    else s.setMemc ch { s.memc.get ch with training := true })

/-- A dip abandons training; the earlier settings, MEMCn_CFG and MEMCn_TRAIN in force among them, are kept (R350, R562). -/
def trainDip (s : State) : State :=
  [(0 : Fin 2), 1].foldl (fun s ch =>
    if (s.memc.get ch).training then trainFail ch 6 0 (s.setMemc ch { s.memc.get ch with training := false }) else s) s

/-- Eye widths go to their registers. -/
def setEyes (ch : Fin 2) (eyes : List (Nat × Nat)) (s : State) : State :=
  (List.range 9).foldl (fun s l =>
    let e := eyes.getD l (0, 0)
    (s.setSt ((Reg.MEMCn_EYE_l_RD.pg ch).ix l) (min e.1 511)).setSt ((Reg.MEMCn_EYE_l_WR.pg ch).ix l) (min e.2 511)) s

/-- The first byte lane whose read, or write, eye is narrower than EYE_MIN, with its training step (R348). -/
def narrowEye (s : State) (ch : Nat) (eyes : List (Nat × Nat)) : Option (Nat × Nat) :=
  let m := s.lv (Reg.MEMCn_TRAIN_EYE_MIN.pg ch)
  match (List.range 9).find? fun l => (eyes.getD l (0, 0)).1 < m with
  | some l => some (4, l)
  | none => ((List.range 9).find? fun l => (eyes.getD l (0, 0)).2 < m).map fun l => (5, l)

/-- The channel's cells are lost: its whole capacity will read as zero words (R349). -/
def zeroChannel (ch : Fin 2) (s : State) : State :=
  { s with
    mem := Amap.drop (fun a => (chanOf s a).1 == ch.val) s.mem
    poison := Amap.drop (fun w => (chanOf s (16 * w)).1 == ch.val) s.poison }

/-- EXCLUDED and the capacity of channel 1 follow both channels' geometry (R347). [DEDUCED: log 63] -/
def syncExcluded (s : State) : State :=
  let out := s.on (Reg.MEMCn_CFG_PRESENT.pg 1) && !twoChannels s
  (s.setSt (Reg.MEMCn_STATUS_EXCLUDED.pg 1) (bit out)).setSt (Reg.MEMCn_CAPACITY.pg 1)
    (if !out && s.stOn (Reg.MEMCn_STATUS_TRAINED.pg 1) then chanMb s 1 else 0)

/-- The result of training a channel (R347, R348): where it passes, the capacity is known; `fill` starts the fill. -/
def trained (ch : Fin 2) (eyes : List (Nat × Nat)) (failStep failLane : Nat) (fill : Bool) (s : State) : State :=
  let s0 := setEyes ch eyes (s.setMemc ch { s.memc.get ch with training := false })
  let s1 := (s0.setSt (Reg.MEMCn_STATUS_READY.pg ch) 0).setSt (Reg.MEMCn_STATUS_TRAINED.pg ch) 0
  let bad := if failStep ≠ 0 then some (failStep, failLane) else narrowEye s ch eyes
  match bad with
  | some (k, l) => trainFail ch k l (syncExcluded s1)
  | none =>
    let s2 := (s1.setSt (Reg.MEMCn_STATUS_TRAIN_FAIL.pg ch) 0).setSt (Reg.MEMCn_STATUS_TRAINED.pg ch) 1
    let s3 := syncExcluded (s2.when (ch == 0) fun s => s.setSt (Reg.MEMCn_CAPACITY.pg 0) (chanMb s 0))
    if fill then (zeroChannel ch s3).setMemc ch { training := false, filling := true } else s3

/-- TRAIN_DONE (R348, R349, R369): a retraining that passes starts the fill. -/
def execTrainDone (ch : Fin 2) (eyes : List (Nat × Nat)) (failStep failLane : Nat) (s : State) : Res :=
  .next (if (s.memc.get ch).training then trained ch eyes failStep failLane true (applyMemCfg ch s) else s)

/-- READY (R349): the fill completes and patrol scrub starts. -/
def execReady (ch : Fin 2) (s : State) : Res :=
  .next (if (s.memc.get ch).filling then
    ((s.setMemc ch { s.memc.get ch with filling := false, scrub := 0 }).setSt (Reg.MEMCn_STATUS_READY.pg ch) 1).raise (0x088 + ch) 2
  else s)

/-- The channel is trained and filled, and no retraining is under way (R349, R350). -/
def chanReady (s : State) (ch : Fin 2) : Bool := s.stOn (Reg.MEMCn_STATUS_READY.pg ch) && !(s.memc.get ch).training

/-- Every channel in use is trained and filled (R47, R349). -/
def memReady (s : State) : Bool := chanReady s 0 && (!twoChannels s || chanReady s 1)

/-! ### regions (R353) -/

/-- REGION_WRITE (R353, R370). -/
def execRegionWrite (q : Requester) (size : Bool) (w : Word) (s : State) : Res :=
  .next (s.busWrite q 0x088 fun s =>
    if 1 < s.mode then s.raise 0x088 6
    else
      let i := s.winIndex q 0x088 % 8
      let v := w.toNat % 2 ^ 18
      let e := Amap.get s.regionShadow i (0, 0)
      { s with regionShadow := Amap.put i (if size then (e.1, v) else (v, e.2)) s.regionShadow })

/-- The first entry of the region table as written that breaks R353; `need` says which entries must not be empty. [DEDUCED: log 61] -/
def regionError (s : State) (need : Nat → Bool) : Option Nat :=
  let r := fun (i : Nat) => Amap.get s.regionShadow i (0, 0)
  let cap := fittedBytes s / 2 ^ 20 - 16
  (List.range 8).find? fun i =>
    let a := r i
    (a.2 != 0 && decide (cap < a.1 + a.2)) || (i == 3 && decide (16384 < a.2)) || (a.2 == 0 && need i) ||
    (a.2 != 0 && (List.range 8).any fun j => j != i && (r j).2 != 0 && decide (a.1 < (r j).1 + (r j).2 ∧ (r j).1 < a.1 + a.2))

/-! ### requests and scheduling (R355 to R360) -/

/-- Bank key, row and rank of a request. -/
def reqBank (s : State) (ch : Fin 2) (r : MemReq) : Nat × Nat × Nat :=
  let d := dramOf s ch (chanOf s r.ra).2
  (16 * d.1 + d.2.1, d.2.2.1, d.1)

def MemChan.bank (c : MemChan) (k : Nat) : Bank := Amap.get c.banks k {}
def MemChan.setBank (c : MemChan) (k : Nat) (b : Bank) : MemChan := { c with banks := Amap.put k b c.banks }

/-- The code words that `len` bytes from `ra` lie in. -/
def codeWords (ra len : Nat) : List Nat := (List.range ((ra + len + 15) / 16 - ra / 16)).map (ra / 16 + ·)

/-- MEMC_REQUEST (R355, R357, R365): the written bytes are what every later read returns; a queue that holds 64 takes
nothing. [DEDUCED: log 63; DESIGN CHOICE: log 64] -/
def execMemcRequest (t : Time) (rd : MemReader) (write : Bool) (ra : Nat) (data : List Byte) (s : State) : Res :=
  let s0 := advance t s
  let ch : Fin 2 := Fin.ofNat 2 (chanOf s0 ra).1
  let c := s0.memc.get ch
  .next (if fittedBytes s0 ≤ ra ∨ 64 ≤ c.queue.length then s0 else
    let part := write && (ra % 16 != 0 || data.length % 16 != 0)
    let s1 := if write then memWrite ra (data.take 64) s0 else s0
    let len := if write then min 64 data.length else 64
    let touch := fun (x : MemReq) => if write then { x with covered := codeWords ra len ++ x.covered } else x
    s1.setMemc ch { c with
      queue := c.queue ++ [{ at_ := t, rd := rd, write := write, merge := part, ra := ra, len := len }], issued := c.issued.map touch })

/-- What the channel does next: a command of R355's levels. -/
inductive MemPick
  | refresh (rank : Nat) (forced : Bool)
  | neighbour (bank : Nat)
  | request (r : MemReq)
  | none

/-- A request hits the open row of its bank. -/
def rowHit (s : State) (ch : Fin 2) (r : MemReq) : Bool :=
  let b := reqBank s ch r
  ((s.memc.get ch).bank b.1).row == some b.2.1

/-- A bank that owes a neighbour refresh takes no other activate (R360). -/
def mayGo (s : State) (ch : Fin 2) (r : MemReq) : Bool :=
  rowHit s ch r || ((s.memc.get ch).bank (reqBank s ch r).1).owed.isNone

/-- The channel's choice (R355, R356). A due refresh of an idle rank goes before scrub reads. [DEDUCED: log 63] -/
def memPick (s : State) (ch : Fin 2) : MemPick :=
  let c := s.memc.get ch
  let ranks := List.range (rankCount s ch)
  let ow := fun (r : Nat) => if r = 0 then c.owed.fst else c.owed.snd
  let q := c.queue.filter (mayGo s ch)
  let scrub := fun (r : MemReq) => r.rd == .scrub && !r.old && !r.write
  let work := q.filter fun r => !scrub r
  let idle := fun (k : Nat) => !(c.queue.any fun r => !scrub r && (reqBank s ch r).2.2 == k)
  let rds := work.filter fun r => !r.write
  let wrs := work.filter fun r => r.write
  let ordered := if c.drain then wrs.filter (rowHit s ch) ++ wrs ++ rds.filter (rowHit s ch) ++ rds
    else rds.filter (rowHit s ch) ++ rds ++ wrs.filter (rowHit s ch) ++ wrs
  match ranks.find? fun r => decide (8 < ow r) with
  | some r => .refresh r true
  | none =>
    match c.banks.find? fun e => e.2.owed.isSome with
    | some e => .neighbour e.1
    | none =>
      match work.find? (·.old) with
      | some r => .request r
      | none =>
        match ordered.head? with
        | some r => .request r
        | none =>
          match ranks.find? fun r => idle r && decide (0 < ow r) with
          | some r => .refresh r false
          | none =>
            match (q.filter scrub).head? with
            | some r => .request r
            | none =>
              match ranks.find? fun r => idle r && decide (-8 < ow r) with
              | some r => .refresh r false
              | none => .none

/-- A refresh closes the rows of its rank (R358, R359). [DEDUCED: log 63] -/
def issueRefresh (ch : Fin 2) (rank : Nat) (forced : Bool) (s : State) : State :=
  let c := s.memc.get ch
  let rk : Fin 2 := Fin.ofNat 2 rank
  let shut := fun (e : Nat × Bank) => if e.1 / 16 = rank then (e.1, { e.2 with row := none }) else e
  let s1 := s.setMemc ch { c with banks := c.banks.map shut, owed := c.owed.set rk (c.owed.get rk - 1) }
  let s2 := (s1.emit (.dram ch "PREA" rank 0 0)).emit (.dram ch "REF" rank 0 0)
  if forced then (s2.bump (Reg.MEMCn_REF_FORCED.pg ch)).raise (0x088 + ch) 5 else s2

/-- The row that a DRAM of a rank takes a row address for: rank 1 of a mirrored module has pairs of its address lines exchanged. [PRESUMED: log 124] -/
def mirrorRow (s : State) (ch : Fin 2) (rank row : Nat) : Nat :=
  if rank = 1 ∧ s.on (Reg.MEMCn_CFG_MIRROR.pg ch) = true then
    ([(3, 4), (5, 6), (7, 8), (11, 13)] : List (Nat × Nat)).foldl (fun r e =>
      let a := r / 2 ^ e.1 % 2
      let b := r / 2 ^ e.2 % 2
      r - a * 2 ^ e.1 - b * 2 ^ e.2 + b * 2 ^ e.1 + a * 2 ^ e.2) row
  else row

/-- A neighbour refresh (R360): the bank is closed, rows r − 1 and r + 1 in the DRAM's own numbering are activated and precharged. [DEDUCED: log 63] -/
def issueNeighbour (ch : Fin 2) (k : Nat) (s : State) : State :=
  let c := s.memc.get ch
  let b := c.bank k
  match b.owed with
  | none => s
  | some r =>
    let own := mirrorRow s ch (k / 16) r
    let rows := ((if own = 0 then [] else [own - 1]) ++ (if own + 1 < 2 ^ rowBits s ch then [own + 1] else [])).map (mirrorRow s ch (k / 16))
    let s1 := s.setMemc ch (c.setBank k { b with row := none, owed := none })
    let s2 := rows.foldl (fun s x => (s.emit (.dram ch "ACT" (k / 16) (k % 16) x)).emit (.dram ch "PRE" (k / 16) (k % 16) x)) s1
    s2.bump (Reg.MEMCn_NRR_ISSUED.pg ch)

/-- The next command of a request (R358): precharge, activate, or its column access. -/
def issueRequest (ch : Fin 2) (r : MemReq) (s : State) : State :=
  let c := s.memc.get ch
  let bk := reqBank s ch r
  let b := c.bank bk.1
  let col := (dramOf s ch (chanOf s r.ra).2).2.2.2
  match b.row with
  | none =>
    let k := s.lv (Reg.MEMCn_NRR_K.pg ch)
    let hit := k != 0 && Config.nrrDraw s.free
    { (s.setMemc ch (c.setBank bk.1 { b with row := some bk.2.1, owed := if hit then some bk.2.1 else none })).emit
      (.dram ch "ACT" bk.2.2 (bk.1 % 16) bk.2.1) with free := s.free + 1 }
  | some row =>
    if row ≠ bk.2.1 then (s.setMemc ch (c.setBank bk.1 { b with row := none })).emit (.dram ch "PRE" bk.2.2 (bk.1 % 16) row)
    else
      let ctr := match b.last with
        | none => b.ctr
        | some l => if l = row then min 3 (b.ctr + 1) else b.ctr - 1
      let open_ := decide (2 ≤ ctr)
      let c1 := c.setBank bk.1 { b with row := if open_ then some row else none, last := some row, ctr := ctr }
      let rd := !r.write || r.merge
      let q := c1.queue.erase r
      let w := (q.filter (·.write)).length
      let drain := if c.drain then decide (16 < w) else decide (32 < w)
      (s.setMemc ch { c1 with queue := q, issued := if rd then c1.issued ++ [r] else c1.issued, drain := drain }).emit
        (.dram ch (if rd then (if open_ then "RD" else "RDA") else (if open_ then "WR" else "WRA")) bk.2.2 (bk.1 % 16) col)

/-- MEMC_ISSUE (R355 to R360). [DESIGN CHOICE: log 64] -/
def execMemcIssue (ch : Fin 2) (t : Time) (s : State) : Res :=
  let s0 := advance t s
  -- writes beyond 32 turn the channel to draining before it chooses (R356)
  let c := s0.memc.get ch
  let s1 := if 32 < (c.queue.filter (·.write)).length then s0.setMemc ch { c with drain := true } else s0
  .next (match memPick s1 ch with
    | .refresh r f => issueRefresh ch r f s1
    | .neighbour k => issueNeighbour ch k s1
    | .request r => issueRequest ch r s1
    | .none => s1)

/-- Promote the oldest request that `p` selects. -/
def promote (ch : Fin 2) (p : MemReq → Bool) (s : State) : Option State :=
  let c := s.memc.get ch
  match c.queue.find? fun r => p r && !r.old with
  | none => none
  | some r =>
    let q := c.queue.takeWhile (fun x => x != r) ++ { r with old := true } :: (c.queue.dropWhile (fun x => x != r)).drop 1
    some ((s.setMemc ch { c with queue := q }).bump (Reg.MEMCn_PROMOTED.pg ch))

/-- AGE_PROMOTE (R355). -/
def execAgePromote (ch : Fin 2) (t : Time) (s : State) : Res :=
  let s0 := advance t s
  let lim := s0.lv (Reg.MEMCn_SCHED_AGE_LIMIT.pg ch) * duPerNs
  .next ((promote ch (fun r => (r.rd != .scrub || r.write) && decide (lim < (tDiff t r.at_).toNat)) s0).getD s0)

/-- SCRUB_URGENT (R366). -/
def execScrubUrgent (ch : Fin 2) (t : Time) (s : State) : Res :=
  let s0 := advance t s
  let lim := s0.lv (Reg.MEMCn_SCRUB_AGE.pg ch) * 1000 * duPerNs
  .next (match promote ch (fun r => r.rd == .scrub && !r.write && decide (lim < (tDiff t r.at_).toNat)) s0 with
    | some s1 => s1.bump (Reg.MEMCn_SCRUB_URGENT.pg ch)
    | none => s0)

/-- REFRESH_DUE (R359). -/
def execRefreshDue (ch rank : Fin 2) (s : State) : Res :=
  let c := s.memc.get ch
  .next (s.setMemc ch { c with owed := c.owed.set rank (c.owed.get rank + 1) })

/-- SCRUB_READ (R366): the next 64 bytes are read; a pass ends at the channel's last ones. -/
def execScrubRead (ch : Fin 2) (t : Time) (s : State) : Res :=
  let s0 := advance t s
  let c := s0.memc.get ch
  .next (if !s0.stOn (Reg.MEMCn_STATUS_READY.pg ch) ∨ 64 ≤ c.queue.length then s0 else
    let r : MemReq := { at_ := t, rd := .scrub, write := false, ra := raOf s0 ch c.scrub }
    let nxt := c.scrub + 64
    let wrap := decide (chanMb s0 ch * 2 ^ 20 ≤ nxt)
    (s0.setMemc ch { c with queue := c.queue ++ [r], scrub := if wrap then 0 else nxt }).bumpBy
      (Reg.MEMCn_SCRUB_PASSES.pg ch) (bit wrap))

/-- ZQ_SHORT (R350): in RUN only. -/
def execZqShort (ch : Fin 2) (s : State) : Res := .next (if s.mode = 3 then s.emit (.dram ch "ZQCS" 0 0 0) else s)

/-! ### errors (R362 to R367) -/

/-- Log an error of code word `w` (R363, R364). [DEDUCED: log 62] -/
def logError (ch : Fin 2) (r : MemReq) (w unit : Nat) (ue : Bool) (s : State) : State :=
  let src := if r.rd = .scrub then 1 else if r.merge then 2 else 0
  let s1 := (s.setSt (Reg.MEMCn_ERR_ADDR_LO.pg ch) (16 * w)).setSt (Reg.MEMCn_ERR_ADDR_HI.pg ch) (16 * w / 2 ^ 32)
  let s2 := (s1.setSt (Reg.MEMCn_ERR_LAST_UNIT.pg ch) unit).setSt (Reg.MEMCn_ERR_LAST_RANK.pg ch) (reqBank s ch r).2.2
  (s2.setSt (Reg.MEMCn_ERR_LAST_SRC.pg ch) src).setSt (Reg.MEMCn_ERR_LAST_UE.pg ch) (bit ue)

/-- A unit's count of corrected errors grows (R367). [DEDUCED: log 62] -/
def countUnit (ch : Fin 2) (rank unit : Nat) (s : State) : State :=
  let c := s.memc.get ch
  let k := 32 * rank + unit
  let n := Amap.get c.unitCe k 0 + 1
  let hit := s.lv (Reg.MEMCn_UNIT_THRESH.pg ch) ≤ n && !c.failed.contains k
  let s1 := s.setMemc ch { c with unitCe := Amap.put k n c.unitCe, failed := if hit then k :: c.failed else c.failed }
  if hit then (s1.setSt (Reg.MEMCn_STATUS_FAILING.pg ch) k).raise (0x088 + ch) 4 else s1

/-- The symbols of code word `j` of a burst that are in error (R361): symbol 18 · m + q is the nibble at position q in beat 2j + m. -/
def badSymbols (errs : List BurstError) (j : Nat) : List Nat :=
  ((errs.filter fun e => e.beat.val / 2 == j && e.bits != 0).map fun e => 18 * (e.beat.val % 2) + e.pos.val).eraseDups

/-- The correction units of symbols: those that share a position (R361). -/
def unitsOf (syms : List Nat) : List Nat := (syms.map (· % 18)).eraseDups

/-- What the decoder makes of a code word. -/
inductive WordCheck
  | clean
  | corrected (unit : Nat)
  | uncorrectable
  | miscorrected (unit : Nat)
  deriving DecidableEq, Repr

/-- The decoder (R362): errors within one unit are corrected, errors in two symbols of different units are detected; what it makes of others is open. [DEDUCED: log 62] -/
def checkWord (syms : List Nat) (free : Nat) : WordCheck :=
  match unitsOf syms with
  | [] => .clean
  | [q] => .corrected q
  | _ => if syms.length = 2 ∨ Config.eccDetects free = true then .uncorrectable else .miscorrected (Config.ueUnit free).toNat

/-- A read asks for code word `w` of its burst: a merge read for the words that its write covers in part (R365). [DEDUCED: log 62] -/
def asksWord (r : MemReq) (w : Nat) : Bool :=
  !r.merge || (decide (r.ra < 16 * w + 16 ∧ 16 * w < r.ra + r.len) && !decide (r.ra ≤ 16 * w ∧ 16 * w + 16 ≤ r.ra + r.len))

/-- The corrected word goes back, unless a write to it has been accepted since the read, or follows as its merge (R363, R365). -/
def writeBackWord (ch : Fin 2) (r : MemReq) (w : Nat) (s : State) : State :=
  if r.merge || r.covered.contains w then s
  else s.setMemc ch { s.memc.get ch with
    queue := { r with write := true, back := true, old := false, ra := 16 * w, len := 16, covered := [] } :: (s.memc.get ch).queue }

/-- A corrected error of code word `w` in unit `u` (R363, R367). -/
def corrected (ch : Fin 2) (r : MemReq) (w u : Nat) (s : State) : State :=
  writeBackWord ch r w
    ((countUnit ch (reqBank s ch r).2.2 u ((logError ch r w u false s).bump (Reg.MEMCn_CE.pg ch))).raise (0x088 + ch) 0)

/-- A code word has returned (R362 to R365). Bytes that a write has put over a miscorrected word stay. [DEDUCED: log 62] -/
def wordBack (ch : Fin 2) (r : MemReq) (w : Nat) (k : WordCheck) (s : State) : State :=
  match k with
  | .clean => s
  | .corrected u => corrected ch r w u s
  | .uncorrectable =>
    let s1 := ((logError ch r w (Config.ueUnit s.free).toNat true { s with free := s.free + 1 }).bump (Reg.MEMCn_UE.pg ch)).raise (0x088 + ch) 1
    { s1 with poison := Amap.put w true s1.poison }
  | .miscorrected u =>
    let s1 := corrected ch r w u s
    if r.covered.contains w then s1
    else
      let kept := fun (a : Nat) => r.merge && decide (r.ra ≤ a ∧ a < r.ra + r.len)
      let l := (List.range 16).map fun i => if kept (16 * w + i) then memByte s1.mem (16 * w + i) else Config.eccByte (s1.free + i)
      memWrite (16 * w) l { s1 with free := s1.free + 16 }

/-- READ_DATA (R361 to R365): the burst of the oldest issued read. A merge read is followed by its write. [DEDUCED: log 62; DESIGN CHOICE: log 64] -/
def execReadData (ch : Fin 2) (errs : List BurstError) (s : State) : Res :=
  let c := s.memc.get ch
  .next (match c.issued with
    | [] => s
    | r :: rest =>
      let s0 := s.setMemc ch { c with issued := rest }
      let s1 := if r.merge then s0.setMemc ch { s0.memc.get ch with queue := { r with merge := false } :: (s0.memc.get ch).queue } else s0
      (List.range 4).foldl (fun s j =>
        let w := r.ra / 64 * 4 + j
        if asksWord r w then wordBack ch r w (checkWord (badSymbols errs j) s.free) s else s) s1)

end Sys2Proof.Machine
end

