-- ==== Sys2Proof/Machine/Raman.lean ====
section
/-!
DEFINITION. Raman temperature sensing (chapter 9, R216 to R237).
-/

namespace Sys2Proof.Machine

def State.rl (s : State) (n : Lane) : RamanLane := s.raman.lanes.get n
def State.setRl (n : Lane) (l : RamanLane) (s : State) : State := { s with raman := { s.raman with lanes := s.raman.lanes.set n l } }

/-- The lane mode uses the Raman path: THERMAL or DUAL (R24, R219). -/
def ramanMode (m : Nat) : Bool := m == 5 || m == 6

/-- P_R of a configuration (R220). -/
def ramanPoints (c : RegFile) (n : Lane) : Nat := laneLength c n * groupIndex c n * 500000 / (2 ^ 20 * lightSpeed)

/-- The positions held: P_R + PRE. -/
def ramanTotal (c : RegFile) (n : Lane) : Nat := ramanPoints c n + RegFile.get c Reg.DTS_CFG_PRE

/-! ### APD bias (R218) -/

/-- The code an APD bias output holds at `t`: 10 mV/ms is 655,360 codes in 1,500,000,000 ns. -/
def apdAt (a : Apd) (t : Time) : Nat :=
  let k := (tDiff t a.since).toNat / duPerNs * 655360 / 1500000000
  if a.from_ < a.to_ then min a.to_ (a.from_ + k) else max a.to_ (a.from_ - k)

/-- A bit of a status field per lane. -/
def setLaneBit (f : Fld) (n : Lane) (b : Bool) (s : State) : State :=
  s.setSt f ((s.st f &&& (3 ^^^ 2 ^ n.val)) ||| (bit b * 2 ^ n.val))

/-- APD_RAMPING of a lane: its output slews (R218). -/
def apdRamping (s : State) (n : Lane) : Bool := let a := s.raman.apd.get n; apdAt a s.time != a.to_

/-- The bias output of a lane heads for its code, limited, and the status fields follow it. [DEDUCED: log 42] -/
def applyApd (t : Time) (n : Lane) (s : State) : State :=
  let en := s.lv Reg.TSF_APD_CFG_EN / 2 ^ n.val % 2 == 1
  let code := s.lv (Reg.TSF_APD_BIASn.ix n)
  let lim := s.lv (if n = 0 then Reg.TSF_APD_LIMIT_LIMIT0 else Reg.TSF_APD_LIMIT_LIMIT1)
  let limited := en && lim < code
  let to_ := if en then min code lim else 0
  let a := s.raman.apd.get n
  let a1 : Apd := if to_ = a.to_ then { a with code := code } else { from_ := apdAt a t, since := t, to_ := to_, code := code }
  let was := s.st Reg.TSF_STATUS_APD_LIMITED / 2 ^ n.val % 2 == 1
  let s1 := { s with raman := { s.raman with apd := s.raman.apd.set n a1 } }.raiseIf (limited && (!was || a.code != code)) 0x022 4
  setLaneBit Reg.TSF_STATUS_APD_RAMPING n (apdAt a1 t != to_) (setLaneBit Reg.TSF_STATUS_APD_LIMITED n limited s1)

/-! ### periods -/

/-- Open a period at `t` (R224). `opening`: the first one after a lane start or a takeover. -/
def openPeriod (n : Lane) (t : Time) (opening : Bool) (s : State) : State :=
  let l := s.rl n
  let p : DtsPeriod := {
    id := l.nextId, from_ := t, ranges := s.lv Reg.TSF_RANGE / 16 ^ n.val % 16, len := s.lv Reg.DTS_AVG_SHOTS
    opening := opening }
  ((s.setRl n { l with per := some p, due := none, nextId := l.nextId + 1 }).setSt
    (Reg.DTS_Ln_STATUS_ACCUMULATING.ix n) 1).setSt (Reg.DTS_Ln_SHOTS.ix n) 0

/-- The open period ends at `t`, early or not, with the constants in force then (R226, R229). [DEDUCED: log 42] -/
def endPeriod (n : Lane) (t : Time) (short : Bool) (s : State) : State :=
  let l := s.rl n
  match l.per with
  | none => s
  | some p =>
    ((s.setRl n { l with
      per := none, due := none
      ended := l.ended ++ [{ p with short := short, end_ := t, cfg := s.live, alm := s.alm.eff }] }).raiseIf short 0x030 (4 + n)).setSt
        (Reg.DTS_Ln_STATUS_ACCUMULATING.ix n) 0

/-- The open period is discarded (R227). -/
def stopRaman (n : Lane) (s : State) : State :=
  let l := s.rl n
  let keep := fun (x : RamanShot) => l.ended.any fun p => p.id == x.period
  ((s.setRl n { l with per := none, due := none, prev := none, shots := l.shots.filter keep }).setSt
    (Reg.DTS_Ln_STATUS_ACCUMULATING.ix n) 0).setSt (Reg.DTS_Ln_SHOTS.ix n) 0

/-- A Raman tick counts in the open period: its first one falls. [DEDUCED: log 42] -/
def countTick (t : Time) (p : DtsPeriod) : DtsPeriod := { p with sched := p.sched + 1, first := some (p.first.getD t) }

/-- The period whose end is due ends at its Raman tick, which starts the next one (R224, R225). [DEDUCED: log 42] -/
def endDue (n : Lane) (s : State) : State :=
  match (s.rl n).due with
  | none => s
  | some t =>
    let s1 := openPeriod n t false (endPeriod n t false s)
    match (s1.rl n).per with
    | some p => s1.setRl n { s1.rl n with per := some (countTick t p) }
    | none => s1

/-- A Raman tick of a lane that is RUNNING (R224): the first one opens a period; one that finds the count complete awaits
DTS_PERIOD_END. [DEDUCED: log 42] -/
def ramanTick (n : Lane) (t : Time) (s0 : State) : State :=
  let s := endDue n s0
  let s1 := if (s.rl n).per.isNone then openPeriod n t true s else s
  let l := s1.rl n
  match l.per with
  | none => s1
  | some p => if p.len ≤ p.sched then s1.setRl n { l with due := some t } else s1.setRl n { l with per := some (countTick t p) }

/-- The source tick is a Raman tick of lane `n` (R219). -/
def isRamanTick (s : State) (n : Lane) : Bool :=
  let k := s.lv Reg.DTS_SCHED_M * (if n = s.srcLane then 1 else s.lv Reg.MERID_DIV_N)
  k != 0 && s.raman.ticks % k == 0

/-- A source tick has fallen: periods count, a launch is due, and the number of ticks since RUN advances. -/
def tickRaman (t : Time) (s : State) : State :=
  let on := [(0 : Lane), 1].filter fun n => ramanMode (s.laneMode n) && isRamanTick s n
  let run := on.filter fun n => s.laneState n == 2
  let s1 := run.foldl (fun s n => ramanTick n t s) s
  let s2 := applyApd t 1 (applyApd t 0 s1)
  { s2 with raman := { s2.raman with
      ticks := s2.raman.ticks + 1, tick := if run.isEmpty then s2.raman.tick else some t } }

/-- A commit of the TSF page has applied at tick `t` (R226): a change of a lane's ranges or bias ends its period early, unless
the period ends there anyway. -/
def commitTsf (t : Time) (old : RegFile) (s : State) : State :=
  [(0 : Lane), 1].foldl (fun s (n : Lane) =>
    let ch := s.lv Reg.TSF_RANGE / 16 ^ n.val % 16 != RegFile.get old Reg.TSF_RANGE / 16 ^ n.val % 16 ||
      s.lv (Reg.TSF_APD_BIASn.ix n) != RegFile.get old (Reg.TSF_APD_BIASn.ix n)
    let s1 := applyApd t n s
    match (s1.rl n).per with
    | some p =>
      if ch && !(isRamanTick s1 n && p.len ≤ p.sched) then openPeriod n t false (endPeriod n t true s1) else s1
    | none => s1) s

/-- The command instant of the Raman tick at `t` (R219): the first point of the 4 ns grid at or after it plus O_R. -/
def ramanCommand (s : State) (t : Time) : Time :=
  let u := (t + nsT (s.lv Reg.DTS_OFFSET) + 511).toNat
  BitVec.ofNat 64 (u / 512 * 512)

/-- The Raman shot commanded at `t` joins the open period of lane `n` (R223, R224): lit, or dark, or withheld. -/
def joinRaman (t : Time) (dark : Bool) (n : Lane) (s : State) : State :=
  let l := s.rl n
  let held := (s.lanes.get n).withheld
  match l.per with
  | none => s
  | some p =>
    if dark || held then
      (s.setRl n { l with per := some { p with notAll := true } }).bumpBy (Reg.DTS_Ln_DARK_SHOTS.ix n) (bit (dark && !held))
    else
      let last := t + BitVec.ofNat 64 (512 * (s.lv (Reg.DTS_Ln_TAU0.ix n) + ramanPoints s.live n))
      s.setRl n { l with
        shots := l.shots ++ [⟨t, t + nsT (20 + s.lv Reg.DTS_PULSE_WIDTH), p.id⟩], per := some { p with last := some last } }

/-- RAMAN_LAUNCH (R219, R223): TS_PULSE serves every lane whose Raman tick it is, and its source stamps the command instant (R75). -/
def execRamanLaunch (t : Time) (s0 : State) : Res :=
  let s := advance t s0
  .next (match s.raman.tick with
    | none => s
    | some k =>
      let c := ramanCommand s k
      if s.reached c = false then s else
      let s0 := endDue 1 (endDue 0 s)
      let s1 := { s0 with raman := { s0.raman with tick := none } }
      let on := [(0 : Lane), 1].filter fun n => s1.laneState n == 2 && (s1.rl n).per.isSome
      let dark := !s1.emissionOn || s1.stOn Reg.SYS_SUPPLY_HOLDING
      let s2 := on.foldl (fun s n => joinRaman c dark n s) s1
      if dark || on.all fun n => (s1.lanes.get n).withheld then s2
      else stampSource 16 c (s2.emit (.tsPulse (c + nsT 20) (s1.lv Reg.DTS_PULSE_WIDTH))))

/-- DTS_PERIOD_END (R224, R225). [DEDUCED: log 42] -/
def execDtsPeriodEnd (n : Lane) (t : Time) (s : State) : Res :=
  let s0 := advance t s
  .next (if (s0.rl n).due.any s0.reached then endDue n s0 else s0)

/-! ### accumulation -/

/-- Add samples to sums, position by position. -/
def addSums : List Int → List Int → List Int
  | [], b => b
  | a, [] => a
  | x :: a, y :: b => (x + y) :: addSums a b

/-- A sample at an end of the converter's range (R217). [DEDUCED: log 42] -/
def ramanOvl (v : Int) : Bool := v ≤ -8192 || 8191 ≤ v

/-- Change a period of a lane, open or ended. -/
def updPeriod (id : Nat) (f : DtsPeriod → DtsPeriod) (l : RamanLane) : RamanLane :=
  let g := fun (p : DtsPeriod) => if p.id = id then f p else p
  { l with per := l.per.map g, ended := l.ended.map g }

/-- A period of a lane. -/
def findPeriod (id : Nat) (l : RamanLane) : Option DtsPeriod := (l.per.toList ++ l.ended).find? fun p => p.id = id

/-- RAMAN_RETURN (R217, R220, R222, R224): the samples of the lane's oldest lit Raman shot; one that meets an uncorrectable SRAM error is
discarded, and the period carries HOLE (R15). [DEDUCED: log 42; DESIGN CHOICE: log 107] -/
def execRamanReturn (n : Lane) (x y baseX baseY : List Int) (s0 : State) (err : Sram := ⟨0, false⟩) : Res :=
  let s := sramMet err s0
  let l := s.rl n
  .next (match l.shots with
    | [] => s
    | sh :: rest =>
      if err.lost then s.setRl n (updPeriod sh.period (fun p => { p with notAll := true, hole := true }) { l with shots := rest })
      else
      let tot := ramanTotal s.live n
      let bn := s.lv Reg.DTS_CFG_BASE_N
      let ox := ((x.take tot ++ baseX.take bn).filter ramanOvl).length
      let oy := ((y.take tot ++ baseY.take bn).filter ramanOvl).length
      let seen := ((findPeriod sh.period l).map (·.ovl)).getD 0
      let f := fun (p : DtsPeriod) => { p with
        lit := p.lit + 1, accX := addSums p.accX (x.take tot), accY := addSums p.accY (y.take tot)
        baseX := p.baseX + sumI (baseX.take bn), baseY := p.baseY + sumI (baseY.take bn)
        ovl := p.ovl ||| bit (ox != 0) ||| (2 * bit (oy != 0)), ovlAcc := p.ovlAcc || ox != 0 || oy != 0 }
      let l1 := updPeriod sh.period f { l with shots := rest }
      let s1 := (s.setRl n l1).setSt (Reg.DTS_Ln_SHOTS.ix n) ((l1.per.map (·.lit)).getD 0)
      let s2 := (s1.bumpBy (Reg.TSF_OVL_SAMPLES_c.ix (2 * n)) ox).bumpBy (Reg.TSF_OVL_SAMPLES_c.ix (2 * n + 1)) oy
      (s2.raiseIf (ox != 0 && seen % 2 == 0) 0x022 (2 * n)).raiseIf (oy != 0 && seen / 2 % 2 == 0) 0x022 (2 * n + 1))

/-- A result of the auxiliary converter without the UNSETTLED tag (R230): the latest one in each period that holds its
END_TIME is kept. -/
def ramanTakeAux (r : Nat) (end_ : Time) (value : Int) (s : State) : State :=
  let g := fun (p : DtsPeriod) =>
    if tBefore end_ p.from_ then p
    else match Amap.find r p.aux with
      | some (e, _) => if tBefore end_ e then p else { p with aux := Amap.put r (end_, value) p.aux }
      | none => { p with aux := Amap.put r (end_, value) p.aux }
  let h := fun (p : DtsPeriod) => if tBefore end_ p.end_ then g p else p
  [(0 : Lane), 1].foldl (fun s n => s.setRl n { s.rl n with per := (s.rl n).per.map g, ended := (s.rl n).ended.map h }) s

/-! ### the temperature equation -/

/-- R_f of a TSF range in Ω (R217). -/
def ramanRf (r : Nat) : Nat := match r with | 0 => 10000 | 1 => 50000 | 2 => 250000 | _ => 1000000

/-- What R228 needs of a period. -/
structure DtsEq where
  lit : Nat
  bn : Nat
  baseX : Int
  baseY : Int
  scX : Nat
  scY : Nat
  gi : Nat
  gamma : Nat

/-- `scale_c`, in 2⁻²⁰ Ω, of a channel and its range. [DEDUCED: log 43] -/
def ramanScale (factory eff : Amap Word) (c r : Nat) : Nat := ramanRf r * (2 ^ 20 + almVal factory eff (0x490 + 4 * c + r)).toNat

def dtsEq (factory : Amap Word) (n : Lane) (p : DtsPeriod) : DtsEq :=
  { lit := p.lit, bn := RegFile.get p.cfg Reg.DTS_CFG_BASE_N, baseX := p.baseX, baseY := p.baseY
    scX := ramanScale factory p.alm (2 * n) (p.ranges % 4), scY := ramanScale factory p.alm (2 * n + 1) (p.ranges / 4)
    gi := groupIndex p.cfg n, gamma := RegFile.get p.cfg Reg.DTS_GAMMA }

/-- N_lit · w · max(BASE_N, 1) times Ā for a sum over `w` positions. -/
def dtsMean (e : DtsEq) (base sum : Int) (w : Nat) : Int := if e.bn = 0 then sum else sum * e.bn - base * w

/-- ln R of sums over `w` positions, in 2⁻⁹⁶; none where R228 calls the result invalid. -/
def dtsLnR (e : DtsEq) (sumX sumY : Int) (w : Nat) : Option Int :=
  let ax := dtsMean e e.baseX sumX w
  let ay := dtsMean e e.baseY sumY w
  if e.lit = 0 ∨ ax ≤ 0 ∨ ay ≤ 0 ∨ e.scX = 0 ∨ e.scY = 0 then none
  else some (lnFx (ax.toNat * e.scY) (ay.toNat * e.scX))

/-- Δα · z in 2⁻⁹⁶, for Δα in 10⁻⁹ /m and a position in half Raman samples. -/
def dtsAtten (e : DtsEq) (da h : Int) : Int := da * h * lightSpeed * 2 ^ 20 * fxOne / (10 ^ 18 * (e.gi : Int))

/-- Δα in 10⁻⁹ /m from an attenuation in 2⁻⁹⁶ over a distance in half Raman samples, as a fixed-point number. -/
def dtsSlope (e : DtsEq) (a h : Int) : Int := a * 10 ^ 18 * e.gi / (h * lightSpeed * 2 ^ 20)

/-- The temperature of a bin in mK (R228): within 1 mK of γ / den. [DEDUCED: log 43] -/
def dtsTemp (e : DtsEq) (lnC da : Int) (sumX sumY h : Int) (w k : Nat) : Nat :=
  match dtsLnR e sumX sumY w with
  | none => 0xFFFFFF
  | some r =>
    let den := lnC * 2 ^ 72 - r - dtsAtten e da h
    if den ≤ 0 then 0xFFFFFF
    else
      let num : Int := (e.gamma * fxOne : Nat)
      let v := num / den - 1 + (Config.dtsError k).toNat
      min (if (v * den - num).natAbs ≤ den.natAbs then v else num / den).toNat 0xFFFFFE

/-! ### reference sections -/

/-- A reference section as R230 and R231 see it: twice its mean position in Raman samples, its temperature in mK where it
has one, and y where it is available. -/
structure Section where
  en : Bool
  lo : Int
  hi : Int
  temp : Option Int
  lnR : Option Int
  inside : Bool
  sumX : Int
  sumY : Int

/-- Sums over positions `a` to `b` counted from −PRE. -/
def sumRange (l : List Int) (a b : Nat) : Int := sumI ((l.drop a).take (b + 1 - a))

def dtsSection (e : DtsEq) (n : Lane) (p : DtsPeriod) (j : Nat) : Section :=
  let f := fun (x : Fld) => RegFile.get p.cfg ((x.ix n).ix2 j)
  let pre : Int := RegFile.get p.cfg Reg.DTS_CFG_PRE
  let lo := sx 19 (f Reg.DTS_Ln_REFj_START)
  let hi := sx 19 (f Reg.DTS_Ln_REFj_END)
  let en := f Reg.DTS_Ln_REFj_EN != 0
  let a := (lo + pre).toNat
  let b := (hi + pre).toNat
  let at1 := fun (l : List Int) (i : Nat) => l.getD (a + i) 0
  let inside := decide (-pre ≤ lo ∧ lo ≤ hi ∧ hi ≤ (ramanPoints p.cfg n : Int) - 1)
  let good := inside && (List.range (b + 1 - a)).all fun i => (dtsLnR e (at1 p.accX i) (at1 p.accY i) 1).isSome
  { en := en, lo := lo, hi := hi, temp := if en then (Amap.find (f Reg.DTS_Ln_REFj_AUX) p.aux).map (·.2) else none
    lnR := if good then dtsLnR e (sumRange p.accX a b) (sumRange p.accY a b) (b + 1 - a) else none
    inside := inside, sumX := sumRange p.accX a b, sumY := sumRange p.accY a b }

/-- y_j of an available section: ln R̄ + γ / T (R230). A temperature of 0 has no quotient. -/
def Section.y (e : DtsEq) (x : Section) : Option Int :=
  match x.lnR, x.temp with
  | some r, some t => if !x.en || t = 0 then none else some (r + (e.gamma * fxOne : Nat) / t)
  | _, _ => none

/-- A section is available (R231). -/
def Section.ok (x : Section) : Bool := x.en && x.temp.isSome && x.lnR.isSome

/-- The constants that the trace yields: ln C in 2⁻⁹⁶ and Δα in 2⁻⁹⁶ of 10⁻⁹ /m, the mode used, and whether they are held
(R230, R231). `k` numbers the free value. [DEDUCED: log 44] -/
def dtsTrace (e : DtsEq) (mode : Nat) (lnC da : Int) (prev : Option (Int × Int)) (r0 r1 : Section) (k : Nat) :
    (Int × Int) × Nat × Bool :=
  let raw : Int × Int := (lnC * 2 ^ 72, da * fxOne)
  let free : Int × Int := (sx 32 (Config.traceUnstated k).toNat * 2 ^ 72, sx 32 ((Config.traceUnstated k).toNat / 2 ^ 32) * fxOne)
  let held := (prev.map fun v => (v.1 * 2 ^ 72, v.2 * (fxOne : Int))).getD raw
  let h0 := r0.lo + r0.hi
  let h1 := r1.lo + r1.hi
  -- |z̄₁ − z̄₀| in half samples against 1,000 m
  let near := decide ((h1 - h0).natAbs * lightSpeed * 2 ^ 20 < 1000 * 10 ^ 9 * e.gi)
  let one : (Int × Int) × Nat × Bool :=
    if !r0.ok then (held, 1, true)
    else match r0.y e with
      | none => (free, 1, false)
      | some y0 => ((y0 + dtsAtten e da h0, da * fxOne), 1, false)
  match mode with
  | 0 => (raw, 0, false)
  | 1 => one
  | 2 =>
    if near || !r1.ok || !r0.ok then one
    else match r0.y e, r1.y e with
      | some y0, some y1 =>
        let sl := dtsSlope e (y0 - y1) (h1 - h0)
        ((y0 + dtsAtten e sl h0 / fxOne, sl), 2, false)
      | _, _ => (free, 2, false)
  | m => (free, m, false)

/-- Smoothing (R230), and the rounding to the registers' units. -/
def dtsSmooth (k : Nat) (unit : Int) (prev : Option Int) (v : Int) : Int :=
  match prev with
  | some q => if k = 0 then divRound v unit.toNat else divRound (q * unit * 2 ^ k + (v - q * unit)) (unit.toNat * 2 ^ k)
  | none => divRound v unit.toNat

/-- RESIDUALj (R232): the mean temperature over a section less its temperature. Over a section that lies in valid bins it is the mean of the
profile; over one with positions outside the profile, R228 on the section's own mean. [DEDUCED: log 44] -/
def dtsResidual (e : DtsEq) (lnC da : Int) (w : Nat) (bins : List Nat) (x : Section) (t : Int) (k : Nat) : Int :=
  let free := sx 32 (Config.residualUnstated k).toNat
  if x.hi < x.lo then free
  else if x.lo < 0 ∨ (bins.length * w : Nat) ≤ x.hi then
    let v := dtsTemp e lnC da x.sumX x.sumY (x.lo + x.hi) (x.hi - x.lo + 1).toNat k
    if !x.inside || v == 0xFFFFFF then free else (v : Int) - t
  else
    let l : List Nat := (List.range (x.hi - x.lo + 1).toNat).map fun i => bins.getD ((x.lo.toNat + i) / w) 0xFFFFFF
    if l.any (· == 0xFFFFFF) then free else divRound (sumI (l.map fun (v : Nat) => (v : Int) - t)) l.length

/-! ### delivery -/

/-- STATUS of a period (R233). -/
def dtsStatus (p : DtsPeriod) (mode : Nat) (held : Bool) : Nat :=
  bit p.short + 2 * bit held + 4 * bit p.notAll + 8 * bit p.ovlAcc + 16 * mode + 64 * bit p.opening

/-- The end of the covered interval of a period's records (R233, R374): its end, or that of the last return launched in it. -/
def periodTill (p : DtsPeriod) : Time :=
  match p.last with
  | some t => if tBefore p.end_ t then t else p.end_
  | none => p.end_

/-- The DTS_PROFILE records of a period (R233). -/
def profileRecords (n : Lane) (p : DtsPeriod) (lead : List Byte) (bins : List Nat) (s : State) : State :=
  (s.streamsAt 0x09 p.from_ fun x => x.lane == n.val).foldl (fun s x =>
    match selRange x.sel bins.length with
    | none => s
    | some (a, c) =>
      addRecord x { product := 0x09, width := 2, flags := 8 * bit (p.lit == 0 || p.hole), time := p.first.getD p.from_, till := periodTill p
                    firstPoint := BitVec.ofNat 32 (n.val * 2 ^ 31 + a), pointCount := c
                    frameCount := (tDiff p.end_ (p.first.getD p.from_)).toNat / (s.lanePeriod n * duPerNs)
                    lead := lead, body := ((bins.drop a).take c).flatMap (leBytes 3) } s) s

/-- The DTS_RAW records of a period (R234). -/
def rawRecords (n : Lane) (p : DtsPeriod) (lead : List Byte) (s : State) : State :=
  let tot := ramanTotal p.cfg n
  (s.streamsAt 0x0A p.from_ fun x => x.lane == n.val).foldl (fun s x =>
    match selRange x.sel tot with
    | none => s
    | some (a, c) =>
      addRecord x { product := 0x0A, width := 4, flags := 8 * bit (p.lit == 0 || p.hole), time := p.first.getD p.from_, till := periodTill p
                    firstPoint := BitVec.ofNat 32 (n.val * 2 ^ 31 + a), pointCount := c
                    frameCount := (tDiff p.end_ (p.first.getD p.from_)).toNat / (s.lanePeriod n * duPerNs)
                    lead := lead
                    body := (List.range c).flatMap fun i =>
                      leBytes 5 (ux 40 (p.accX.getD (a + i) 0)) ++ leBytes 5 (ux 40 (p.accY.getD (a + i) 0)) } s) s

/-- Bins of a profile: the positions from 0 on, each bin with its centre. -/
def profileBins (e : DtsEq) (n : Lane) (p : DtsPeriod) (lnC da : Int) (k : Nat) : List Nat :=
  let w := 2 ^ RegFile.get p.cfg Reg.DTS_CFG_BIN
  let pre := RegFile.get p.cfg Reg.DTS_CFG_PRE
  (List.range (ramanPoints p.cfg n / w)).map fun b =>
    let lo := pre + b * w
    dtsTemp e lnC da (sumRange p.accX lo (lo + w - 1)) (sumRange p.accY lo (lo + w - 1)) ((2 * b * w + w - 1 : Nat) : Int) w (k + b)

/-- A section's residual register, where it has a temperature (R232). -/
def setResidual (e : DtsEq) (lnC da : Int) (n : Lane) (j w : Nat) (bins : List Nat) (x : Section) (s : State) : State :=
  match x.temp with
  | none => s
  | some t => { s with free := s.free + 1 }.setStI ((Reg.DTS_Ln_RESIDUALj.ix n).ix2 j) (dtsResidual e lnC da w bins x t s.free)

/-- A period that ends while a bath step runs on its section (R484): ln R̄ in 2⁻²⁰ and T of a full one that began since; any other
one breaks the row. [DEDUCED: log 85] -/
def bathPeriod (n : Lane) (p : DtsPeriod) (r0 r1 : Section) (s : State) : State :=
  let c := s.cal
  if s.st Reg.ALM_STATUS_PROC ≠ 6 ∨ c.param % 2 ≠ n.val ∨ tBefore p.from_ c.at_ then s
  else
    let x := if c.param / 2 = 0 then r0 else r1
    let l := match x.lnR, x.temp with
      | some r, some t => if p.short || !x.en then [] else (c.bath ++ [(divRound r (2 ^ 76), t)]).take 2
      | _, _ => []
    { s with cal := { c with bath := if c.bath.length = 2 then c.bath else l } }

/-- Deliver an ended period. -/
def deliverPeriod (n : Lane) (p : DtsPeriod) (s : State) : State :=
  let e := dtsEq s.alm.factory n p
  let r0 := dtsSection e n p 0
  let r1 := dtsSection e n p 1
  let g := fun (f : Fld) => RegFile.get p.cfg (f.ix n)
  let prev := if p.opening then none else (s.rl n).prev
  let tr := dtsTrace e (g Reg.DTS_Ln_TRACE_MODE) (sx 32 (g Reg.DTS_Ln_LNC)) (sx 32 (g Reg.DTS_Ln_DALPHA)) prev r0 r1 s.free
  let k := g Reg.DTS_Ln_TRACE_SMOOTH
  let lnC := dtsSmooth k (2 ^ 72) (prev.map (·.1)) tr.1.1
  let da := dtsSmooth k fxOne (prev.map (·.2)) tr.1.2
  let bins := profileBins e n p lnC da (s.free + 1)
  let w := 2 ^ RegFile.get p.cfg Reg.DTS_CFG_BIN
  let st := dtsStatus p tr.2.1 tr.2.2
  let s1 := { s with free := s.free + 1 + bins.length }.setRl n { s.rl n with prev := some (lnC, da) }
  let s2 := ((s1.setStI (Reg.DTS_Ln_LNC_USED.ix n) lnC).setStI (Reg.DTS_Ln_DALPHA_USED.ix n) da).setSt (Reg.DTS_Ln_STATUS_LAST.ix n) st
  let s3 := (s2.bump (Reg.DTS_Ln_PERIODS.ix n)).bumpBy (Reg.DTS_Ln_INVALID.ix n) (bins.filter (· == 0xFFFFFF)).length
  let s4 := (s3.bumpBy (Reg.DTS_Ln_REF_HOLDS.ix n) (bit tr.2.2)).raiseIf tr.2.2 0x030 (2 + n)
  let s5 := setResidual e lnC da n 1 w bins r1 (setResidual e lnC da n 0 w bins r0 s4)
  let s6 := (s5.raise 0x030 n).raiseIf (p.lit == 0) 0x030 (6 + n)
  let rt := fun (x : Section) => leBytes 4 ((x.temp.map (ux 32)).getD 0xFFFFFFFF)
  let lead := leBytes 8 p.end_.toNat ++ leBytes 4 p.lit ++ leBytes 4 p.sched ++ leBytes 4 (ux 32 lnC) ++ leBytes 4 (ux 32 da) ++
    leBytes 4 e.gamma ++ rt r0 ++ rt r1 ++ leBytes 2 st ++ leBytes 1 (RegFile.get p.cfg Reg.DTS_CFG_BIN) ++ leBytes 1 p.ranges ++
    leBytes 8 0
  let rawLead := leBytes 8 (ux 64 p.baseX) ++ leBytes 8 (ux 64 p.baseY) ++ leBytes 4 p.lit ++ leBytes 2 e.bn ++
    leBytes 2 (RegFile.get p.cfg Reg.DTS_CFG_PRE) ++ leBytes 2 st ++ leBytes 1 p.ranges ++ leBytes 13 0
  rawRecords n p rawLead (profileRecords n p lead bins (bathPeriod n p r0 r1 s6))

/-- PROFILE (R228 to R234): the lane's oldest ended period. -/
def execProfile (n : Lane) (s : State) : Res :=
  .next (match (s.rl n).ended with
    | [] => s
    | p :: rest => frameDone 6 (deliverPeriod n p (s.setRl n { s.rl n with ended := rest })))

end Sys2Proof.Machine
end

