-- ==== Sys2Proof/Machine/Budgets.lean ====
section
/-!
DEFINITION. Whether a configuration can run (R45, R53 and the checks of later chapters that R53 evaluates with it).
-/

namespace Sys2Proof.Machine

/-! ### the next configuration -/

/-- The lane fields of R7: the RESTART fields of lane `n`'s own pages and those named for it in shared pages. -/
def isLaneField (n : Lane) (f : Fld) : Bool :=
  f.page == 0x01A + n.val || f.page == 0x020 + n.val || f.page == 0x028 + n.val || f.page == 0x02A + n.val || f.page == 0x02C + n.val ||
  [(laneModeF n).key, (laneSubF n).key, (Reg.CAPT_Ln_HIST_SRC.ix n).key, (Reg.DTS_Ln_TAU0.ix n).key].contains f.key ||
  (f.page == 0x013 && (f.off == 0x0C0 + 8 * n.val || f.off == 0x0C4 + 8 * n.val))

/-- Whether a RESTART field takes effect when lanes `ls` restart, and, with `dev`, the device enters RUN (R7). -/
def restartsWith (dev : Bool) (ls : List Lane) (f : Fld) : Bool :=
  if isLaneField 0 f then ls.contains 0 else if isLaneField 1 f then ls.contains 1 else dev

/-- The bank of lane `n` changes at a restart, not by a commit: POLICY 0 is in force (R200). -/
def bankAtRestart (s : State) (n : Lane) : Bool := s.lv (Reg.SLOWn_FIR_CFG_POLICY.pg n) == 0

/-- The key is BANK of lane `n`, which a restart of the lane takes: under POLICY 0 until then or from then on (R200). [DEDUCED: log 41] -/
def bankTaken (s : State) (n : Lane) (k : Nat) : Bool :=
  k == (Reg.SLOWn_FIR_CFG_BANK.pg n).key && (bankAtRestart s n || s.sh (Reg.SLOWn_FIR_CFG_POLICY.pg n) == 0)

/-- The shadow value of the field counts in the next configuration: a RESTART field that takes effect, or a COMMIT field of
a page with a pending commit (R53). -/
def takesShadow (s : State) (dev : Bool) (ls : List Lane) (k : Nat) : Bool :=
  match fieldOfKey k with
  | none => false
  | some f =>
    if f.eff = .restart then restartsWith dev ls f
    else if f.eff = .commit then
      if ls.any fun n => bankTaken s n k then true
      else if f.key = (Reg.SLOWn_FIR_CFG_BANK.pg 0).key ∧ bankAtRestart s 0 then false
      else if f.key = (Reg.SLOWn_FIR_CFG_BANK.pg 1).key ∧ bankAtRestart s 1 then false
      else s.commitReady f.page
    else false

/-- Copy the fields that `take` selects from shadow over `live`. -/
def copyFields (take : Nat → Bool) (shadow live : RegFile) : RegFile :=
  (shadow.filter fun e => take e.1).foldl (fun m e => Amap.put e.1 e.2 m) (Amap.drop take live)

/-- The configuration under which the next launches would fall (R53). -/
def nextCfg (s : State) (dev : Bool) (ls : List Lane) : RegFile := copyFields (takesShadow s dev ls) s.shadow s.live

/-! ### quantities -/

/-- T_M of a lane in a configuration (R25). -/
def cfgPeriod (c : RegFile) (n : Lane) : Nat :=
  let t := RegFile.get c Reg.MERID_PERIOD_PERIOD_NS
  if n.val = RegFile.get c Reg.MERID_CFG_SRC then t else RegFile.get c Reg.MERID_DIV_N * t

/-- Lane mode in a configuration. -/
def cfgMode (c : RegFile) (n : Lane) : Nat := RegFile.get c (laneModeF n)

/-- An undefined lane mode or DUAL sub-mode (R45). -/
def badMode (c : RegFile) (n : Lane) : Bool := 7 < cfgMode c n || (cfgMode c n == 6 && !usesSlow c n)

/-- The lane launches the constellation: a DAS mode, DUAL or TRACE. -/
def usesSlots (c : RegFile) (n : Lane) : Bool := usesSlow c n || cfgMode c n == 7

/-- A fraction, numerator and denominator. -/
def fracAdd (a b : Nat × Nat) : Nat × Nat := (a.1 * b.2 + b.1 * a.2, a.2 * b.2)
def fracLe (a : Nat × Nat) (k : Nat) : Bool := a.1 ≤ k * a.2
def fracSum (l : List (Nat × Nat)) : Nat × Nat := l.foldl fracAdd (0, 1)

/-! ### the budgets -/

/-- Budget 1 with R141, R143 and R170. -/
def budget1 (c : RegFile) (n : Lane) : Bool :=
  let g := gaugeLen c n
  !usesSlow c n ||
  (1 ≤ g && g ≤ 64 && spacing c n != 0 && groupIndex c n != 0 && laneLength c n ≤ 160000000 &&
    decide (1 ≤ pointsI c n) && points c n ≤ 262144 &&
    refPoints c n * spacingDu c n ≤ tau0 c n &&
    (RegFile.get c (Reg.PHZn_REF_CFG_EN.pg n) == 0 || g + 1 ≤ refPoints c n))

/-- Budget 2. -/
def budget2 (c : RegFile) (n : Lane) : Bool := !usesSlow c n || points c n * (slotsOf c n).length ≤ 1048576

/-- f_c and B / 2 of a slot in thousandths of the units of R91. -/
def slotBand (c : RegFile) (n : Lane) (k : Nat) : Int × Int :=
  (sx 32 (RegFile.get c (slotF Reg.SYNn_SLOTk_FREQ n k)) * 1000, (slotBw c n k * 2147483648 / 2 : Nat))

/-- Two slots' bands are at least B / 4 apart (R149). -/
def guarded (c : RegFile) (n : Lane) (i j : Nat) : Bool :=
  let a := slotBand c n i
  let b := slotBand c n j
  let gap := if a.1 ≤ b.1 then (b.1 - b.2) - (a.1 + a.2) else (a.1 - a.2) - (b.1 + b.2)
  decide (a.2 ≤ 2 * gap)

/-- The slot count of the lane mode (R45). -/
def slotsLegal (c : RegFile) (n : Lane) : Bool :=
  let k := (slotsOf c n).length
  match cfgDas c n with
  | 1 => 1 ≤ k
  | 2 => 2 ≤ k
  | 3 | 4 => k == 1
  | _ => true

/-- The references held fit the matched-filter store (R152). -/
def refsLegal (c : RegFile) (n : Lane) : Bool :=
  let held := if cfgDas c n = 2 then [0] else slotsOf c n
  let user := fun (k : Nat) => RegFile.get c ((Reg.SHOTn_SLOTk_MF_SRC.pg n).ix k) != 0
  !usesSlow c n ||
  (held.all (fun k => !user k || (1 ≤ refTaps c n k && refTaps c n k ≤ 20000)) &&
    (held.map (refTaps c n)).foldl (· + ·) 0 ≤ 20000)

/-- Budget 3 with R45, R90, R91, R149 and R152. [DEDUCED: log 35] -/
def budget3 (c : RegFile) (n : Lane) : Bool :=
  let sl := slotsOf c n
  let k := sl.length
  let same := fun (f : Fld) => sl.all fun i => RegFile.get c (slotF f n i) == RegFile.get c (slotF f n 0)
  !usesSlots c n ||
  (sl == List.range k && slotsLegal c n &&
    sl.all (fun i => !slotBad c (RegFile.get c (slotF Reg.SYNn_SLOTk_CFG_EDGE n i)) n i) &&
    same Reg.SYNn_SLOTk_CFG_BW &&
    (k == 0 || k * slotBw c n 0 ≤ 800) && (k ≤ 1 || slotBw c n 0 != 800) &&
    sl.all (fun i => sl.all fun j => !decide (i < j) || guarded c n i j) &&
    (cfgDas c n != 2 || (same Reg.SYNn_SLOTk_CFG_SHAPE && same Reg.SYNn_SLOTk_CFG_DIR && same Reg.SYNn_SLOTk_LEN)) &&
    (cfgDas c n != 4 || slotBw c n 0 == 800) && refsLegal c n)

/-- Budget 4: the dusk gap of every slot (R29). -/
def budget4 (c : RegFile) (n : Lane) : Bool :=
  !usesSlots c n || (slotsOf c n).isEmpty || decide (0 ≤ duskNs c n (cfgPeriod c n))

/-- Budget 5: launch spacing in RATE (R32). -/
def budget5 (c : RegFile) (n : Lane) : Bool :=
  cfgDas c n != 1 || (slotsOf c n).length * (maxLen c n + 1000) ≤ cfgPeriod c n

/-- Budget 6 with R183. -/
def budget6 (c : RegFile) (n : Lane) : Bool :=
  !usesSlow c n ||
  (4 * (points c n * kPhz c n) ≤ 5 * cfgPeriod c n && RegFile.get c (Reg.PHZn_WAVELENGTH.pg n) != 0 &&
    RegFile.get c (Reg.PHZn_XI.pg n) != 0 && RegFile.get c (Reg.PHZn_SR_CFG_SCALE.pg n) != 0)

/-- The slow-time fields of a lane (R196, R198, R203, R205). -/
def slowLegal (s : State) (c : RegFile) (n : Lane) : Bool :=
  let g := fun (f : Fld) => RegFile.get c (f.pg n)
  let nc := g Reg.SLOWn_CIC_ORDER
  let rc := g Reg.SLOWn_CIC_RATIO
  let taps := g Reg.SLOWn_FIR_CFG_TAPS
  let df := g Reg.SLOWn_FIR_CFG_DEC
  let out := g Reg.SLOWn_RS_PERIOD
  !usesSlow c n ||
  (nc * clog2 rc + 8 * rateBytes c n ≤ 40 && 1 ≤ nc && nc ≤ 6 && 1 ≤ rc && rc ≤ 64 && g Reg.SLOWn_CIC_SHIFT ≤ 36 &&
    1 ≤ taps && taps ≤ 512 && 1 ≤ df && df ≤ 16 && g Reg.SLOWn_FIR_SCALE_SHIFT ≤ 24 && g Reg.SLOWn_OUT_WIDTH ≤ 2 &&
    coefSum (s.slow.get n) (g Reg.SLOWn_FIR_CFG_BANK) taps ≤ 65536 &&
    (g Reg.SLOWn_RS_CFG_EN == 0 ||
      (cfgPeriod c n * slowDec c n ≤ out * kPhz c n && out * kPhz c n ≤ 2 * (cfgPeriod c n * slowDec c n) &&
        (g Reg.SLOWn_RS_CFG_LOCK == 0 || (out != 0 && 1000000000 % out == 0)))))

/-- MAC/s of a lane in units of 10⁹ (budget 7). -/
def macRate (c : RegFile) (n : Lane) : Nat × Nat :=
  if usesSlow c n then
    (points c n * kPhz c n * RegFile.get c (Reg.SLOWn_FIR_CFG_TAPS.pg n), max (cfgPeriod c n * slowDec c n) 1)
  else (0, 1)

/-- The lane's traffic of budget 8 in 10⁶ B/s. -/
def memRate (c : RegFile) (n : Lane) : Nat × Nat :=
  if usesSlow c n then
    let p := points c n
    let t := max (cfgPeriod c n) 1
    let phz := (2000 * p * kPhz c n * rateBytes c n, t)
    let hist := match RegFile.get c (Reg.CAPT_Ln_HIST_SRC.ix n) with
      | 1 =>
        if RegFile.get c (Reg.SLOWn_RS_CFG_EN.pg n) = 0 then (1000 * p * kPhz c n * outBytes c n, max (t * slowDec c n) 1)
        else (1000 * p * outBytes c n, max (RegFile.get c (Reg.SLOWn_RS_PERIOD.pg n)) 1)
      | 2 => (1000 * p * kPhz c n * rateBytes c n, t)
      | _ => (0, 1)
    fracAdd phz hist
  else (0, 1)

/-- The budget-8 figure over the lanes `ls`, in 10⁶ B/s. -/
def memFigure (c : RegFile) (ls : List Lane) : Nat × Nat := fracSum (ls.map (memRate c))

/-- R194 for one lane. -/
def ctLegal (c : RegFile) (n : Lane) : Bool :=
  let b := blockLen c n
  !usesSlow c n || (b != 0 && 8 * slowOverlap c n ≤ b && b % max (slowDec c n) 1 == 0)

/-- The corner-turn areas fit the region (R194). -/
def ctFits (c : RegFile) (regs : Amap (Nat × Nat)) (ls : List Lane) : Bool :=
  ((ls.filter (usesSlow c)).map (ctArea c)).foldl (· + ·) 0 ≤ (Amap.get regs 0 (0, 0)).2 * 2 ^ 20

/-- A lane of a configuration writes a history ring (R269). [DEDUCED: log 51] -/
def keepsHistory (c : RegFile) (n : Lane) : Bool := usesSlow c n && RegFile.get c (Reg.CAPT_Ln_HIST_SRC.ix n) != 0

/-- An enabled zone captures segments of lane `n` (R256, R269): the table in force, or the one that a pending commit takes over. [DEDUCED: log 51] -/
def zoneCaptures (s : State) (c : RegFile) (n : Lane) : Bool :=
  let w := if s.commitReady 0x038 then s.zone.shadow else s.zone.words
  keepsHistory c n && (List.range (RegFile.get c Reg.ZONE_COUNT_N)).any fun z =>
    zoneEn w z && zoneLane w z == n.val && bitsOf (zoneWord w z 4) 8 1 == 1

/-- The region entries that the lane modes and captures of a configuration require (R353). [DEDUCED: log 51] -/
def regionNeed (s : State) (c : RegFile) (ls : List Lane) (i : Nat) : Bool :=
  match i with
  | 0 => ls.any (usesSlow c)
  | 1 => ls.contains 0 && keepsHistory c 0
  | 2 => ls.contains 1 && keepsHistory c 1
  | 3 => ls.any (zoneCaptures s c)
  | 6 => ls.any fun n => cfgMode c n == 7
  | _ => false

/-- Budget 9 for one lane (R221), with a zero group index in THERMAL (R141). -/
def budget9 (c : RegFile) (n : Lane) : Bool :=
  let g := RegFile.get c
  let t := cfgPeriod c n
  !ramanMode (cfgMode c n) ||
  (groupIndex c n != 0 && ramanTotal c n ≤ 262144 &&
    roundTripNs c n + g Reg.DTS_PULSE_WIDTH + g Reg.MERID_GUARD_GUARD_NS ≤ g Reg.DTS_SCHED_M * t &&
    t % 4 == 0 && g Reg.DTS_OFFSET % 4 == 0 && g Reg.DTS_OFFSET < t && g Reg.DTS_CFG_PRE ≤ g (Reg.DTS_Ln_TAU0.ix n) &&
    4 * g Reg.DTS_CFG_BASE_N ≤ g Reg.MERID_GUARD_GUARD_NS)

/-- Both lanes use the Raman path and their periods differ (R221). -/
def ramanSplit (c : RegFile) (ls : List Lane) : Bool :=
  ls.length == 2 && ls.all (fun n => ramanMode (cfgMode c n)) && cfgPeriod c 0 != cfgPeriod c 1

/-- Budget 10 (R25); `other` says that the lane that is not the tick source is not OFF. -/
def budget10 (c : RegFile) (other : Bool) : Bool :=
  let t := RegFile.get c Reg.MERID_PERIOD_PERIOD_NS
  let n := RegFile.get c Reg.MERID_DIV_N
  10000 ≤ t && t ≤ 2000000 && 1 ≤ n && n ≤ 200 && (!other || n * t ≤ 2000000)

/-- The number of the first budget that fails (R48, R53) for lanes `ls`, which are not OFF; `regs` is the region table and
`regErr` its first failing entry. [DEDUCED: log 25] -/
def budgetFail (s : State) (c : RegFile) (regs : Amap (Nat × Nat)) (regErr : Option Nat) (ls : List Lane) : Option Nat :=
  let all := fun (b : RegFile → Lane → Bool) => ls.all (b c)
  let src : Lane := if RegFile.get c Reg.MERID_CFG_SRC = 0 then 0 else 1
  let ok : Nat → Bool := fun i =>
    match i with
    | 1 => all budget1
    | 2 => all budget2
    | 3 => all budget3
    | 4 => all budget4
    | 5 => all budget5
    | 6 => all budget6
    | 7 => all (slowLegal s) && fracLe (fracSum (ls.map (macRate c))) 256
    | 8 => all ctLegal && ctFits c regs ls && regErr.isNone && (let f := memFigure c ls; decide (10 * f.1 ≤ 7 * peakMBs s * f.2))
    | 9 => all budget9 && !ramanSplit c ls
    | _ => budget10 c (ls.any fun n => n != src)
  [1, 2, 3, 4, 5, 6, 7, 8, 9, 10].find? fun i => !ok i

/-- A transition or lane restart is refused (R47, R48, R51). [DEDUCED: log 87] -/
def refuse (code detail : Nat) (s : State) : State :=
  (s.setSt Reg.SYS_MODE_STATUS_REJECT code).setSt Reg.SYS_MODE_STATUS_REJECT_DETAIL detail

end Sys2Proof.Machine
end

