-- ==== Sys2Proof/Machine/Crypto.lean ====
section
/-!
DEFINITION. SHA-256, HMAC-SHA-256 and ECDSA over P-256, which R391 and R464 name (FIPS 180-4, RFC 2104, FIPS 186-4).
-/

namespace Sys2Proof.Machine

/-- A number's `n` bytes, most significant first; and the number that such bytes spell. -/
def beBytes (n v : Nat) : List Byte := (leBytes n v).reverse
def beNat (l : List Byte) : Nat := leNat l.reverse

/-- The round constants: 32 fraction bits of the cube roots of the first 64 primes. -/
def shaK : List Nat :=
  [0x428a2f98, 0x71374491, 0xb5c0fbcf, 0xe9b5dba5, 0x3956c25b, 0x59f111f1, 0x923f82a4, 0xab1c5ed5] ++
  [0xd807aa98, 0x12835b01, 0x243185be, 0x550c7dc3, 0x72be5d74, 0x80deb1fe, 0x9bdc06a7, 0xc19bf174] ++
  [0xe49b69c1, 0xefbe4786, 0x0fc19dc6, 0x240ca1cc, 0x2de92c6f, 0x4a7484aa, 0x5cb0a9dc, 0x76f988da] ++
  [0x983e5152, 0xa831c66d, 0xb00327c8, 0xbf597fc7, 0xc6e00bf3, 0xd5a79147, 0x06ca6351, 0x14292967] ++
  [0x27b70a85, 0x2e1b2138, 0x4d2c6dfc, 0x53380d13, 0x650a7354, 0x766a0abb, 0x81c2c92e, 0x92722c85] ++
  [0xa2bfe8a1, 0xa81a664b, 0xc24b8b70, 0xc76c51a3, 0xd192e819, 0xd6990624, 0xf40e3585, 0x106aa070] ++
  [0x19a4c116, 0x1e376c08, 0x2748774c, 0x34b0bcb5, 0x391c0cb3, 0x4ed8aa4a, 0x5b9cca4f, 0x682e6ff3] ++
  [0x748f82ee, 0x78a5636f, 0x84c87814, 0x8cc70208, 0x90befffa, 0xa4506ceb, 0xbef9a3f7, 0xc67178f2]

/-- The initial value: 32 fraction bits of the square roots of the first 8 primes. -/
def shaH : List Nat :=
  [0x6a09e667, 0xbb67ae85, 0x3c6ef372, 0xa54ff53a, 0x510e527f, 0x9b05688c, 0x1f83d9ab, 0x5be0cd19]

/-- Rotation of a 32-bit word to the right. -/
def ror (x k : Nat) : Nat := x / 2 ^ k + x % 2 ^ k * 2 ^ (32 - k)

/-- The schedule from the last 16 words, newest first, for `n` more words; the result newest first. -/
def shaSchedule : Nat → List Nat → List Nat
  | 0, w => w
  | n + 1, w =>
    let a := w.getD 14 0
    let b := w.getD 1 0
    let s0 := ror a 7 ^^^ ror a 18 ^^^ (a / 8)
    let s1 := ror b 17 ^^^ ror b 19 ^^^ (b / 1024)
    shaSchedule n (((w.getD 15 0 + s0 + w.getD 6 0 + s1) % 2 ^ 32) :: w)

/-- One round on the eight working words. -/
def shaRound (v : List Nat) (kw : Nat) : List Nat :=
  match v with
  | [a, b, c, d, e, f, g, h] =>
    let t1 := h + (ror e 6 ^^^ ror e 11 ^^^ ror e 25) + ((e &&& f) ^^^ ((0xFFFFFFFF ^^^ e) &&& g)) + kw
    let t2 := (ror a 2 ^^^ ror a 13 ^^^ ror a 22) + ((a &&& b) ^^^ (a &&& c) ^^^ (b &&& c))
    [(t1 + t2) % 2 ^ 32, a, b, c, (d + t1) % 2 ^ 32, e, f, g]
  | _ => v

/-- The compression of one 64-byte block. -/
def shaBlock (h : List Nat) (block : List Byte) : List Nat :=
  let w := (List.range 16).map fun i => beNat ((block.drop (4 * i)).take 4)
  let ws := (shaSchedule 48 w.reverse).reverse
  let v := (shaK.zip ws).foldl (fun v e => shaRound v (e.1 + e.2)) h
  (h.zip v).map fun e => (e.1 + e.2) % 2 ^ 32

/-- The message with its padding. -/
def shaPad (m : List Byte) : List Byte :=
  m ++ (128 : Byte) :: (List.replicate ((119 - m.length % 64) % 64) (0 : Byte) ++ beBytes 8 (8 * m.length))

/-- `n` blocks of a padded message. -/
def shaBlocks : Nat → List Byte → List Nat → List Nat
  | 0, _, h => h
  | n + 1, m, h => shaBlocks n (m.drop 64) (shaBlock h (m.take 64))

/-- SHA-256. [DEDUCED: log 79] -/
def sha256 (m : List Byte) : List Byte :=
  let p := shaPad m
  (shaBlocks (p.length / 64) p shaH).flatMap (beBytes 4)

/-- HMAC-SHA-256 under a key of at most 64 bytes. [DEDUCED: log 79] -/
def hmac (key m : List Byte) : List Byte :=
  let k := key ++ List.replicate (64 - key.length) 0
  sha256 ((k.map (· ^^^ 0x5C)) ++ sha256 ((k.map (· ^^^ 0x36)) ++ m))

/-! ### ECDSA over P-256 -/

def p256 : Nat := 2 ^ 256 - 2 ^ 224 + 2 ^ 192 + 2 ^ 96 - 1
def p256n : Nat := 0xffffffff00000000ffffffffffffffffbce6faada7179e84f3b9cac2fc632551
def p256b : Nat := 0x5ac635d8aa3a93e7b3ebbd55769886bc651d06b0cc53b0f63bce3c3e27d2604b
def p256g : Nat × Nat :=
  (0x6b17d1f2e12c4247f8bce6e563a440f277037d812deb33a0f4a13945d898c296,
   0x4fe342e2fe1a7f9b8ee7eb4a7c0f9e162bce33576b315ececbb6406837bf51f5)

/-- `a^e` modulo `m`, over `k` bits of `e`. -/
def powMod (a m : Nat) : Nat → Nat → Nat
  | 0, _ => 1 % m
  | k + 1, e => let h := powMod a m k (e / 2); if e % 2 = 1 then h * h % m * a % m else h * h % m

/-- A point in Jacobian coordinates; Z = 0 is the point at infinity. -/
abbrev JPoint := Nat × Nat × Nat

/-- Subtraction modulo the prime. -/
def subP (a b : Nat) : Nat := (a + (p256 - b % p256)) % p256

/-- Doubling. -/
def jDouble (p : JPoint) : JPoint :=
  let (x, y, z) := p
  if z = 0 ∨ y = 0 then (1, 1, 0) else
    let zz := z * z % p256
    let m := 3 * subP x zz * (x + zz) % p256
    let yy := y * y % p256
    let s := 4 * x * yy % p256
    let x3 := subP (m * m) (2 * s)
    (x3, subP (m * subP s x3) (8 * yy * yy), 2 * y * z % p256)

/-- Addition. -/
def jAdd (p q : JPoint) : JPoint :=
  let (x1, y1, z1) := p
  let (x2, y2, z2) := q
  if z1 = 0 then q else if z2 = 0 then p else
    let u1 := x1 * z2 * z2 % p256
    let u2 := x2 * z1 * z1 % p256
    let s1 := y1 * z2 * z2 * z2 % p256
    let s2 := y2 * z1 * z1 * z1 % p256
    if u1 = u2 then (if s1 = s2 then jDouble p else (1, 1, 0)) else
      let h := subP u2 u1
      let r := subP s2 s1
      let hh := h * h % p256
      let v := u1 * hh % p256
      let x3 := subP (r * r) (hh * h + 2 * v)
      (x3, subP (r * subP v x3) (s1 * hh * h), h * z1 * z2 % p256)

/-- A multiple of a point, over `k` bits. -/
def jMul (p : JPoint) : Nat → Nat → JPoint
  | 0, _ => (1, 1, 0)
  | k + 1, e => let h := jDouble (jMul p k (e / 2)); if e % 2 = 1 then jAdd h p else h

/-- ECDSA verification of a hash `e` under the public point `q`. [DEDUCED: log 79] -/
def ecdsaVerify (q : Nat × Nat) (e r s : Nat) : Bool :=
  let onCurve := q.1 < p256 && q.2 < p256 && q.2 * q.2 % p256 == (q.1 * q.1 * q.1 + (p256 - 3) * q.1 + p256b) % p256
  if !onCurve || r == 0 || s == 0 || p256n ≤ r || p256n ≤ s then false
  else
    let w := powMod s p256n 256 (p256n - 2)
    let x := jAdd (jMul (p256g.1, p256g.2, 1) 256 (e * w % p256n)) (jMul (q.1, q.2, 1) 256 (r * w % p256n))
    let zz := x.2.2 * x.2.2 % p256
    x.2.2 != 0 && ((x.1 == r * zz % p256) || (r + p256n < p256 && x.1 == (r + p256n) * zz % p256))

end Sys2Proof.Machine
end

