-- ==== Sys2Proof/Machine/Stream.lean ====
section
/-!
DEFINITION. Streams, subscribers, leases and admission (R378 to R394).
-/

namespace Sys2Proof.Machine

/-! ### rates (R386) -/

/-- A stream's rates in units of 1 per second: samples, the bytes of each, records, the bytes of a record's lead. -/
structure Rate where
  samples : Nat × Nat := (0, 1)
  bytes : Nat := 5
  comps : Nat := 1
  recs : Nat × Nat := (0, 1)
  lead : Nat := 0

/-- B in bytes per second (R386): uncompressed bytes and 48 for each record. -/
def Rate.b (r : Rate) : Nat × Nat := fracAdd (r.samples.1 * r.bytes, r.samples.2) (r.recs.1 * (48 + r.lead), r.recs.2)

/-- Residuals per second, by components (R336). -/
def Rate.residuals (r : Rate) : Nat × Nat := (r.samples.1 * r.comps, r.samples.2)

/-- 10⁹ · a / b per second, for times in ns. -/
def perS (a b : Nat) : Nat × Nat := (1000000000 * a, max b 1)

/-- How many points, bins or positions a lane has for a product; 0 for a product without such a range. -/
def selTotal (c : RegFile) (x : Selection) : Nat :=
  let n : Lane := Fin.ofNat 2 x.lane
  match x.product with
  | 0x01 => RegFile.get c (Reg.SHOTn_TRACE_LEN.pg n)
  | 0x02 | 0x03 | 0x04 | 0x05 | 0x0E => points c n
  | 0x09 => ramanPoints c n / 2 ^ RegFile.get c Reg.DTS_CFG_BIN
  | 0x0A => ramanTotal c n
  | _ => 0

/-- The rates of a frame product (R163, R166, R186 to R188, R212, R213, R233, R234), as records are formed. [DEDUCED: log 65] -/
def selRate (c : RegFile) (x : Selection) : Rate :=
  let n : Lane := Fin.ofNat 2 x.lane
  let m := ((selRange x (selTotal c x)).map (·.2)).getD 0
  let t := cfgPeriod c n
  let fr := max x.frames 1
  let k := kPhz c n
  let framed : Rate := { recs := perS 1 (t * fr) }
  match x.product with
  | 0x01 =>
    let chans := ((List.range 4).filter fun i => x.src / 2 ^ i % 2 == 1 && RegFile.get c (Reg.SHOTn_TRACE_CFG_CH.pg n) / 2 ^ i % 2 == 1).length
    { samples := perS (chans * m) t, bytes := 2, recs := perS (chans * ((m + 65535) / 65536)) t }
  | 0x02 => { framed with samples := perS (m * k) t, comps := 2 }
  | 0x03 => { framed with samples := perS (m * k) t }
  | 0x04 => { framed with samples := perS (m * k) t, bytes := rateBytes c n }
  | 0x0E =>
    let d := 2 ^ RegFile.get c (Reg.PHZn_QUAL_CFG_QUAL_DEC.pg n)
    { samples := perS (m * k) (t * d), recs := perS 1 (t * d * fr) }
  | 0x05 =>
    let out := if RegFile.get c (Reg.SLOWn_RS_CFG_EN.pg n) = 0 then perS (m * k) (t * slowDec c n)
      else perS m (RegFile.get c (Reg.SLOWn_RS_PERIOD.pg n))
    let b := outBytes c n
    { framed with samples := out, bytes := b, lead := leadLen 0x05 (widthCode b) 0 }
  | 0x09 =>
    let per := RegFile.get c Reg.DTS_AVG_SHOTS * RegFile.get c Reg.DTS_SCHED_M * t
    { samples := perS m per, bytes := 3, recs := perS 1 per, lead := leadLen 0x09 2 0 }
  | 0x0A =>
    let per := RegFile.get c Reg.DTS_AVG_SHOTS * RegFile.get c Reg.DTS_SCHED_M * t
    { samples := perS (2 * m) per, recs := perS 1 per, lead := leadLen 0x0A 4 0 }
  | _ => {}

/-- Entry products and segments, whose rate the configuration does not fix. [DEDUCED: log 65] -/
def entryProduct (p : Nat) : Bool := [0x06, 0x07, 0x08, 0x0B, 0x0C, 0x0D].contains p

/-- A selection's numbers, as the free rates of entry products depend on them. -/
def selWords (x : Selection) : Nat × Nat := (x.first + 2 ^ 32 * x.count, x.frames + 2 ^ 16 * x.src + 2 ^ 32 * x.lane)

/-- B of a stream. -/
def streamB (c : RegFile) (x : Selection) : Nat × Nat :=
  if entryProduct x.product then (Config.entryRate x.product (selWords x).1 (2 * (selWords x).2), 1) else (selRate c x).b

/-- Residuals per second of a stream. -/
def streamResiduals (c : RegFile) (x : Selection) : Nat × Nat :=
  if entryProduct x.product then (Config.entryRate x.product (selWords x).1 (2 * (selWords x).2 + 1), 1) else (selRate c x).residuals

/-- The configuration that admission uses: in CONFIG and STANDBY that of the next entry to RUN (R385). -/
def admitCfg (s : State) : RegFile := if s.mode = 1 ∨ s.mode = 2 then nextCfg s true [0, 1] else s.live

/-- The lanes that count in the budget-8 figure of admission. -/
def admitLanes (s : State) (c : RegFile) : List Lane :=
  [(0 : Lane), 1].filter fun n => if s.mode = 1 ∨ s.mode = 2 then cfgMode c n != 0 else s.laneState n != 0

/-! ### entries -/

/-- An address is an IPv4 one (IPv4-mapped, R390). -/
def isV4 (a : Nat) : Bool := a / 2 ^ 32 == 0xFFFF

/-- O of R386. -/
def flowOverhead (s : State) (p : Fin 2) (a : Nat) : Nat :=
  (if isV4 a then 82 else 102) + (if s.on (Reg.ETHn_CFG_VLAN_EN.pg p) then 4 else 0)

/-- Where an entry's data goes: GROUP, or the source address. -/
def flowAddr (b : SubBody) (a : Nat) : Nat := if b.delivery = 1 then b.group else a

/-- SUB_TOKEN of an entry (R381). -/
def tokenOf (s : State) (i : Nat) : Nat := (s.sub i).gen * 2 ^ 16 + i

/-- The entry that a control message's token names: JOINING or ACTIVE, and of the message's own transport or function (R381). -/
def tokenEntry (s : State) (c : Ctl) : Option Nat :=
  let i := c.token.toNat % 256
  let x := s.sub i
  let own := match c.path, x.path with
    | .mailbox f, .mailbox g => f == g
    | .eth .., .eth .. => true
    | _, _ => false
  if c.token.toNat / 2 ^ 8 % 256 = 0 ∧ c.token.toNat / 2 ^ 16 = x.gen ∧ (x.st = 1 ∨ x.st = 2) ∧ own = true then some i else none

/-- STRM_SUBS follows the table. -/
def syncSubs (s : State) : State := s.setSt Reg.STRM_SUBS (s.strm.subs.filter fun e => e.2.st != 0).length

/-- Entries that are FREE. -/
def freeSubs (s : State) : Nat := 256 - (s.strm.subs.filter fun e => e.2.st != 0).length

/-- A lease renewed or granted at `t` for `g` seconds (R383). -/
def grantLease (i : Nat) (t : Time) (g : Nat) (s : State) : State :=
  s.setSub i { s.sub i with granted := g, expiry := t + BitVec.ofNat 64 (g * duPerS) }

/-- The seconds granted of those requested (R383). -/
def grantOf (s : State) (req : Nat) : Nat := min req (s.lv Reg.STRM_LEASE_MAX)

/-- A stream that has lost its last consumer stops at its next record boundary (R379, R384). [DEDUCED: log 68] -/
def stopIfUnused (sid : Nat) (s : State) : State :=
  let used := s.strm.subs.any fun e => (e.2.st == 1 || e.2.st == 2) && e.2.sels.any (·.sid == sid)
  if used then s else stopAtBoundary sid (s.updStream sid fun x => { x with stopping := true })

/-- The streams of a list of selections release what no consumer holds, and stop where none is left. [DEDUCED: log 68] -/
def releaseStreams (sids : List Nat) (s : State) : State :=
  sids.foldl (fun s sid =>
    match s.stream sid with
    | some x => stopIfUnused sid (releaseChain x.slot s)
    | none => s) s

/-- An entry hands its flow to the next entry of the same multicast flow: the records not begun (R390). [DEDUCED: log 68] -/
def handFlow (i : Nat) (before : State) (s : State) : State :=
  let x := before.sub i
  match s.strm.subs.find? fun e => e.1 != i && flowLead before e.1 == i && (e.2.st == 1 || e.2.st == 2) with
  | none => s
  | some (j, y) =>
    s.setSub j { y with sels := y.sels.zipIdx.map fun e =>
      let left := ((x.sels[e.2]?).map fun ss => ss.todo.drop (x.inHand e.2).toList.length).getD []
      if e.1.wait then e.1 else { e.1 with todo := left } }

/-- The record in delivery has sent no byte yet. -/
def Sub.unsent (x : Sub) : Bool := match x.cur with | some (_, n) => n == 0 | none => true

/-- The transmit flow of an entry. -/
def flowOf (s : State) (p : Fin 2) (i : Nat) : List Dgram := Amap.get (s.strm.ports.get p).flows i []
def setFlow (p : Fin 2) (i : Nat) (l : List Dgram) (s : State) : State :=
  let q := s.strm.ports.get p
  { s with strm := { s.strm with ports := s.strm.ports.set p { q with
      flows := if l.isEmpty then Amap.del q.flows i else Amap.put i l q.flows } } }

/-- An entry becomes FREE (R382): its generation stays; its channel loses its subscriber (R414). -/
def freeEntry (i : Nat) (s : State) : State :=
  let x := s.sub i
  let s1 := s.setSub i { gen := x.gen }
  let s2 := match x.path with
    | .mailbox _ =>
      let ch := x.chan
      let t := s1.setSt (Reg.DMACHn_STATUS_BOUND.pg ch) 0
      if t.chanState ch = 1 ∧ s.lv (Reg.DMACHn_CFG_MODE.pg ch) ≠ 3 then
        ((t.setSt (Reg.DMACHn_STATUS_STATE.pg ch) 0).setSt (Reg.DMACHn_STATUS_WAITING_RP.pg ch) 0).setSt
          (Reg.DMACHn_STATUS_WAITING_DATA.pg ch) 0
      else t
    | .eth .. => s1
  syncSubs s2

/-- An entry leaves JOINING or ACTIVE (R384): a record of which bytes have been sent goes on to its end; the rest is released. -/
def closeEntry (i : Nat) (s : State) : State :=
  let x := s.sub i
  if x.st ≠ 1 ∧ x.st ≠ 2 then s
  else
    let cur := if x.unsent then none else x.cur
    let x1 := { x with cur := cur }
    let y := { x1 with
      st := 3, sels := x.sels.zipIdx.map fun e => { e.1 with todo := (x1.inHand e.2).toList, wait := true, dropping := false } }
    let s1 := s.setSub i y
    let s2 := match x.path with
      | .eth p _ _ => if cur.isNone then setFlow p i [] s1 else s1
      | .mailbox _ => s1
    releaseStreams (x.sels.map (·.sid)) (syncSubs (handFlow i s s2))

/-- ENTRY_FREE (R382): the records of a CLOSING entry are complete. -/
def execEntryFree (i : Nat) (s : State) : Res :=
  .next (if (s.sub i).st = 3 ∧ (s.sub i).cur = none then freeEntry i s else s)

/-- LEASE_EXPIRY (R383, R384, R412). -/
def execLeaseExpiry (t : Time) (i : Nat) (s : State) : Res :=
  let s0 := advance t s
  let x := s0.sub i
  .next (if s0.mode ≠ 5 ∧ (x.st = 1 ∨ x.st = 2) ∧ 0 ≤ tDiff t x.expiry then
    let s1 := ((closeEntry i s0).bump Reg.STRM_EXPIRED).raise 0x090 2
    match x.path with
    | .mailbox f => signal f.val 3 s1
    | .eth .. => s1
  else s0)

/-! ### replies -/

def State.mb (s : State) (k : Nat) : Mbox := Amap.get s.mbox k {}
def State.setMb (k : Nat) (m : Mbox) (s : State) : State := { s with mbox := Amap.put k m s.mbox }

/-- The steward's answer for the mailbox `k`; it is written when MBOX_DONE comes. -/
def mboxAnswer (k : Nat) (a : Answer) (s : State) : State := s.setMb k { s.mb k with answer := some a }

/-- The bytes of a key (R391). [DEDUCED: log 72] -/
def keyOf (s : State) (k : Fin 4) : Option (List Byte) := Amap.find k.val s.strm.keys

/-- A Cloarku message (R388), with its trailer where it is authenticated (R391). -/
def cloarku (s : State) (typ token : Nat) (xid : Word) (auth : Option (Fin 4)) (body : List Byte) : List Byte :=
  let m := leBytes 2 0x434B ++ leBytes 1 1 ++ leBytes 1 typ ++ leBytes 1 (bit auth.isSome) ++
    leBytes 1 ((auth.map (·.val)).getD 0) ++ leBytes 2 body.length ++ leBytes 4 token ++ leBytes 4 xid.toNat ++ body
  match auth.bind (keyOf s) with
  | some k => m ++ (hmac k m).take 16
  | none => m

/-- Queue a control reply on a port (R399). [DEDUCED: log 67] -/
def queueReply (p : Fin 2) (a port : Nat) (l : List Byte) (s : State) : State :=
  let q := s.strm.ports.get p
  { s with strm := { s.strm with ports := s.strm.ports.set p { q with stew := q.stew ++ [.reply a port l] } } }

/-- The answer of a control message of type `typ`: a datagram, stored for repeats (R389, R392), or a mailbox reply (R462). [DEDUCED: log 67] -/
def answerCtl (t : Time) (c : Ctl) (typ token result retry : Nat) (body : List Byte) (s : State) : State :=
  match c.path with
  | .mailbox f => mboxAnswer f.val { result := result, retry := retry, token := token, body := body } s
  | .eth p a port =>
    let l := cloarku s (typ + 128) token c.xid c.auth body
    let s1 := { s with strm := { s.strm with replies := (⟨c.path, typ, c.xid, t, l⟩ :: s.strm.replies).take 256 } }
    queueReply p a port l s1

/-- The stored reply of a repeated request (R392). [DEDUCED: log 67] -/
def storedReply (s : State) (t : Time) (c : Ctl) (typ : Nat) : Option (List Byte) :=
  match c.path with
  | .mailbox _ => none
  | .eth _ a port =>
    (s.strm.replies.find? fun r =>
      r.typ == typ && r.xid == c.xid && decide ((tDiff t r.at_).natAbs ≤ 10 * duPerS) &&
      (match r.path with | .eth _ a' port' => a' == a && port' == port | .mailbox _ => false)).map (·.bytes)

/-- A message fails authentication (R391). [DEDUCED: log 67] -/
def authFail (s : State) : State := (s.bump Reg.STRM_AUTH_FAILS).raise 0x090 4

/-- The stewards run the resident section alone: only its mailbox commands are served (R466). -/
def resident (s : State) : Bool := s.stOn Reg.MGMT_BOOT_STATUS_RESIDENT

/-- A control message of type `typ` as it is taken: dropped, answered again, or served by `k` (R391, R392, R466). [DEDUCED: log 67] -/
def control (t : Time) (c : Ctl) (typ : Nat) (k : State → State) (s : State) : State :=
  match c.path with
  | .mailbox f => if resident s then mboxAnswer f.val { result := 5, token := c.token.toNat } s else k s
  | .eth p a port =>
    if resident s || (s.on Reg.STRM_CFG_AUTH_REQUIRE && c.auth.isNone) then s
    else if c.auth.isSome && (c.auth.bind (keyOf s)).isNone then authFail s
    else match storedReply s t c typ with
    | some l => queueReply p a port l s
    | none =>
      match tokenEntry s c with
      | none => k s
      | some i =>
        if c.auth.isSome && ((s.sub i).xid.map fun x => decide (c.xid.toNat ≤ x.toNat)).getD false then authFail s
        else k (s.setSub i { s.sub i with xid := some c.xid })

/-- An accepted message renews the entry its token names with the length last granted (R383). -/
def renewLast (t : Time) (c : Ctl) (s : State) : State :=
  match tokenEntry s c with
  | some i => grantLease i t (s.sub i).granted s
  | none => s

/-- A HELLO is answered (R389). -/
def doHello (t : Time) (c : Ctl) (s : State) : State :=
  control t c 1 (fun s =>
    renewLast t c (answerCtl t c 1 c.token.toNat 0 0
      (leBytes 1 1 ++ leBytes 1 (s.lv Reg.STRM_CFG_AUTH_REQUIRE) ++ leBytes 2 (freeSubs s) ++
        leBytes 2 (s.lv Reg.STRM_LEASE_MAX) ++ leBytes 2 0 ++ leBytes 8 t.toNat) s)) (advance t s)

/-- HELLO (R389). -/
def execHello (t : Time) (c : Ctl) (s : State) : Res := .next (doHello t c s)

/-- A RENEW is answered (R383, R389). [DEDUCED: log 67] -/
def doRenew (t : Time) (c : Ctl) (leaseS : Nat) (s : State) : State :=
  control t c 3 (fun s =>
    let say := fun (r g : Nat) => answerCtl t c 3 c.token.toNat 0 0 (leBytes 1 r ++ leBytes 1 0 ++ leBytes 2 g)
    match tokenEntry s c with
    | none => say 9 0 s
    | some i => if leaseS = 0 then say 4 0 s else grantLease i t (grantOf s leaseS) (say 0 (grantOf s leaseS) s)) (advance t s)

/-- RENEW (R383). -/
def execRenew (t : Time) (c : Ctl) (leaseS : Nat) (s : State) : Res := .next (doRenew t c leaseS s)

/-- An UNSUBSCRIBE is answered (R382, R389). -/
def doUnsubscribe (t : Time) (c : Ctl) (s : State) : State :=
  control t c 4 (fun s =>
    let say := fun (r : Nat) => answerCtl t c 4 c.token.toNat 0 0 (leBytes 1 r ++ leBytes 3 0)
    match tokenEntry s c with
    | none => say 9 s
    | some i => closeEntry i (say 0 s)) (advance t s)

/-- UNSUBSCRIBE (R382). -/
def execUnsubscribe (t : Time) (c : Ctl) (s : State) : Res := .next (doUnsubscribe t c s)

/-- Seconds left of a lease. -/
def leaseLeft (s : State) (t : Time) (i : Nat) : Nat := (max 0 (tDiff (s.sub i).expiry t)).toNat / duPerS

/-- A STATUS is answered (R389). -/
def doStatus (t : Time) (c : Ctl) (s : State) : State :=
  control t c 5 (fun s =>
    match tokenEntry s c with
    | none => answerCtl t c 5 c.token.toNat 0 0 (leBytes 1 9 ++ leBytes 3 0) s
    | some i =>
      let x := s.sub i
      renewLast t c (answerCtl t c 5 c.token.toNat 0 0
        (leBytes 1 0 ++ leBytes 1 x.st ++ leBytes 2 (leaseLeft s t i) ++
          x.sels.flatMap fun ss => leBytes 2 ss.sid ++ leBytes 2 0 ++ leBytes 4 ss.sent ++ leBytes 4 ss.drops ++ leBytes 4 ss.lastSeq)
        s)) (advance t s)

/-- STATUS (R389). -/
def execStatus (t : Time) (c : Ctl) (s : State) : Res := .next (doStatus t c s)

/-! ### admission (R385 to R387) -/

/-- The selection's product is formed by the lane's mode (R10, R24). -/
def selFormed (c : RegFile) (x : Selection) : Bool :=
  let n : Lane := Fin.ofNat 2 x.lane
  match x.product with
  | 0x01 => cfgMode c n == 7
  | 0x02 | 0x03 | 0x04 | 0x05 | 0x06 | 0x08 | 0x0E => usesSlow c n
  | 0x09 | 0x0A => ramanMode (cfgMode c n)
  | 0x07 | 0x0B | 0x0C | 0x0D => true
  | _ => false

/-- The selection fails the BAD_SEL check of R385. [DEDUCED: log 65] -/
def selBad (c : RegFile) (x : Selection) : Bool :=
  let laneless := [0x07, 0x0B, 0x0C, 0x0D].contains x.product
  let tot := selTotal c x
  !selFormed c x || (!laneless && 1 < x.lane) || x.frames == 0 ||
  (!entryProduct x.product && (tot ≤ x.first || decide (tot < x.first + x.count)))

/-- The streams and consumers that would stand with entry `i`'s selections replaced by `sels`. -/
structure Load where
  streams : List Selection
  readers : List Selection

/-- Selections of an entry. -/
def selsOf (b : SubBody) : List Selection := b.sels

/-- The load without entry `skip`. -/
def loadWithout (s : State) (skip : Option Nat) : Load :=
  let subs := s.strm.subs.filter fun e => (e.2.st == 1 || e.2.st == 2) && some e.1 != skip
  { streams := (subs.flatMap fun e => e.2.body.sels).eraseDups, readers := subs.flatMap fun e => e.2.body.sels }

/-- The load with further selections. -/
def Load.with_ (l : Load) (sels : List Selection) : Load :=
  { streams := (l.streams ++ sels).eraseDups, readers := l.readers ++ sels }

/-- The rate of a port's flow in bit/s times 256 (R386). [DEDUCED: log 65] -/
def flowRate (s : State) (c : RegFile) (p : Fin 2) (a : Nat) (b : SubBody) (sels : List Selection) : Nat × Nat :=
  let r := fracSum (sels.map (streamB c))
  let f := max b.fragBytes 1
  (8 * r.1 * (f + flowOverhead s p (flowAddr b a)) * s.lv Reg.STRM_ADMIT_FACTOR, r.2 * f)

/-- What the flows of a port have committed, in bit/s times 256; a shared multicast flow counts once. -/
def portRate (s : State) (c : RegFile) (p : Fin 2) (skip : Option Nat) : Nat × Nat :=
  let flows := s.strm.subs.filterMap fun e =>
    match e.2.path with
    | .eth p' a _ =>
      if p' = p ∧ (e.2.st = 1 ∨ e.2.st = 2) ∧ some e.1 ≠ skip then some (flowAddr e.2.body a, e.2.body, e.1) else none
    | .mailbox _ => none
  let kept := flows.filter fun x => x.2.1.delivery != 1 ||
    !(flows.any fun y => decide (y.2.2 < x.2.2) && y.2.1.delivery == 1 && y.2.1.group == x.2.1.group && y.2.1.dataPort == x.2.1.dataPort &&
      y.2.1.sels == x.2.1.sels)
  fracSum (kept.map fun x => flowRate s c p x.1 x.2.1 x.2.1.sels)

/-- Another entry carries the same multicast flow on the port (R390). -/
def flowShared (s : State) (p : Fin 2) (b : SubBody) (skip : Option Nat) : Bool :=
  b.delivery == 1 && s.strm.subs.any fun e =>
    (e.2.st == 1 || e.2.st == 2) && some e.1 != skip && e.2.body.delivery == 1 && e.2.body.group == b.group &&
    e.2.body.dataPort == b.dataPort && e.2.body.sels == b.sels && (match e.2.path with | .eth p' _ _ => p' == p | _ => false)

/-- What the rings have committed, in B/s times 256. -/
def ringRate (s : State) (c : RegFile) (skip : Option Nat) : Nat × Nat :=
  fracSum (s.strm.subs.map fun e =>
    match e.2.path with
    | .mailbox _ =>
      if (e.2.st = 1 ∨ e.2.st = 2) ∧ some e.1 ≠ skip then
        let r := fracSum (e.2.body.sels.map (streamB c))
        (r.1 * s.lv Reg.STRM_ADMIT_FACTOR, r.2)
      else (0, 1)
    | .eth .. => (0, 1))

/-- A port's budget, or that of all rings, times 256: bit/s, or B/s (R386). -/
def transportLimit (s : State) (path : Path) : Nat :=
  match path with
  | .eth p _ _ =>
    let line := if s.on (Reg.ETHn_CFG_SPEED.pg p) then 10000000000 else 25000000000
    256 * (line * s.lv Reg.STRM_CFG_ETH_BUDGET / 100)
  | .mailbox _ => 256 * (s.lv Reg.STRM_PCIE_BUDGET * 1000000)

/-- What a path's transport has committed, and with `sels` added. -/
def committed (s : State) (c : RegFile) (path : Path) (skip : Option Nat) : Nat × Nat :=
  match path with
  | .eth p _ _ => portRate s c p skip
  | .mailbox _ => ringRate s c skip

def addedRate (s : State) (c : RegFile) (path : Path) (b : SubBody) (skip : Option Nat) (sels : List Selection) : Nat × Nat :=
  match path with
  | .eth p a _ => if flowShared s p b skip then (0, 1) else flowRate s c p a b sels
  | .mailbox _ => let r := fracSum (sels.map (streamB c)); (r.1 * s.lv Reg.STRM_ADMIT_FACTOR, r.2)

/-- The record-memory check (R386), in B/s. [DEDUCED: log 65] -/
def memFits (s : State) (c : RegFile) (l : Load) : Bool :=
  let b8 := memFigure c (admitLanes s c)
  let tot := fracSum [(b8.1 * 1000000, b8.2), fracSum (l.streams.map (streamB c)), fracSum (l.readers.map (streamB c))]
  decide (100 * tot.1 ≤ s.lv Reg.STRM_MEM_PCT * peakMBs s * 1000000 * tot.2)

/-- The index of the first selection with which the first of `sels` break a check. [DEDUCED: log 65] -/
def firstBreak (ok : List Selection → Bool) (sels : List Selection) : Option Nat :=
  (List.range sels.length).find? fun k => !ok (sels.take (k + 1))

/-- The port has an address of a family: a bound one of its own, or one taken from the twin (R396, R510). -/
def familyBound (s : State) (p : Fin 2) (v6 : Bool) : Bool :=
  s.stOn ((if v6 then Reg.ETHn_STATUS_V6_BOUND else Reg.ETHn_STATUS_V4_BOUND).pg p) ||
    (match Amap.find p.val s.twin.adopted with
     | some (_, a4, a6) => if v6 then a6 != 0 else a4 != 0
     | none => false)

/-- The port has link and a bound address of the family (R385). -/
def portReady (s : State) (p : Fin 2) (a : Nat) : Bool := s.stOn (Reg.ETHn_STATUS_LINK.pg p) && familyBound s p (!isV4 a)

/-- Slots that a new stream may take: neither bound nor in an engine. -/
def freeSlots (s : State) : List Nat := (List.range (admitSlots s)).filter fun c => !(s.ctx c).bound && !slotBusy s c

/-- The channel that a mailbox SUBSCRIBE names (R413, R462). -/
def subChan (f : Func) (b : SubBody) : Nat := 2 * f.val + b.dataPort % 2

/-- The channel is another entry's (R413). -/
def chanTaken (s : State) (ch : Nat) (skip : Option Nat) : Bool :=
  s.strm.subs.any fun e => e.2.st != 0 && some e.1 != skip && (match e.2.path with | .mailbox _ => e.2.chan == ch | .eth .. => false)

/-- A refusal: reason, SEL_INDEX, RETRY_AFTER, AVAIL. [DEDUCED: log 66] -/
structure Refused where
  reason : Nat
  index : Nat := 0xFF
  retry : Nat := 0
  avail : Nat := 0

/-- RETRY_AFTER of a BUSY reply (R387): drawn from STRM_BUSY_RETRY to 1.5 times it. [DEDUCED: log 66] -/
def retryAfter (s : State) : Nat :=
  let b := s.lv Reg.STRM_BUSY_RETRY
  b + Config.retryDraw s.free % (b / 2 + 1)

/-- The checks of R385, in order. [DEDUCED: log 65] -/
def admission (s : State) (c : Ctl) (b : SubBody) : Option Refused :=
  let cfg := admitCfg s
  let e := tokenEntry s c
  let n := b.sels.length
  let base := loadWithout s e
  let bound := s.strm.streams.map (·.sel)
  let fresh := fun (l : List Selection) => (l.eraseDups.filter fun x => !bound.contains x).length
  let com := committed s cfg c.path e
  let lim := transportLimit s c.path
  let bits := match c.path with | .eth .. => 1 | .mailbox _ => 8
  let mailbox := match c.path with | .mailbox _ => true | .eth .. => false
  let beyond := firstBreak (fun l => fracLe (fracAdd com (addedRate s cfg c.path b e l)) lim) b.sels
  let codec := firstBreak (fun l => fracLe (fracSum ((base.with_ l).streams.map (streamResiduals cfg))) 4800000000) b.sels
  let mem := firstBreak (fun l => memFits s cfg (base.with_ l)) b.sels
  let bad := (List.range n).find? fun k => ((b.sels[k]?).map (selBad cfg)).getD true
  if !s.on Reg.STRM_CFG_EN then some { reason := 0x0C }
  else if s.stOn Reg.SYS_STEWARD_LOAD_SHEDDING then some { reason := 1, retry := retryAfter s }
  else if (e.isNone && freeSubs s == 0) ||
      (match c.path with | .mailbox f => chanTaken s (subChan f b) e | .eth .. => false) then some { reason := 2 }
  else if n = 0 ∨ 16 < n then some { reason := 3 }
  else if b.leaseS = 0 ∨ s.mode = 5 ∨ (mailbox = true ∧ b.delivery = 1) then some { reason := 4 }
  else if let some k := bad then some { reason := 4, index := k }
  else if let some k := firstBreak (fun l => fresh l ≤ (freeSlots s).length) b.sels then some { reason := 5, index := k }
  else if let some k := beyond then
    some { reason := 6, index := k, avail := min 65535 (bits * (lim * com.2 - com.1) / (256 * com.2) / 1000000) }
  else if let some k := codec then some { reason := 7, index := k }
  else if let some k := mem then some { reason := 8, index := k }
  else if c.token ≠ 0 ∧ e.isNone then some { reason := 9 }
  else match c.path with
    | .mailbox _ => none
    | .eth p a _ =>
      if b.fragBytes < 256 ∨ 9088 < b.fragBytes ∨ s.lv (Reg.ETHn_MTU.pg p) < b.fragBytes + flowOverhead s p (flowAddr b a) - 20 then
        some { reason := 0x0A }
      else if !portReady s p a then some { reason := 0x0B } else none

/-- The reply body of a SUBSCRIBE (R390). -/
def subReply (reason index retry granted avail : Nat) (sids : List Nat) : List Byte :=
  leBytes 1 reason ++ leBytes 1 index ++ leBytes 2 retry ++ leBytes 2 granted ++ leBytes 2 avail ++
    sids.flatMap fun x => leBytes 2 x ++ leBytes 2 0

/-- The stream of a selection, bound where there is none (R379): the lowest free STREAM_ID and context slot. A stream that was
stopping and has a consumer again goes on. [DEDUCED: log 68] -/
def bindStream (t : Time) (x : Selection) (s : State) : State × Nat :=
  match s.strm.streams.find? fun y => y.sel = x with
  | some y => (s.updStream y.sid fun z => { z with stopping := false }, y.sid)
  | none =>
    let used := s.strm.streams.map (·.sid)
    let sid := ((List.range (used.length + 1)).find? fun k => !used.contains (k + 1)).getD 0 + 1
    let slot := (freeSlots s).headD 0
    let c := s.ctx slot
    let s1 := s.setCtx slot {
      bound := true, sid := sid, pred := c.pred, auto := c.auto, pass := c.pass, resync := c.resync, quota := c.quota }
    let l := s1.strm.streams ++ [{ sid := sid, slot := slot, sel := x, since := s.time, lastReset := some t }]
    (({ s1 with strm := { s1.strm with streams := l } }).setSt Reg.STRM_STREAMS l.length, sid)

/-- An entry's selection of a stream: one it already had goes on, another joins (R380, R382). [DEDUCED: log 68] -/
def joinStream (old : List SubSel) (fresh : Bool) (sid : Nat) (s : State) : State × SubSel :=
  match old.find? fun y => y.sid = sid with
  | some y => (s, y)
  | none => ((if fresh then s else forceReset sid s), { sid := sid, after := s.cmp.takes })

/-- Bind and join every selection of a body, in order. -/
def joinAll (t : Time) (old : List SubSel) : List Selection → State → State × List SubSel
  | [], s => (s, [])
  | x :: r, s =>
    let was := s.strm.streams.any fun y => y.sel == x
    let b := bindStream t x s
    let j := joinStream old (!was) b.2 b.1
    let rest := joinAll t old r j.1
    (rest.1, j.2 :: rest.2)

/-- Where a refusal came from (STRM_LAST_REFUSE.PATH). -/
def pathCode (p : Path) : Nat := match p with | .eth q _ _ => q.val | .mailbox _ => 2

/-- A refused SUBSCRIBE (R385, R387). -/
def refuseSub (t : Time) (c : Ctl) (r : Refused) (s : State) : State :=
  let body := subReply r.reason r.index r.retry 0 r.avail []
  let s1 := renewLast t c (answerCtl t c 2 c.token.toNat 0 0 body s)
  let s2 := (((s1.bump Reg.STRM_REFUSED).setSt Reg.STRM_LAST_REFUSE_REASON r.reason).setSt Reg.STRM_LAST_REFUSE_PATH
    (pathCode c.path)).raise 0x090 0
  if r.reason = 1 then { (s2.bump Reg.STRM_BUSY_REPLIES).raise 0x090 1 with free := s.free + 1 } else s2

/-- The lowest FREE entry. -/
def freeEntryIndex (s : State) : Nat := ((List.range 256).find? fun i => (s.sub i).st == 0).getD 0

/-- An admitted SUBSCRIBE (R379, R380, R382, R383). -/
def admitSub (t : Time) (c : Ctl) (b : SubBody) (s : State) : State :=
  let e := tokenEntry s c
  let i := e.getD (freeEntryIndex s)
  let x := s.sub i
  let g := grantOf s b.leaseS
  let j := joinAll t x.sels b.sels s
  let old := x.sels.filter fun y => !(j.2.any fun z => z.sid == y.sid)
  let ch := match c.path with | .mailbox f => subChan f b | .eth .. => 0
  let cur := x.cur.bind fun k => (x.sels[k.1]?).bind fun y => (j.2.findIdx? fun z => z.sid == y.sid).map fun k' => (k', k.2)
  let y : Sub := {
    gen := if e.isSome then x.gen else (x.gen + 1) % 2 ^ 16, st := if e.isSome then x.st else 1, path := if e.isSome then x.path else c.path
    chan := ch, granted := g, expiry := t + BitVec.ofNat 64 (g * duPerS), xid := if e.isSome then x.xid else some c.xid
    body := b, sels := j.2, cur := cur }
  let s1 := activate i (j.1.setSub i y)
  let s2 := match c.path with
    | .mailbox _ => (s1.when (e.isSome && x.chan != ch) fun s => s.setSt (Reg.DMACHn_STATUS_BOUND.pg x.chan) 0).setSt (Reg.DMACHn_STATUS_BOUND.pg ch) 1
    | .eth .. => s1
  let s3 := answerCtl t c 2 (tokenOf s2 i) 0 0 (subReply 0 0xFF 0 g 0 (j.2.map (·.sid))) s2
  releaseStreams (old.map (·.sid)) (syncSubs s3)

/-- A SUBSCRIBE is decided (R385). -/
def doSubscribe (t : Time) (c : Ctl) (b : SubBody) (s : State) : State :=
  control t c 2 (fun s =>
    match admission s c b with
    | some r => refuseSub t c r s
    | none => admitSub t c b s) (advance t s)

/-- SUBSCRIBE (R385). [DEDUCED: log 78] -/
def execSubscribe (t : Time) (c : Ctl) (b : SubBody) (s : State) : Res := .next (doSubscribe t c b s)

/-- JOIN_HOLDOFF_END (R380): the deferred reset is written. -/
def execJoinHoldoffEnd (t : Time) (sid : Nat) (s : State) : Res :=
  let s0 := advance t s
  .next (match s0.stream sid with
    | none => s0
    | some x =>
      if x.resetDue then
        (s0.setCtx x.slot { s0.ctx x.slot with resetPending := true }).updStream sid fun y => { y with
          resetDue := false, lastReset := some s0.time }
      else s0)

end Sys2Proof.Machine
end

