-- ==== Sys2Proof/Machine/Ethernet.lean ====
section
/-!
DEFINITION. DATA datagrams, the Ethernet ports and PTP (R393 to R406).
-/

namespace Sys2Proof.Machine

def State.port (s : State) (p : Fin 2) : Port := s.strm.ports.get p
def State.setPort (p : Fin 2) (x : Port) (s : State) : State := { s with strm := { s.strm with ports := s.strm.ports.set p x } }

/-- A port's page. -/
def ethPage (p : Fin 2) : Nat := 0x091 + p.val

/-- The port has link. -/
def linked (s : State) (p : Fin 2) : Bool := s.stOn (Reg.ETHn_STATUS_LINK.pg p)

/-! ### DATA (R393) -/

/-- Cut bytes into pieces of `k`. -/
def piecesOf (k : Nat) : Nat → List Byte → List (List Byte)
  | 0, _ => []
  | n + 1, l => if l.isEmpty then [] else l.take k :: piecesOf k n (l.drop k)

/-- The datagrams of a record: fragment `i` of STREAM_ID `sid` and SEQ `seq`. [DEDUCED: log 69] -/
def dataGrams (frag sid seq sel : Nat) (t : Time) (bytes : List Byte) : List Dgram :=
  let l := piecesOf (max frag 1) (bytes.length + 1) bytes
  l.zipIdx.map fun e =>
    let last := e.2 + 1 == l.length
    { at_ := t, last := last, sel := sel, seq := seq
      bytes := leBytes 2 0x434B ++ leBytes 1 1 ++ leBytes 1 0x40 ++ leBytes 1 (2 * bit last) ++ leBytes 1 0 ++ leBytes 2 e.1.length ++
        leBytes 2 sid ++ leBytes 2 e.2 ++ leBytes 4 seq ++ e.1 }

/-- DATA (R393): the next record of the flow of entry `i` becomes its datagrams. A record with an uncorrectable word of record
memory or of an SRAM is dropped (R15, R364). [DEDUCED: log 69] -/
def execData (i : Nat) (s0 : State) (e : Sram := ⟨0, false⟩) : Res :=
  let s := sramMet e s0
  let x := s.sub i
  .next (match x.path with
    | .mailbox _ => s
    | .eth p _ _ =>
      if flowLead s i ≠ i ∨ !linked s p ∨ x.cur.isSome then s
      else match nextRec s i with
      | none => s
      | some (k, _, r) =>
        let sid := ((x.sels[k]?).map (·.sid)).getD 0
        let slot := ((s.stream sid).map (·.slot)).getD 0
        if e.lost || recPoisoned s slot r then releaseChain slot (dropWaiting i k (fun q => q == r.seq) s)
        else
          let s1 := beginRec i k s
          setFlow p i (dataGrams x.body.fragBytes sid r.seq k s.time (carried s1 i k r)) s1)

/-! ### transmission (R399) -/

/-- Bytes of a flow's datagram as a frame. -/
def frameBytes (s : State) (p : Fin 2) (i : Nat) (d : Dgram) : Nat :=
  let x := s.sub i
  let a := match x.path with | .eth _ a _ => a | .mailbox _ => 0
  d.bytes.length - 16 + flowOverhead s p (flowAddr x.body a) - 20

/-- A frame has left: it is counted, and TX_RATE follows the last 1 ms. -/
def sentFrame (p : Fin 2) (t : Time) (n : Nat) (s : State) : State :=
  let x := s.port p
  let l := (t, n) :: x.sent.filter fun e => decide ((tDiff t e.1).toNat < 1000000 * duPerNs)
  ((s.setPort p { x with sent := l }).bump (Reg.ETHn_TX_FRAMES.pg p)).setSt (Reg.ETHn_TX_RATE.pg p)
    (min 65535 ((l.foldl (fun a e => a + e.2) 0) * 8 / 1000))

/-- What a port puts around a frame; `mcast` for a multicast stream (R395, R396). -/
def wireOf (s : State) (p : Fin 2) (mcast : Bool) : Wire := {
  mac := s.lv (Reg.ETHn_MAC_LO.pg p) + 2 ^ 32 * s.lv (Reg.ETHn_MAC_HI.pg p)
  tag := if s.on (Reg.ETHn_CFG_VLAN_EN.pg p) then some (s.lv (Reg.ETHn_CFG_VLAN_ID.pg p), s.lv (Reg.ETHn_CFG_VLAN_PCP.pg p)) else none
  hops := if mcast then some (s.lv (Reg.ETHn_MCAST_TTL.pg p)) else none }

/-- The head datagram of flow `i` leaves, from port 47311 (R388); with its last fragment the record is delivered (R400). [DEDUCED: log 69] -/
def sendFlow (p : Fin 2) (t : Time) (i : Nat) (s : State) : State :=
  match flowOf s p i with
  | [] => s
  | d :: rest =>
    let x := s.sub i
    let a := match x.path with | .eth _ a _ => a | .mailbox _ => 0
    let s1 := (setFlow p i rest s).emit (.frame p (flowAddr x.body a) x.body.dataPort d.bytes 47311 (wireOf s p (x.body.delivery == 1)))
    let s2 := sentFrame p t (frameBytes s p i d) s1
    let s3 := s2.setSub i { s2.sub i with cur := (s2.sub i).cur.map fun c => (c.1, c.2 + (d.bytes.length - 16)) }
    if d.last then delivered i d.sel s3 else s3

/-- The flow whose head has waited longer than TX_AGE, oldest first (R399). -/
def agedFlow (s : State) (p : Fin 2) (t : Time) : Option Nat :=
  let age := s.lv (Reg.ETHn_TX_AGE.pg p) * 1000 * duPerNs
  let l := (s.port p).flows.filterMap fun e =>
    e.2.head?.bind fun d => if (age : Int) < tDiff t d.at_ then some (e.1, tDiff t d.at_) else none
  (l.foldl (fun (b : Option (Nat × Int)) x =>
    match b with
    | none => some x
    | some y => if y.2 < x.2 then some x else b) none).map (·.1)

/-- The first flow after `i` in the round. -/
def nextFlow (q : Port) (i : Nat) : Option Nat :=
  match q.flows.find? fun e => decide (i < e.1) with
  | some e => some e.1
  | none => q.flows.head?.map (·.1)

/-- Deficit round-robin from the flow whose turn it is; `n` bounds the visits. The flow to send, and the port after. [DEDUCED: log 69] -/
def drr (s : State) (p : Fin 2) : Nat → Port → Option Nat × Port
  | 0, q => (none, q)
  | n + 1, q =>
    let i := q.turn
    let d := Amap.get q.deficit i 0
    match Amap.find i q.flows with
    | some (g :: _) =>
      let k := frameBytes s p i g
      if k ≤ d then (some i, { q with deficit := Amap.put i (d - k) q.deficit })
      else
        match nextFlow q i with
        | none => (none, q)
        | some j => drr s p n { q with
            turn := j, deficit := Amap.upd q.deficit j 0 (· + s.lv (Reg.ETHn_TX_QUANTUM.pg p)) }
    | _ =>
      match nextFlow q i with
      | none => (none, q)
      | some j => drr s p n { q with
          turn := j, deficit := Amap.upd (Amap.del q.deficit i) j 0 (· + s.lv (Reg.ETHn_TX_QUANTUM.pg p)) }

/-- A steward frame leaves; control replies come from port 47310 (R388). -/
def sendStew (p : Fin 2) (t : Time) (f : StewFrame) (s : State) : State :=
  let w := wireOf s p false
  match f with
  | .reply a port l => sentFrame p t (l.length + (if isV4 a then 46 else 66)) (s.emit (.frame p a port l 47310 w))
  | .ptp m => sentFrame p t 64 (s.emit (.ptp p m (s.on Reg.PTP_CFG_TRANSPORT) w))
  | .answer g => sentFrame p t 64 (s.emit (.answer p g w))
  | .announce m v4 v6 => sentFrame p t 64 (s.emit (.announce p m v4 v6 w))

/-- ETH_TX_FRAME (R75, R399): the port's next frame, by precedence; a PTP event message is stamped. -/
def execEthTxFrame (p : Fin 2) (t : Time) (s : State) : Res :=
  let s0 := advance t s
  let q := s0.port p
  .next (if !linked s0 p then s0
    else match q.events, q.stew with
    | m :: r, _ => sentFrame p t 64 ((stampSource (17 + p) t (s0.setPort p { q with events := r })).emit (.ptp p m (s0.on Reg.PTP_CFG_TRANSPORT) (wireOf s0 p false)))
    | [], f :: r => sendStew p t f (s0.setPort p { q with stew := r })
    | [], [] =>
      match agedFlow s0 p t with
      | some i => sendFlow p t i (s0.bump (Reg.ETHn_TX_PROMOTED.pg p))
      | none =>
        let d := drr s0 p (256 * (9300 / max (s0.lv (Reg.ETHn_TX_QUANTUM.pg p)) 1 + 2)) q
        match d.1 with
        | some i => sendFlow p t i (s0.setPort p d.2)
        | none => s0.setPort p d.2)

/-! ### reception (R391, R392, R394, R396, R397) -/

/-- The selections of a SUBSCRIBE body. -/
def parseSels : Nat → List Byte → List Selection
  | 0, _ => []
  | n + 1, l =>
    let u := fun (o k : Nat) => leNat ((l.drop o).take k)
    ⟨u 0 1, u 1 1, u 4 4, u 8 4, u 0xC 2, u 0xE 2⟩ :: parseSels n (l.drop 16)

/-- A SUBSCRIBE body (R390). -/
def parseSub (l : List Byte) : SubBody :=
  let u := fun (o k : Nat) => leNat ((l.drop o).take k)
  ⟨u 0 2, u 3 1, u 4 2, u 6 2, beNat ((l.drop 8).take 16), parseSels (u 2 1) (l.drop 32)⟩

/-- The least body of a control message; none for an unknown TYPE (R389, R394). -/
def bodyLeast (typ : Nat) (body : List Byte) : Option Nat :=
  match typ with
  | 1 | 4 | 5 => some 0
  | 2 => some (32 + 16 * leNat ((body.drop 2).take 1))
  | 3 => some 4
  | _ => none

/-- The service of a control message by its TYPE. -/
def serveCtl (t : Time) (c : Ctl) (typ : Nat) (body : List Byte) (s : State) : State :=
  match typ with
  | 1 => doHello t c s
  | 2 => doSubscribe t c (parseSub body) s
  | 3 => doRenew t c (leNat (body.take 2)) s
  | 4 => doUnsubscribe t c s
  | _ => doStatus t c s

/-- A datagram to UDP port 47310 at a bound address (R388, R391, R394). -/
def rxControl (p : Fin 2) (t : Time) (a port : Nat) (l : List Byte) (s : State) : State :=
  let u := fun (o k : Nat) => leNat ((l.drop o).take k)
  let typ := u 3 1
  let flags := u 4 1
  let auth := flags % 2 = 1
  let len := u 6 2
  let body := (l.drop 16).take len
  let c : Ctl := ⟨.eth p a port, BitVec.ofNat 32 (u 8 4), BitVec.ofNat 32 (u 0xC 4), if auth then some (Fin.ofNat 4 (u 5 1)) else none⟩
  let good := 16 ≤ l.length && u 0 2 == 0x434B && u 2 1 == 1 && l.length == 16 + len + (if auth then 16 else 0) &&
    ((bodyLeast typ body).map fun n => decide (n ≤ len)).getD false
  if resident s then s
  else if !good then s.bump Reg.STRM_BAD_MSGS
  else if s.on Reg.STRM_CFG_AUTH_REQUIRE && !auth then s
  else
    let trailer := match c.auth with
      | none => true
      | some k =>
        u 5 1 < 4 && ((keyOf s k).map fun key => (hmac key (l.take (16 + len))).take 16 == l.drop (16 + len)).getD false
    if !trailer then authFail s else serveCtl t c typ body s

/-- Queue a steward frame. -/
def queueStew (p : Fin 2) (f : StewFrame) (s : State) : State := s.setPort p { s.port p with stew := (s.port p).stew ++ [f] }

/-- The best-master-clock algorithm decides again (R401): a state that the role allows. [PRESUMED: log 70] -/
def ptpDecide (s : State) : State :=
  let l := match s.lv Reg.PTP_CFG_ROLE with
    | 1 => [4, 5, 6]
    | 2 => [4, 8, 9]
    | _ => [4, 5, 6, 7, 8, 9]
  let st := l.getD (Config.ptpChoice s.free % l.length) 4
  let gm := (Config.ptpGrandmaster s.free).toNat
  (({ s with free := s.free + 1 }.setSt Reg.PTP_STATUS_STATE st).setSt2 Reg.PTP_GM_ID_LO Reg.PTP_GM_ID_HI gm).raiseIf
    (st != s.st Reg.PTP_STATUS_STATE) 0x093 0

/-- ETH_RX_FRAME (R395 to R397). [DEDUCED: log 69; DESIGN CHOICE: log 107] -/
def execEthRxFrame (p : Fin 2) (t : Time) (f : RxFrame) (s : State) : Res :=
  let s0 := advance t s
  let v4 := familyBound s0 p false
  let v6 := familyBound s0 p true
  let drop := s0.bump (Reg.ETHn_RX_DROPPED.pg p)
  .next (if !linked s0 p then s0
    else match f with
    | .arp => if v4 then queueStew p (.answer f) s0 else s0
    | .ndp => if v6 then queueStew p (.answer f) s0 else s0
    | .icmpEcho => if v4 || v6 then queueStew p (.answer f) s0 else s0
    | .dhcp => s0
    | .routerAdv => s0
    | .ptp l2 => if s0.on Reg.PTP_CFG_EN && s0.lv Reg.PTP_CFG_PORT == p.val && s0.on Reg.PTP_CFG_TRANSPORT == l2 then ptpDecide s0 else drop
    | .udp a port l => if (if isV4 a then v4 else v6) then rxControl p t a port l s0 else drop
    | .pause => s0.bump (Reg.ETHn_PAUSE_RX.pg p)
    | .badFcs => s0.bump (Reg.ETHn_RX_FCS_ERR.pg p)
    | .fecUncorr => (s0.bump (Reg.ETHn_FEC_UNCORR.pg p)).raise (ethPage p) 3
    | .other => drop)

/-! ### link and addresses (R395, R396, R398, R404) -/

/-- The entries whose data leaves by a port. -/
def portSubs (s : State) (p : Fin 2) : List Nat :=
  (s.strm.subs.filter fun e => e.2.st != 0 && (match e.2.path with | .eth p' _ _ => p' == p | .mailbox _ => false)).map (·.1)

/-- LINK_UP (R395): flows resume at the next record that opens (R398, R400). -/
def execLinkUp (p : Fin 2) (s : State) : Res :=
  .next (if !s.on (Reg.ETHn_CFG_EN.pg p) || !s.on (pageEnable (ethPage p)) || linked s p then s
    else
      let fec := s.on (Reg.ETHn_CFG_FEC.pg p) && !s.on (Reg.ETHn_CFG_SPEED.pg p)
      let s1 := ((s.setSt (Reg.ETHn_STATUS_LINK.pg p) 1).setSt (Reg.ETHn_STATUS_FEC_LOCK.pg p) (bit fec)).raise (ethPage p) 0
      (portSubs s1 p).foldl (fun s i =>
        ((s.sub i).sels.filter (·.dropping)).foldl (fun s y => forceReset y.sid s) s) s1)

/-- The record in delivery of an entry is lost with the link (R398). [DEDUCED: log 69] -/
def loseCurrent (p : Fin 2) (i : Nat) (s : State) : State :=
  let x := s.sub i
  let s1 := setFlow p i [] s
  match x.cur with
  | none => s1
  | some (k, _) =>
    let y := x.updSel k fun z => { z with todo := z.todo.drop 1, drops := z.drops + 1, gap := true, gapHand := false }
    countDrops i 1 true (s1.setSub i { y with cur := none })

/-- A port loses its link (R398): its flows' records are dropped under R400. [DEDUCED: log 69] -/
def dropLink (p : Fin 2) (s : State) : State :=
  let s1 := (((s.setSt (Reg.ETHn_STATUS_LINK.pg p) 0).setSt (Reg.ETHn_STATUS_FEC_LOCK.pg p) 0).bump (Reg.ETHn_LINK_DOWNS.pg p)).raise
    (ethPage p) 1
  (portSubs s1 p).foldl (fun s i =>
    let s2 := loseCurrent p i s
    let s3 := (List.range (s2.sub i).sels.length).foldl (fun s k => dropWaiting i k (fun _ => true) s) s2
    releaseStreams ((s3.sub i).sels.map (·.sid)) s3) s1

/-- LINK_DOWN (R398). -/
def execLinkDown (p : Fin 2) (s : State) : Res := .next (if linked s p then dropLink p s else s)

/-- An address of a family is bound or lost (R396, R406). [DEDUCED: log 71] -/
def setBound (p : Fin 2) (v6 bound : Bool) (s : State) : State :=
  (s.setSt ((if v6 then Reg.ETHn_STATUS_V6_BOUND else Reg.ETHn_STATUS_V4_BOUND).pg p) (bit bound)).raise (ethPage p) 2

/-- The port uses a family: V4 or V6 of ETHn_IP_CFG is not 0 (R404). -/
def familyOn (s : State) (p : Fin 2) (v6 : Bool) : Bool := s.on ((if v6 then Reg.ETHn_IP_CFG_V6 else Reg.ETHn_IP_CFG_V4).pg p)

/-- ADDR_BOUND (R396): no address of a family that is off is bound. -/
def execAddrBound (p : Fin 2) (v6 bound : Bool) (s : State) : Res :=
  .next (if bound && !familyOn s p v6 then s else setBound p v6 bound s)

/-- The families whose binding a write at an offset of an ETH page restarts (R404). [DEDUCED: log 69] -/
def rebinds (off : Nat) : List Bool :=
  if off = 0x048 ∨ off = 0x04C ∨ off = 0x050 then [false, true]
  else if 0x054 ≤ off ∧ off ≤ 0x05C then [false]
  else if 0x060 ≤ off ∧ off ≤ 0x070 then [true] else []

/-- SFPn_TXDIS takes a level. -/
def driveTxdis (p : Fin 2) (high : Bool) (s : State) : State :=
  let x := s.strm.ports.get p
  if x.txdis = high then s
  else { s with strm := { s.strm with ports := s.strm.ports.set p { x with txdis := high } } }.emit (.txdis p high)

/-- The firmware, where it runs, releases SFPn_TXDIS while ETHn_CFG.EN = 1, and only then (R566). [DEDUCED: log 120] -/
def syncTxdis (p : Fin 2) (s : State) : State := driveTxdis p (s.mode == 0 || !s.on (Reg.ETHn_CFG_EN.pg p)) s

/-- Both transmitters are off: the pins are high in reset. -/
def txOff (s : State) : State := driveTxdis 0 true (driveTxdis 1 true s)

/-- The port is in the PTP group exactly while the clock uses it over UDP/IPv4 (R396, R401). -/
def syncGroup (p : Fin 2) (s : State) : State :=
  let want := s.mode != 0 && s.on Reg.PTP_CFG_EN && s.lv Reg.PTP_CFG_PORT == p.val && !s.on Reg.PTP_CFG_TRANSPORT
  let x := s.strm.ports.get p
  if x.joined = want then s
  else { s with strm := { s.strm with ports := s.strm.ports.set p { x with joined := want } } }.emit (.group p want)

/-- Both ports join or leave. -/
def syncGroups (s : State) : State := syncGroup 1 (syncGroup 0 s)

/-- What changed values of ETHn_CFG mean to the port: the link restarts and the transmitter follows EN (R404, R566). -/
def ethEffects (old : State) (p : Fin 2) (s : State) : State :=
  let moved := [Reg.ETHn_CFG_EN, Reg.ETHn_CFG_SPEED, Reg.ETHn_CFG_FEC, Reg.ETHn_CFG_VLAN_EN, Reg.ETHn_CFG_VLAN_ID, Reg.ETHn_CFG_VLAN_PCP].any
    fun f => s.lv (f.pg p) != old.lv (f.pg p)
  syncTxdis p (if moved && linked s p then dropLink p s else s)

/-- A write to an ETH page (R404, R566): CFG restarts the link, an address field the binding. -/
def ethWrite (p : Fin 2) (off : Nat) (w : Word) (s : State) : State :=
  let s1 := writeWord (ethPage p) off w.toNat s
  let s2 := syncTxdis p (if off = 0x040 ∧ linked s p = true then dropLink p s1 else s1)
  (rebinds off).foldl (fun s v6 =>
    if s.stOn ((if v6 then Reg.ETHn_STATUS_V6_BOUND else Reg.ETHn_STATUS_V4_BOUND).pg p) then setBound p v6 false s else s) s2

/-- ETH_CFG_WRITE (R404). -/
def execEthCfgWrite (q : Requester) (p : Fin 2) (off : Nat) (w : Word) (s : State) : Res :=
  .next (s.shadowWrite q (ethPage p) (ethWrite p off w))

/-! ### PTP (R401, R402, R405) -/

/-- PTP's state changes (R406). [PRESUMED: log 70] -/
def ptpState (v : Nat) (s : State) : State := (s.setSt Reg.PTP_STATUS_STATE v).raiseIf (s.st Reg.PTP_STATUS_STATE != v) 0x093 0

/-- PTP_CFG has changed: enabling leads to LISTENING, disabling to DISABLED (portState of IEEE 1588); the group follows (R396). [PRESUMED: log 70] -/
def ptpEffects (old s : State) : State :=
  syncGroups (if s.on Reg.PTP_CFG_EN == old.on Reg.PTP_CFG_EN then s else ptpState (if s.on Reg.PTP_CFG_EN then 4 else 3) s)

/-- A write of PTP_CFG. -/
def ptpCfgWrite (w : Nat) (s : State) : State := ptpEffects s (writeWord 0x093 0x040 w s)

/-- The epoch is written so that mapped time moves by `d` device units (R61, R402). [PRESUMED: log 70] -/
def epochStep (d : Int) (s : State) : State :=
  let n := ((s.tbase.sec.toNat * duPerS + s.tbase.subs : Nat) + d) % ((2 ^ 48 * duPerS : Nat) : Int)
  let sec := n.toNat / duPerS
  let sub := n.toNat % duPerS
  epochWrite (BitVec.ofNat 32 sub) (((s.setNow Reg.TBASE_EPOCH_SEC_LO sec).setNow Reg.TBASE_EPOCH_SEC_HI (sec / 2 ^ 32)).setNow
    Reg.TBASE_EPOCH_SUBS_HI (sub / 2 ^ 32))

/-- The servo (R402): an offset of 1 ms or more is stepped, a smaller one steered. `o` is in 2⁻⁸ ns. [PRESUMED: log 70] -/
def ptpServo (o : Int) (s : State) : State :=
  if 256000000 ≤ o.natAbs then (((epochStep (-(o / 2)) s).bump Reg.PTP_STEPS)).raise 0x093 2
  else adjWrite (Config.ptpSteer s.free) { s with free := s.free + 1 }

/-- The factory SerDes latency of the PTP port at its speed, in device units: of reception, or of transmission (R402, R473). -/
def ptpLat (s : State) (rx : Bool) : Int :=
  let p := s.lv Reg.PTP_CFG_PORT
  almVal s.alm.factory s.alm.eff (0x4E0 + 4 * p + 2 * s.lv (Reg.ETHn_CFG_SPEED.pg p) + bit rx)

/-- The path delay under refined stamps (R402), in 2⁻⁸ ns: a received delimiter was at the balls a latency earlier, a sent one comes there a latency
later. [PRESUMED: log 70] -/
def ptpDelay (s : State) (d : Int) : Int := d - (ptpLat s true + ptpLat s false)

/-- The offset from the master under refined stamps, less the path asymmetry of PTP_ASYM (R402, R405), in 2⁻⁸ ns. [PRESUMED: log 70] -/
def ptpOffset (s : State) (o : Int) : Int := o - (ptpLat s true - ptpLat s false) - 256 * sx 16 (s.lv Reg.PTP_ASYM)

/-- PTP_EVENT_MESSAGE (R75, R402): the start-of-frame delimiter on the PTP port is stamped as well. -/
def execPtpEventMessage (m : PtpMsg) (stamp : Time) (offset delay : Int) (s : State) : Res :=
  let event := m == .sync || m == .delayReq
  let s0 := State.when event (fun s => stampSource (17 + s.lv Reg.PTP_CFG_PORT) stamp s) (advance stamp s)
  .next (if !s0.on Reg.PTP_CFG_EN || !event then s0
    else
      let offset := ptpOffset s0 offset
      let s1 := (s0.setStI Reg.PTP_OFFSET (satS 32 offset)).setStI Reg.PTP_PATH_DELAY (ptpDelay s0 delay)
      if s1.st Reg.PTP_STATUS_STATE = 9 ∧ s1.on Reg.PTP_CFG_DISCIPLINE = true then ptpServo offset s1 else s1)

/-- PTP_MESSAGE_SEND (R401): event messages go before every other frame (R399). -/
def execPtpMessageSend (m : PtpMsg) (t : Time) (s : State) : Res :=
  let s0 := advance t s
  let p : Fin 2 := Fin.ofNat 2 (s0.lv Reg.PTP_CFG_PORT)
  .next (if !s0.on Reg.PTP_CFG_EN then s0
    else if m == .sync || m == .delayReq then s0.setPort p { s0.port p with events := (s0.port p).events ++ [m] }
    else queueStew p (.ptp m) s0)

/-- ANNOUNCE_TIMEOUT (R401): the port takes over as master, or, slave only, listens. -/
def execAnnounceTimeout (s : State) : Res :=
  .next (if !s.on Reg.PTP_CFG_EN then s
    else ptpState (if s.lv Reg.PTP_CFG_ROLE = 2 then 4 else 6) ((s.bump Reg.PTP_ANNOUNCE_TIMEOUTS).raise 0x093 1))

end Sys2Proof.Machine
end

