-- ==== Sys2Proof/Machine/Dma.lean ====
section
/-!
DEFINITION. The PCIe endpoint and the DMA channels (R407 to R434), the B50 ring apart.
-/

namespace Sys2Proof.Machine

/-- A field of a channel's page. -/
def chF (f : Fld) (ch : Nat) : Fld := f.pg ch

/-- The function that owns a channel (R408). -/
def chanFunc (ch : Nat) : Func := Fin.ofNat 32 (ch / 2)

/-- A 64-bit register pair of a channel. -/
def chan64 (s : State) (lo hi : Fld) (ch : Nat) : Nat := s.lv (chF lo ch) + 2 ^ 32 * s.lv (chF hi ch)

/-- An ignored write (R414, R415, R417). -/
def dmaReject (ch : Nat) (s : State) : State := raiseChan ch 3 (s.bump (chF Reg.DMACHn_REJECTS ch))

/-- The waiting bits of a channel; natively WAITING_DATA is read from the chains as they stand (`noData`). -/
def setWaits (ch : Nat) (rp desc data : Bool) (s : State) : State :=
  ((s.setSt (chF Reg.DMACHn_STATUS_WAITING_RP ch) (bit rp)).setSt (chF Reg.DMACHn_STATUS_WAITING_DESC ch) (bit desc)).setSt
    (chF Reg.DMACHn_STATUS_WAITING_DATA ch) (bit data)

def setChanState (ch v : Nat) (s : State) : State := s.setSt (chF Reg.DMACHn_STATUS_STATE ch) v

/-- The write-back area (R419). [DEDUCED: log 74] -/
def writeBack (ch : Nat) (aborted : Bool) (residue : Nat) (s : State) : State :=
  let st := s.chanState ch + 4 * bit aborted + 8 * s.st (chF Reg.DMACHn_STATUS_ERR ch)
  s.emit (.hostWrite (chanFunc ch) (chan64 s Reg.DMACHn_WB_LO Reg.DMACHn_WB_HI ch)
    (leBytes 4 (s.st (chF Reg.DMACHn_WP ch)) ++ leBytes 4 (s.st (chF Reg.DMACHn_DONE ch)) ++ leBytes 4 st ++ leBytes 4 residue) false false)

/-- COUNT and TIME of the channel's moderation: B50_IRQ_MOD in B50 mode (R430, R538). -/
def modCount (s : State) (ch : Nat) : Nat := max 1 (if s.mode = 5 then s.lv Reg.B50_IRQ_MOD_COUNT else s.lv (chF Reg.DMACHn_MOD_COUNT ch))
def modTime (s : State) (ch : Nat) : Nat := if s.mode = 5 then s.lv Reg.B50_IRQ_MOD_TIME else s.lv (chF Reg.DMACHn_MOD_TIME ch)

/-- Held completions are released (R430). -/
def releaseHeld (ch : Nat) (s : State) : State :=
  (s.setSt (chF Reg.DMACHn_HELD ch) 0).setChan ch { s.chan ch with heldAt := none }

/-- A completion (R418, R420, R430): it is written back, then held or released; `irq` releases at once. -/
def complete (ch : Nat) (irq : Bool) (s : State) : State :=
  let s1 := writeBack ch false 0 ((s.bump (chF Reg.DMACHn_DONE ch)).bump (chF Reg.DMACHn_HELD ch))
  let c := s1.chan ch
  let s2 := s1.setChan ch { c with heldAt := some (c.heldAt.getD s1.time) }
  if irq || modCount s2 ch ≤ s2.st (chF Reg.DMACHn_HELD ch) then raiseChan ch 0 (releaseHeld ch s2) else s2

/-- The entry bound to a channel. -/
def chanSub (s : State) (ch : Nat) : Option Nat :=
  (s.strm.subs.find? fun e => e.2.st != 0 && e.2.chan == ch && (match e.2.path with | .mailbox _ => true | .eth .. => false)).map (·.1)

/-- Bytes written to a ring, split at its end (R416, R420). -/
def ringWrite (f : Func) (base k p : Nat) (l : List Byte) (s : State) : State :=
  let o := p % 2 ^ k
  let a := l.take (2 ^ k - o)
  let b := l.drop (2 ^ k - o)
  let ro := s.on Reg.DMA_CFG_RO_EN
  hostData f base b clean ro (hostData f (base + o) a clean ro s)

/-- `n` bytes of the record in delivery have been written; its last byte completes it (R400, R420). -/
def moved (i k n done len : Nat) (s : State) : State :=
  if done + n = len then delivered i k s else s.setSub i { s.sub i with cur := some (k, done + n) }

/-- The channel stops with an error (R425). -/
def halt (ch err : Nat) (s : State) : State :=
  let c := s.chan ch
  let s1 := (setChanState ch 3 (s.setSt (chF Reg.DMACHn_STATUS_ERR ch) err)).setChan ch { c with fetch := false, reread := false }
  let left := (c.desc.map fun d => d.len - c.off).getD 0
  raiseChan ch 2 (writeBack ch false left ((setWaits ch false false false s1).setSt (chF Reg.DMACHn_RESIDUE ch) left))

/-- The read of a descriptor at DESC, or with `reread` of its NEXT (R422, R424). -/
def fetchDesc (ch a : Nat) (reread : Bool) (s : State) : State :=
  let s1 := (s.setSt2 (chF Reg.DMACHn_DESC_LO ch) (chF Reg.DMACHn_DESC_HI ch) a).setChan ch { s.chan ch with fetch := true, reread := reread }
  s1.emit (if reread then .hostRead (chanFunc ch) (a + 16) 8 else .hostRead (chanFunc ch) a 32)

/-- A native descriptor completes (R422): STOP, the wait for NEXT, or the next descriptor. [DEDUCED: log 74] -/
def descDone (ch : Nat) (d : Desc) (s : State) : State :=
  let stop := d.ctl / 2 % 2 = 1
  let s1 := complete ch (d.ctl % 2 = 1) (if stop then setChanState ch 0 s else s)
  if stop then setWaits ch false false false (s1.setChan ch { s1.chan ch with desc := none, off := 0 })
  else if d.next = 0 then setWaits ch false true false (s1.setChan ch { s1.chan ch with off := d.len })
  else fetchDesc ch d.next false (s1.setChan ch { s1.chan ch with desc := none, off := 0 })

/-- A record goes into the ring as far as there is space (R416 to R418). -/
def ringMove (ch i k done : Nat) (bytes : List Byte) (s : State) : State :=
  let rk := s.lv (chF Reg.DMACHn_CFG_RING_K ch)
  let wp := s.st (chF Reg.DMACHn_WP ch)
  let used := (wp + 2 ^ 32 - s.lv (chF Reg.DMACHn_RP ch)) % 2 ^ 32
  let n := min (bytes.length - done) (2 ^ rk - used)
  if n = 0 then setWaits ch true false false s
  else
    let s1 := ringWrite (chanFunc ch) (chan64 s Reg.DMACHn_BASE_LO Reg.DMACHn_BASE_HI ch) rk wp ((bytes.drop done).take n) s
    let s2 := moved i k n done bytes.length (s1.setSt (chF Reg.DMACHn_WP ch) (wp + n))
    let full := decide (2 ^ rk ≤ used + n)
    let s3 := setWaits ch full false false s2
    if done + n = bytes.length then complete ch false s3 else if full then writeBack ch false 0 s3 else s3

/-- A record goes into the current descriptor's buffer as far as it reaches (R422). -/
def descMove (ch i k done : Nat) (bytes : List Byte) (s : State) : State :=
  let c := s.chan ch
  match c.desc with
  | none => s
  | some d =>
    let n := min (bytes.length - done) (d.len - c.off)
    if n = 0 then s
    else
      let s1 := hostData (chanFunc ch) (d.addr + c.off) ((bytes.drop done).take n) clean (s.on Reg.DMA_CFG_RO_EN) s
      let s2 := moved i k n done bytes.length (s1.setSt (chF Reg.DMACHn_WP ch) (s.st (chF Reg.DMACHn_WP ch) + n))
      let s3 := setWaits ch false false false (s2.setChan ch { c with off := c.off + n })
      let s4 := if done + n = bytes.length then writeBack ch false 0 s3 else s3
      if c.off + n = d.len then descDone ch d s4 else s4

/-- The ring, or the current descriptor's buffer, takes a byte more (R417, R422). -/
def chanRoom (s : State) (ch : Nat) : Bool :=
  if s.lv (chF Reg.DMACHn_CFG_MODE ch) = 1 then
    decide ((s.st (chF Reg.DMACHn_WP ch) + 2 ^ 32 - s.lv (chF Reg.DMACHn_RP ch)) % 2 ^ 32 < 2 ^ s.lv (chF Reg.DMACHn_CFG_RING_K ch))
  else ((s.chan ch).desc.map fun d => decide ((s.chan ch).off < d.len)).getD false

/-- A native channel writes of its next record (R416, R418, R422, R434). A record with an uncorrectable word of record
memory or of an SRAM is dropped as it begins (R15, R364); one of which no byte can be written has not begun. [DEDUCED: log 69] -/
def nativeRecordWrite (ch : Chan) (t : Time) (e : Sram) (s : State) : Res :=
  let s0 := sramMet e (advance t s)
  let c := ch.val
  let mode := s0.lv (chF Reg.DMACHn_CFG_MODE c)
  .next (if s0.chanState c ≠ 1 ∨ s0.asleep (chanFunc c).val ∨ (mode ≠ 1 ∧ mode ≠ 2) then s0
    else match chanSub s0 c with
    | none => s0
    | some i =>
      match nextRec s0 i with
      | none => s0
      | some (k, done, r) =>
        let sid := (((s0.sub i).sels[k]?).map (·.sid)).getD 0
        let slot := ((s0.stream sid).map (·.slot)).getD 0
        if (s0.sub i).cur.isNone && (e.lost || recPoisoned s0 slot r) then releaseChain slot (dropWaiting i k (fun q => q == r.seq) s0)
        else if (s0.sub i).cur.isNone && !chanRoom s0 c then (if mode = 1 then setWaits c true false false s0 else s0)
        else
          let s1 := (if (s0.sub i).cur.isNone then beginRec i k s0 else s0).setSt Reg.DMA_STATUS_L2_KEEP 0
          let bytes := carried s1 i k r
          if mode = 1 then ringMove c i k done bytes s1 else descMove c i k done bytes s1)

/-! ### commands of a channel (R414, R415, R417, R422) -/

/-- The channel's configuration is legal (R414). -/
def dmaLegal (s : State) (ch : Nat) : Bool :=
  let mode := s.lv (chF Reg.DMACHn_CFG_MODE ch)
  let base := chan64 s Reg.DMACHn_BASE_LO Reg.DMACHn_BASE_HI ch
  let rk := s.lv (chF Reg.DMACHn_CFG_RING_K ch)
  !(mode == 3 && 2 ≤ ch) && chan64 s Reg.DMACHn_WB_LO Reg.DMACHn_WB_HI ch % 16 == 0 &&
  !(mode == 1 && base % 2 ^ rk != 0) && !((mode == 2 || mode == 3) && base % 32 != 0)

/-- The channel starts (R414, R415); completions that moderation still holds stay held (R430). [DEDUCED: log 74] -/
def dmaStart (ch : Nat) (s : State) : State :=
  let mode := s.lv (chF Reg.DMACHn_CFG_MODE ch)
  let s1 := ((((s.setSt (chF Reg.DMACHn_WP ch) 0).setNow (chF Reg.DMACHn_RP ch) 0).setSt (chF Reg.DMACHn_DONE ch) 0).setSt
    (chF Reg.DMACHn_RESIDUE ch) 0).setSt (chF Reg.DMACHn_STATUS_ERR ch) 0
  let s2 := setWaits ch false false false (setChanState ch 1 s1)
  let s3 := s2.setChan ch { copyRa := chan64 s Reg.DMACHn_COPY_RA_LO Reg.DMACHn_COPY_RA_HI ch, heldAt := (s.chan ch).heldAt }
  if mode = 1 then s3 else fetchDesc ch (chan64 s Reg.DMACHn_BASE_LO Reg.DMACHn_BASE_HI ch) false s3

/-- DMA_GO (R414). [DEDUCED: log 74] -/
def execDmaGo (q : Requester) (ch : Chan) (s : State) : Res :=
  let c := ch.val
  .next (s.shadowWrite q (0x0C0 + c) fun s =>
    if s.chanState c ≠ 0 ∨ !dmaLegal s c then dmaReject c s
    else if s.lv (chF Reg.DMACHn_CFG_MODE c) = 0 then s
    else dmaStart c s)

/-- Delivery of selection `k` resumes at the next record that opens: the record cut and those skipped are dropped (R431). [DEDUCED: log 74] -/
def resumeSel (i : Nat) (s : State) (k : Nat) : State :=
  let x := s.sub i
  match x.sels[k]? with
  | none => s
  | some ss =>
    let hand := (x.inHand k).toList.length
    let slot := ((s.stream ss.sid).map (·.slot)).getD 0
    let sk := skipTo (s.ctx slot) (ss.todo.drop hand)
    let n := hand + sk.2
    if (ss.wait ∧ hand = 0) ∨ ((s.ctx slot).pass = true ∧ n = 0) then s
    else
      let y := x.updSel k fun z => { z with
        todo := sk.1, wait := sk.1.isEmpty, after := 0, dropping := sk.1.isEmpty, gap := true, gapHand := false, drops := z.drops + n }
      let s1 := countDrops i n true (s.setSub i y)
      releaseChain slot (if sk.1.isEmpty then forceReset ss.sid s1 else s1)

/-- The record cut by an abort is released, and delivery resumes at the next record that opens (R431). [DEDUCED: log 74] -/
def cutRecord (i : Nat) (s : State) : State :=
  let s1 := (List.range (s.sub i).sels.length).foldl (resumeSel i) s
  s1.setSub i { s1.sub i with cur := none }

/-- Raise DONE and ABORTED; one message covers both (R431). -/
def raiseAborted (ch : Nat) (s : State) : State :=
  let p := 0x0C0 + ch
  let new := (3 &&& (0xFFFFFFFF ^^^ s.st (irqStatus p))) &&& s.lv (irqEnable p)
  let s1 := (s.raise p 0).raise p 1
  if new = 0 then s1 else signal (ch / 2) (1 + ch % 2) s1

/-- The bytes an abort leaves: of the current record in RING, of the current descriptor in DESC and COPY (R431). -/
def residueOf (s : State) (ch : Nat) : Nat :=
  if s.lv (chF Reg.DMACHn_CFG_MODE ch) = 1 then
    match chanSub s ch with
    | none => 0
    | some i =>
      match (s.sub i).cur, nextRec s i with
      | some _, some (_, n, r) => r.bytes.length - n
      | _, _ => 0
  else ((s.chan ch).desc.map fun d => d.len - (s.chan ch).off).getD 0

/-- The abort's status write, and STOPPED (R431). From HALTED it records the error (R414). [DEDUCED: log 74] -/
def abortFinish (ch : Nat) (s : State) : State :=
  let left := if s.chanState ch = 3 then s.st (chF Reg.DMACHn_RESIDUE ch) else residueOf s ch
  let s1 := (releaseHeld ch s).setSt (chF Reg.DMACHn_RESIDUE ch) left
  let s2 := raiseAborted ch (writeBack ch true left s1)
  let s3 := setWaits ch false false false (setChanState ch 0 (s2.setChan ch {}))
  match chanSub s3 ch with
  | some i => cutRecord i s3
  | none => s3

/-- A native channel that carries records has none ready: WAITING_DATA (R436). -/
def noData (s : State) (ch : Nat) : Bool :=
  let mode := s.lv (chF Reg.DMACHn_CFG_MODE ch)
  s.chanState ch == 1 && (mode == 1 || mode == 2) && ((chanSub s ch).bind (nextRec s)).isNone

/-- A channel waits for RP, data or a descriptor. -/
def chanWaits (s : State) (ch : Nat) : Bool :=
  s.stOn (chF Reg.DMACHn_STATUS_WAITING_RP ch) || s.stOn (chF Reg.DMACHn_STATUS_WAITING_DESC ch) ||
  s.stOn (chF Reg.DMACHn_STATUS_WAITING_DATA ch) || (s.mode != 5 && noData s ch)

/-- ABORT (R414, R431). [DEDUCED: log 74] -/
def dmaAbort (ch : Nat) (s : State) : State :=
  let sleep := s.asleep (ch / 2)
  let wait := fun (s : State) => s.setChan ch { s.chan ch with abortWb := true }
  match s.chanState ch with
  | 1 =>
    if chanWaits s ch then (if sleep then wait (setChanState ch 2 s) else abortFinish ch (setChanState ch 2 s)) else setChanState ch 2 s
  | 3 => if sleep then wait s else abortFinish ch s
  | _ => s

/-- DMA_ABORT (R414, R431). -/
def execDmaAbort (q : Requester) (ch : Chan) (s : State) : Res := .next (s.shadowWrite q (0x0C0 + ch.val) (dmaAbort ch.val))

/-- The burst in progress of an aborting channel ends (R431). The status write of a function in D3hot waits for D0. -/
def abortEnd (ch : Nat) (s : State) : State :=
  if s.asleep (ch / 2) then s.setChan ch { s.chan ch with abortWb := true } else abortFinish ch s

/-- DB (R422): NEXT of the descriptor at which the chain ended is read again. -/
def execDb (q : Requester) (ch : Chan) (s : State) : Res :=
  let c := ch.val
  .next (s.shadowWrite q (0x0C0 + c) fun s =>
    if s.chanState c = 1 ∧ s.stOn (chF Reg.DMACHn_STATUS_WAITING_DESC c) = true ∧ (s.chan c).fetch = false then
      fetchDesc c (s.st2 (chF Reg.DMACHn_DESC_LO c) (chF Reg.DMACHn_DESC_HI c)) true s
    else s)

/-- RP_WRITE (R417). -/
def execRpWrite (q : Requester) (ch : Chan) (w : Word) (s : State) : Res :=
  let c := ch.val
  .next (s.shadowWrite q (0x0C0 + c) fun s =>
    let wp := s.st (chF Reg.DMACHn_WP c)
    let dist := fun (v : Nat) => (wp + 2 ^ 32 - v) % 2 ^ 32
    if dist w.toNat ≤ dist (s.lv (chF Reg.DMACHn_RP c)) then
      let s1 := s.setNow (chF Reg.DMACHn_RP c) w.toNat
      if dist w.toNat < 2 ^ s.lv (chF Reg.DMACHn_CFG_RING_K c) then s1.setSt (chF Reg.DMACHn_STATUS_WAITING_RP c) 0 else s1
    else dmaReject c s)

/-- DMA_CFG_WRITE (R415): MOD is accepted in any state, the rest only while the channel is STOPPED. -/
def execDmaCfgWrite (q : Requester) (ch : Chan) (off : Nat) (w : Word) (s : State) : Res :=
  let c := ch.val
  .next (s.shadowWrite q (0x0C0 + c) fun s =>
    if !([0x040, 0x044, 0x048, 0x04C, 0x050, 0x054, 0x060, 0x064].contains off) then s
    else if off = 0x054 ∨ s.chanState c = 0 then writeWord (0x0C0 + c) off w.toNat s
    else dmaReject c s)

/-! ### descriptors and copies (R421 to R425) -/

/-- A copy would breach the region rules (R423). [DEDUCED: log 74] -/
def copyBreach (s : State) (ch : Nat) (ra len : Nat) : Bool :=
  let within := fun (e : Nat) => let r := regionBytes s e; decide (r.1 ≤ ra ∧ ra + len ≤ r.1 + r.2)
  if s.on (chF Reg.DMACHn_CFG_DIR ch) then !(within 3 || within 6) else decide (fittedBytes s < ra + len)

/-- The descriptor that 32 bytes spell. -/
def parseDesc (l : List Byte) : Desc :=
  let u := fun (o n : Nat) => leNat ((l.drop o).take n)
  ⟨u 0 8, u 8 4, u 0xC 4, u 0x10 8⟩

/-- A descriptor has been read: it is checked and becomes current (R422, R425). -/
def takeDesc (ch : Nat) (l : List Byte) (s : State) : State :=
  let c := s.chan ch
  let a := s.st2 (chF Reg.DMACHn_DESC_LO ch) (chF Reg.DMACHn_DESC_HI ch)
  let d := parseDesc l
  let s1 := s.setChan ch { c with fetch := false, desc := some d, off := 0 }
  if a % 32 ≠ 0 ∨ d.len = 0 ∨ 4 ≤ d.ctl ∨ leNat ((l.drop 0x18).take 8) ≠ 0 then halt ch 3 s1
  else if s.lv (chF Reg.DMACHn_CFG_MODE ch) = 3 then
    if copyBreach s ch c.copyRa d.len then halt ch 4 s1
    else if s.on (chF Reg.DMACHn_CFG_DIR ch) then s1.emit (.hostRead (chanFunc ch) d.addr d.len) else s1
  else setWaits ch false false false s1

/-- NEXT has been read again (R422). -/
def takeNext (ch : Nat) (l : List Byte) (s : State) : State :=
  let n := leNat (l.take 8)
  let s1 := s.setChan ch { s.chan ch with fetch := false, reread := false }
  if n = 0 then s1
  else fetchDesc ch n false (setWaits ch false false false (s1.setChan ch { s1.chan ch with desc := none, off := 0 }))

/-- A descriptor read of a native channel completes (R424, R425). -/
def nativeDescFetch (ch : Chan) (c : Completion) (s : State) : Res :=
  let n := ch.val
  .next (if s.chanState n ≠ 1 ∨ !(s.chan n).fetch then s
    else match c with
    | .failed => halt n 1 s
    | .poisoned => halt n 2 s
    | .ok l => if (s.chan n).reread then takeNext n l s else takeDesc n l s)

/-- The bytes of a COPY descriptor have moved (R423). -/
def copyDone (ch : Nat) (d : Desc) (s : State) : State :=
  let c := s.chan ch
  let ra := c.copyRa + d.len
  let s1 := (s.setNow (chF Reg.DMACHn_COPY_RA_LO ch) ra).setNow (chF Reg.DMACHn_COPY_RA_HI ch) (ra / 2 ^ 32)
  descDone ch d ((s1.setSt (chF Reg.DMACHn_WP ch) (s.st (chF Reg.DMACHn_WP ch) + d.len)).setChan ch { c with copyRa := ra, off := d.len })

/-- Record memory that stewards and TWIN lay out themselves (R16): the top 16 MB, and the twin mirror staging while TWIN works with it. [DEDUCED: log 80] -/
def staged (s : State) (a : Nat) : Bool :=
  let r := regionBytes s 7
  decide (fittedBytes s - 16 * 2 ^ 20 ≤ a) || (s.on Reg.TWIN_CFG_EN && decide (r.1 ≤ a ∧ a < r.1 + r.2))

/-- Bytes of fitted memory as the window or a COPY reads them: what the stewards and TWIN lay out themselves has no stated value. [DEDUCED: log 80] -/
def areaRead (a n : Nat) (s : State) : List Byte × State :=
  if (List.range n).any fun i => staged s (a + i) then
    ((memRead s a n).zipIdx.map fun (e : Byte × Nat) => if staged s (a + e.2) then Config.stewardArea (s.free + e.2) else e.1,
      { s with free := s.free + n })
  else (memRead s a n, s)

/-- A write whose code words may be covered in part: a part of a poisoned word leaves it poisoned and is counted (R365). -/
def memMerge (a : Nat) (l : List Byte) (s : State) : State :=
  let part := fun (w : Nat) => decide (a < 16 * w + 16 ∧ 16 * w < a + l.length) && !decide (a ≤ 16 * w ∧ 16 * w + 16 ≤ a + l.length) &&
    (Amap.find w s.poison).isSome
  let ends := [a / 16, (a + l.length - 1) / 16].eraseDups.filter part
  ends.foldl (fun s w => s.bump (Reg.MEMCn_UE.pg (chanOf s (16 * w)).1)) (memWrite a l s)

/-- COPY_TRANSFER (R423, R425). -/
def execCopyTransfer (ch : Chan) (c : Completion) (s : State) : Res :=
  let n := ch.val
  let x := s.chan n
  .next (if s.chanState n ≠ 1 ∨ s.lv (chF Reg.DMACHn_CFG_MODE n) ≠ 3 ∨ x.fetch ∨ s.asleep (n / 2) then s
    else match x.desc with
    | none => s
    | some d =>
      if x.off = d.len then s
      else if s.on (chF Reg.DMACHn_CFG_DIR n) then
        match c with
        | .failed => halt n 1 s
        | .poisoned => halt n 5 s
        | .ok l => copyDone n d (memMerge x.copyRa (l.take d.len) s)
      else
        let r := areaRead x.copyRa d.len s
        copyDone n d (hostData (chanFunc n) d.addr r.1 (fun o k => poisoned s (x.copyRa + o) k) (s.on Reg.DMA_CFG_RO_EN) r.2))

/-- An awaited host read of a native channel gets no completion (R425). -/
def nativeTimeout (ch : Chan) (s : State) : Res :=
  let n := ch.val
  let x := s.chan n
  let copy := s.lv (chF Reg.DMACHn_CFG_MODE n) = 3 ∧ s.on (chF Reg.DMACHn_CFG_DIR n) = true ∧ x.desc.isSome = true
  .next (if s.chanState n = 1 ∧ (x.fetch = true ∨ copy) then halt n 1 s else s)

/-- The held completions of a native channel are released (R430). -/
def nativeRelease (ch : Chan) (s : State) : Res :=
  .next (if s.st (chF Reg.DMACHn_HELD ch.val) ≠ 0 ∧ modTime s ch.val ≠ 0 then raiseChan ch.val 0 (releaseHeld ch.val s) else s)

/-! ### record-memory window (R410) -/

/-- A discarded access (R410). -/
def winReject (s : State) : State := (s.bump Reg.DMA_WIN_REJECTS).raise 0x098 3

/-- BAR2_ACCESS (R410). -/
def execBar2Access (write : Bool) (x len : Nat) (bytes : List Byte) (s : State) : Res :=
  let a := s.lv Reg.DMA_WIN_BASE * 2 ^ 20 + x
  let n := if write then bytes.length else len
  let within := fun (e : Nat) => let r := regionBytes s e; decide (r.1 ≤ a ∧ a + n ≤ r.1 + r.2)
  .next (if fittedBytes s < a + n then (if write then winReject s else s.emit (.completion none false))
    else if write then (if within 3 || within 6 then memMerge a bytes s else winReject s)
    else
      let r := areaRead a n s
      r.2.emit (.completion (some r.1) (poisoned s a n)))

/-! ### function resets (R411) -/

/-- A function's channels stop and its subscriber entries close. [DEDUCED: log 75] -/
def stopFunction (f : Nat) (s : State) : State :=
  let s1 := [2 * f, 2 * f + 1].foldl (fun s ch =>
    setWaits ch false false false (setChanState ch 0 ((s.setSt (chF Reg.DMACHn_HELD ch) 0).setChan ch {}))) s
  (s1.strm.subs.filter fun e => e.2.st != 0 && (match e.2.path with | .mailbox g => g.val == f | .eth .. => false)).foldl (fun s e =>
    let s2 := s.setSub e.1 { s.sub e.1 with cur := none }
    let s3 := closeEntry e.1 s2
    releaseStreams (e.2.sels.map (·.sid)) (s3.setSub e.1 { s3.sub e.1 with sels := (s3.sub e.1).sels.map fun y => { y with todo := [] } })) s1

/-- The MSI-X table and PBA of a function are as after reset: every vector masked, none pending. [PRESUMED: log 73] -/
def resetVectors (f : Nat) (s : State) : State :=
  let mine := fun (k : Nat) => k / 64 == f
  { s with pcie := { s.pcie with
      unmasked := Amap.drop mine s.pcie.unmasked, pba := Amap.drop mine s.pcie.pba
      asleep := s.pcie.asleep.filter fun e => e.1 != f, d3 := s.pcie.d3.filter (· != f) } }

/-- FLR (R411, R551): a function-level reset, or a clear of Bus Master Enable. [DEDUCED: log 75] -/
def execFlr (f : Func) (bme : Bool) (s : State) : Res :=
  let s1 := stopFunction f.val s
  .next (if bme then s1 else clearRequesters (isPcie f.val) (resetVectors f.val s1))

/-- The data link goes down (R437). [DEDUCED: log 75] -/
def linkLost (s : State) : State :=
  (s.setSt Reg.DMA_STATUS_LINK_UP 0).raiseIf (s.stOn Reg.DMA_STATUS_LINK_UP) 0x098 2

/-- PCIE_RESET (R411, R433, R551): after L2 by PME_Turn_Off it reaches only the link and configuration space. [DEDUCED: log 75] -/
def execPcieReset (_k : PcieResetKind) (s : State) : Res :=
  let vec := fun (s : State) => (List.range 32).foldl (fun s f => resetVectors f s) s
  .next (clearRequesters (isPcie 0) <| if s.pcie.l2 then { linkLost s with pcie := { s.pcie with unmasked := [], pba := [] } }
    else vec ((List.range 32).foldl (fun s f => stopFunction f s) (linkLost s)))

/-! ### sleep and wake (R432, R433, R569) -/

/-- Some channel of function `f` has a held item. -/
def heldItem (s : State) (f : Nat) : Bool :=
  [2 * f, 2 * f + 1].any fun ch => s.st (chF Reg.DMACHn_HELD ch) != 0 || (s.chan ch).abortWb ||
    (s.chanState ch == 1 && (((chanSub s ch).bind (nextRec s)).isSome))

/-- PME (R432): a held item of function `f` reaches the wake age. [PRESUMED: log 73] -/
def execPme (f : Func) (s : State) : Res :=
  .next (if !heldItem s f.val then s
    else if s.pcie.l2 then
      if s.stOn Reg.DMA_STATUS_WAKE then s
      else (((s.setSt Reg.DMA_STATUS_WAKE 1).bump Reg.DMA_WAKES).raise 0x098 1).emit (.wakeN true)
    else if s.pcie.d3.contains f.val then ((s.bump Reg.DMA_PME_SENT).raise 0x098 0).emit (.pme f)
    else s)

/-- D3HOT_ENTRY (R432). -/
def execD3hotEntry (f : Func) (s : State) : Res :=
  .next (if s.pcie.d3.contains f.val then s else { s with pcie := { s.pcie with d3 := s.pcie.d3 ++ [f.val] } })

/-- L2_ENTRY (R433): the channels stay as they are and hold their items. [DEDUCED: log 75] -/
def execL2Entry (s : State) : Res :=
  .next (((linkLost { s with pcie := { s.pcie with l2 := true } }).setSt Reg.DMA_STATUS_LSTATE 2).setSt Reg.DMA_STATUS_L2_KEEP 1)

/-- PERST_N_RELEASE (R432): WAKE_N is deasserted. -/
def execPerstNRelease (s : State) : Res :=
  .next (if s.stOn Reg.DMA_STATUS_WAKE then (s.setSt Reg.DMA_STATUS_WAKE 0).emit (.wakeN false) else s)

end Sys2Proof.Machine
end

