-- ==== Sys2Proof/Machine/Curves.lean ====
section
/-!
DEFINITION. The linearisation curves of the auxiliary converter (R250): the standards' functions, their inverses by
bisection over whole millikelvins, and IEEE 754 single precision.

PRESUMED: the coefficients of IEC 60751 and of the IEC 60584-1 reference functions stand in those standards, not in the
spec.
-/

namespace Sys2Proof.Machine

/-- The greatest `t` in `lo .. lo + n` with `p t`, for a `p` that holds up to some point; `k` bits of search. -/
def bisect (p : Int → Bool) (lo : Int) : Nat → Nat → Int
  | 0, _ => lo
  | k + 1, n =>
    let half := 2 ^ k
    if half ≤ n ∧ p (lo + half) then bisect p (lo + half) k (n - half) else bisect p lo k (min n (half - 1))

/-- 10²⁷ times the resistance ratio of IEC 60751 at `t` m°C. [PRESUMED: log 45] -/
def ptRatio (t : Int) : Int :=
  10 ^ 27 + 39083 * 10 ^ 17 * t - 5775 * 10 ^ 11 * t * t - (if t < 0 then 4183 * (t - 100000) * t * t * t else 0)

/-- The floor in mK of the platinum temperature for a resistance of `num / den` mΩ and Z₀ in mΩ, and whether it is the temperature itself; none
outside −200 °C to +850 °C. [PRESUMED: log 45] -/
def ptInverse (z0 num den : Int) : Option (Int × Bool) :=
  let le := fun t : Int => decide (ptRatio t * z0 * den ≤ num * 10 ^ 27)
  if !le (-200000) then none
  else if le 850001 || (le 850000 && ptRatio 850000 * z0 * den != num * 10 ^ 27) then none
  else
    let t := bisect le (-200000) 21 1050000
    some (t + 273150, ptRatio t * z0 * den == num * 10 ^ 27)

/-- A reference polynomial: coefficients `m · 10^e` from degree 0 on, in 10⁻⁶⁰ mV, at `t` m°C. -/
def tcPoly (t : Int) : List (Int × Nat) → Int
  | [] => 0
  | (m, e) :: r => m * 10 ^ (60 - e) + t * tcPoly t r / 1000

/-- Coefficients of the three types, below and from 0 °C; type J from 760 °C. Each `(m, e)` is `m · 10^−e`. [PRESUMED: log 45] -/
def tcK0 : List (Int × Nat) :=
  [(0, 0), (394501280250, 13), (236223735980, 16), (-328589067840, 18), (-499048287770, 20), (-675090591730, 22),
   (-574103274280, 24), (-310888728940, 26), (-104516093650, 28), (-198892668780, 31), (-163226974860, 34)]
def tcK1 : List (Int × Nat) :=
  [(-176004136860, 13), (389212049750, 13), (185587700320, 16), (-994575928740, 19), (318409457190, 21),
   (-560728448890, 24), (560750590590, 27), (-320207200030, 30), (971511471520, 34), (-121047212750, 37)]
def tcJ0 : List (Int × Nat) :=
  [(0, 0), (503811878150, 13), (304758369300, 16), (-856810657200, 19), (132281952950, 21), (-170529583370, 24),
   (209480906970, 27), (-125383953360, 30), (156317256970, 34)]
def tcJ1 : List (Int × Nat) :=
  [(296456256810, 9), (-149761277860, 11), (317871039240, 14), (-318476867010, 17), (157208190040, 20), (-306913690560, 24)]
def tcT0 : List (Int × Nat) :=
  [(0, 0), (387481063640, 13), (441944343470, 16), (118443231050, 18), (200329735540, 19), (901380195590, 21),
   (226511565930, 22), (360711542050, 24), (384939398830, 26), (282135219250, 28), (142515947790, 30), (487686622860, 33),
   (107955392700, 35), (139450270620, 38), (797951539270, 42)]
def tcT1 : List (Int × Nat) :=
  [(0, 0), (387481063640, 13), (332922278800, 16), (206182434040, 18), (-218822568460, 20), (109968809280, 22),
   (-308157587720, 25), (454791352900, 28), (-275129016730, 31)]

/-- The exponential term of type K from 0 °C on, in 10⁻⁶⁰ mV. -/
def tcKExp (t : Int) : Int :=
  let d := 10 * t - 1269686
  expFx (-(1183432 * d * d * fxOne / 10 ^ 18)) * 1185976 * 10 ^ 53 / fxOne

/-- The reference function of a thermocouple curve (4 K, 5 T, 6 J) at `t` m°C, in 10⁻⁶⁰ mV. -/
def tcE (curve : Nat) (t : Int) : Int :=
  match curve with
  | 4 => if t < 0 then tcPoly t tcK0 else tcPoly t tcK1 + tcKExp t
  | 5 => if t < 0 then tcPoly t tcT0 else tcPoly t tcT1
  | _ => if t < 760000 then tcPoly t tcJ0 else tcPoly t tcJ1

/-- The range of a thermocouple curve in m°C (R250). [PRESUMED: log 45] -/
def tcRange (curve : Nat) : Int × Int :=
  match curve with
  | 4 => (-200000, 1372000) | 5 => (-200000, 400000) | _ => (-210000, 1200000)

/-- The floor in mK of a thermocouple's temperature for a voltage in 10⁻⁶⁰ mV, and whether it is exact; none outside its range. [PRESUMED: log 45] -/
def tcInverse (curve : Nat) (v : Int) : Option (Int × Bool) :=
  let r := tcRange curve
  if v < tcE curve r.1 || tcE curve r.2 < v then none
  else
    let t := bisect (fun t => decide (tcE curve t ≤ v)) r.1 21 (r.2 - r.1).toNat
    some (t + 273150, tcE curve t == v)

/-- An IEEE 754 single as a fixed-point number; none for an infinity or a NaN. -/
def single (w : Nat) : Option Int :=
  let e := w / 2 ^ 23 % 256
  if e = 255 then none else
    let m := w % 2 ^ 23 + (if e = 0 then 0 else 2 ^ 23)
    -- m · 2^(max e 1 − 150), in 2⁻⁹⁶
    let k := max e 1 + 96
    let v : Nat := if 150 ≤ k then m * 2 ^ (k - 150) else m / 2 ^ (150 - k)
    some (if w / 2 ^ 31 % 2 = 1 then -(v : Int) else v)

/-- The floor in mK of the Steinhart–Hart temperature for `num / den` mΩ, and whether it is exact; none where ln Z is undefined or the temperature is
not a positive number of mK that VALUE can hold. [DEDUCED: log 47] -/
def shInverse (a b c : Nat) (num den : Int) : Option (Int × Bool) :=
  match single a, single b, single c with
  | some fa, some fb, some fc =>
    if num ≤ 0 ∨ den ≤ 0 then none else
      let l := lnFx num.toNat (den.toNat * 1000)
      let inv := fa + fxMul fb l + fxMul fc (fxMul l (fxMul l l))
      if inv ≤ 0 then none else
        let t := 1000 * (fxOne : Int) * fxOne / (inv * fxOne)
        if t < 2147483640 then some (t, t * inv == 1000 * (fxOne : Int)) else none
  | _, _, _ => none

/-- An integer that lies within `tol` mK of a value (R250), given by its floor and whether that is the value itself, as the free value numbered
`k` has it. -/
def curveTol (e : Int × Bool) (tol k : Nat) : Int :=
  if e.2 then e.1 - tol + (Config.auxError k % (2 * tol + 1) : Nat) else e.1 + 1 - tol + (Config.auxError k % (2 * tol) : Nat)

end Sys2Proof.Machine
end

