-- ==== Sys2Proof/Machine/Auxiliary.lean ====
section
/-!
DEFINITION. The current sources and the integrating converter (chapter 10, R238 to R255).
-/

namespace Sys2Proof.Machine

/-- AUX_STATUS.STATE (R249): 0 OFF, 1 IDLE, 2 INT_A, 3 DWELL, 4 INT_B, 5 RESIDUE, 6 GAP. -/
def State.auxState (s : State) : Nat := s.st Reg.AUX_STATUS_STATE

/-- A conversion is under way: from the start of its first integration phase to the end of its last (R248). -/
def auxUnderWay (s : State) : Bool := 2 ≤ s.auxState && s.auxState ≤ 4

/-- The converter may run: EN = 1 in STANDBY, RUN or CALIBRATE. -/
def auxMay (s : State) : Bool := s.on Reg.AUX_CFG_EN && 2 ≤ s.mode && s.mode ≤ 4

/-- START_PENDING and REQ_PENDING follow the pending work. -/
def syncAux (s : State) : State :=
  (s.setSt Reg.AUX_STATUS_START_PENDING (bit !s.aux.work.isEmpty)).setSt Reg.AUX_STATUS_REQ_PENDING (bit s.aux.req.isSome)

/-- The converter leaves OFF or goes OFF as EN and the mode have it (R249): OFF abandons the conversion and the requests. -/
def auxMode (s : State) : State :=
  if auxMay s then (if s.auxState = 0 then s.setSt Reg.AUX_STATUS_STATE 1 else s)
  else syncAux ({ s with aux := { s.aux with work := [], req := none, conv := none } }.setSt Reg.AUX_STATUS_STATE 0)

/-! ### sources -/

/-- A pin code that a source terminal may hold (R239). -/
def terminalOk (c : Nat) : Bool := c < 8 || c == 9 || c == 15

/-- The settle timer of a source starts (R242); a conversion under way that uses it is UNSETTLED (R243). -/
def startSettle (i : Nat) (s : State) : State :=
  let hit := auxUnderWay s
  { s.setSt Reg.AUX_STATUS_SETTLING (s.st Reg.AUX_STATUS_SETTLING ||| 2 ^ i) with
    aux := { s.aux with conv := s.aux.conv.map fun c =>
      if hit && RegFile.get c.cfg (Reg.AUX_Rr_CFG_EXC.ix c.r) / 2 ^ i % 2 == 1 then { c with unsettled := true } else c } }

/-- AUX_SRC_WRITE (R241, R242). -/
def execAuxSrcWrite (q : Requester) (t : Time) (i : Fin 4) (w : Word) (s : State) : Res :=
  .next ((advance t s).shadowWrite q 0x031 fun s =>
    let code := w.toNat % 8
    let hi := w.toNat / 16 % 16
    let lo := w.toNat / 256 % 16
    if (hi == lo && hi != 15) || !terminalOk hi || !terminalOk lo then s.raise 0x031 13
    else
      let same := s.sh (Reg.AUX_SRCs_CODE.ix i) == code && s.sh (Reg.AUX_SRCs_HI.ix i) == hi && s.sh (Reg.AUX_SRCs_LO.ix i) == lo
      let s1 := ((s.setNow (Reg.AUX_SRCs_CODE.ix i) code).setNow (Reg.AUX_SRCs_HI.ix i) hi).setNow (Reg.AUX_SRCs_LO.ix i) lo
      if same then s1 else startSettle i s1)

/-- SETTLE_END (R242). -/
def execSettleEnd (i : Fin 4) (s : State) : Res :=
  .next (s.setSt Reg.AUX_STATUS_SETTLING (s.st Reg.AUX_STATUS_SETTLING &&& (15 ^^^ 2 ^ i.val)))

/-! ### enable, requests -/

/-- A write of AUX_CFG. On a change of EN from 0 to 1 driven sources settle, and no result is valid yet (R242, R252). -/
def auxCfg (w : Word) (s : State) : State :=
  let en := w.toNat % 2
  let up := en == 1 && !s.on Reg.AUX_CFG_EN
  let s1 := ((s.setNow Reg.AUX_CFG_EN en).setNow Reg.AUX_CFG_SCAN_EN (w.toNat / 2)).setNow Reg.AUX_CFG_REV_DWELL (w.toNat / 256)
  let s2 := if up then
    let a := (List.range 4).foldl (fun s i => if s.on (Reg.AUX_SRCs_CODE.ix i) then startSettle i s else s) s1
    (List.range 8).foldl (fun s r => s.setSt (Reg.AUX_RESr_META.ix r) (s.st (Reg.AUX_RESr_META.ix r) / 2 * 2)) a
    else s1
  auxMode s2

/-- AUX_ENABLE (R249): `w` has EN = 1. -/
def execAuxEnable (q : Requester) (t : Time) (w : Word) (s : State) : Res :=
  .next ((advance t s).shadowWrite q 0x031 (auxCfg (w ||| 1)))

/-- AUX_DISABLE (R249): `w` has EN = 0. -/
def execAuxDisable (q : Requester) (t : Time) (w : Word) (s : State) : Res :=
  .next ((advance t s).shadowWrite q 0x031 (auxCfg (w &&& 0xFFFFFFFE)))

/-- A request is dropped (R248). -/
def auxDrop (kind cause : Nat) (s : State) : State :=
  (((s.bump Reg.AUX_DROPPED).setSt Reg.AUX_DROP_LAST_CAUSE cause).setSt Reg.AUX_DROP_LAST_KIND kind).raise 0x031 8

/-- A request becomes pending; it ends a running scan interval (R248, R249). -/
def auxPend (f : Aux → Aux) (s : State) : State :=
  let s1 := syncAux { s with aux := f s.aux }
  if s.auxState = 6 then s1.setSt Reg.AUX_STATUS_STATE 1 else s1

/-- AUX_START_EDGE (R247, R248). [DEDUCED: log 47] -/
def execAuxStartEdge (t : Time) (s : State) : Res :=
  let s0 := stampSource 19 t (advance t s)
  let l := (List.range 8).filter fun r => s0.on (Reg.AUX_Rr_CFG_EN.ix r) && s0.on (Reg.AUX_Rr_CFG_START.ix r)
  .next (if s0.auxState = 0 then s0
    else if auxUnderWay s0 then auxDrop 0 0 s0
    else if !s0.aux.work.isEmpty then auxDrop 0 1 s0
    else if l.isEmpty then s0
    else auxPend (fun a => { a with work := l }) s0)

/-- AUX_REQ (R247, R248). [DEDUCED: log 47] -/
def execAuxReq (q : Requester) (t : Time) (w : Word) (s : State) : Res :=
  .next ((advance t s).shadowWrite q 0x031 fun s =>
    if w.toNat / 8 % 2 = 0 ∨ s.auxState = 0 then s
    else if auxUnderWay s then auxDrop 1 0 s
    else if s.aux.req.isSome then auxDrop 1 1 s
    else auxPend (fun a => { a with req := some (w.toNat % 8) }) s)

/-! ### conversions -/

/-- The next conversion: its origin (2 priority, 1 AUX_START, 0 scan), its definition, and what is left to run (R247). -/
def auxPick (s : State) : Option (Nat × Nat × Aux) :=
  match s.aux.req with
  | some r => some (2, r, { s.aux with req := none })
  | none =>
    match s.aux.work with
    | r :: rest => some (1, r, { s.aux with work := rest })
    | [] =>
      if !s.on Reg.AUX_CFG_SCAN_EN then none else
        let cand := ((List.range 8).map fun i => (s.aux.scan + i) % 8).filter fun r =>
          s.on (Reg.AUX_Rr_CFG_EN.ix r) && s.on (Reg.AUX_Rr_CFG_SCAN.ix r)
        cand.head?.map fun r => (0, r, { s.aux with scan := (r + 1) % 8 })

/-- AUX_CONVERSION_START (R248, R249). -/
def execAuxConversionStart (t : Time) (s : State) : Res :=
  let s0 := advance t s
  .next (if s0.auxState ≠ 1 then s0 else
    match auxPick s0 with
    | none => s0
    | some (o, r, a) =>
      let cfg := s0.live.filter fun e => e.1 / 131072 == 0x031
      let exc := s0.lv (Reg.AUX_Rr_CFG_EXC.ix r)
      let c : AuxConv := { r := r, origin := o, cfg := cfg, start := t
                           unsettled := s0.st Reg.AUX_STATUS_SETTLING &&& exc != 0 }
      syncAux (({ s0 with aux := { a with conv := some c } }.setSt Reg.AUX_STATUS_STATE 2).setSt Reg.AUX_STATUS_CUR_R r))

/-- A definition's field as the conversion started with it. -/
def convF (c : AuxConv) (f : Fld) : Nat := RegFile.get c.cfg (f.ix c.r)

/-- G of a GAIN code (R244). [DEDUCED: log 46] -/
def auxGain (g : Nat) : Nat := match g with | 0 => 1 | 1 => 8 | _ => 64

/-- A phase code before saturation (R244): voltages in nV, the almanac's offset taken off, its gain applied; V_ref may be negative, as in phase B of
a ratiometric conversion (R245). [DEDUCED: log 46] -/
def auxCode (s : State) (c : AuxConv) (vin vref : Int) : Int :=
  let gc := convF c Reg.AUX_Rr_CFG_GAIN
  let rf := convF c Reg.AUX_Rr_CFG_REF
  let alm := almVal s.alm.factory s.alm.eff
  -- V_ref in nV · 2⁻²⁰
  let vr : Int := if rf = 0 then 1250000000 * (2 ^ 20 + alm 0x4B1) else vref * 2 ^ 20
  if gc = 3 ∨ vr = 0 then sx 24 (Config.auxCode s.free).toNat
  else
    let num := (2 ^ 51 * (auxGain gc : Int) * vin - alm (0x4A8 + gc) * vr) * (2 ^ 20 + alm (0x4AB + 2 * gc + rf))
    divRound (if vr < 0 then -num else num) (2 ^ 28 * vr.natAbs)

/-- COMPLY follows the sources at compliance; a conversion that uses one is tagged (R240). [DEDUCED: log 47] -/
def auxComply (m : Nat) (s : State) : State :=
  (s.setSt Reg.AUX_STATUS_COMPLY m).raiseIf (m &&& (15 ^^^ s.st Reg.AUX_STATUS_COMPLY) != 0) 0x031 12

/-- INTEGRATION_END (R244, R245, R249). -/
def execIntegrationEnd (t : Time) (vin vref : Int) (comply : BitVec 4) (s : State) : Res :=
  let s0 := advance t s
  .next (match s0.aux.conv with
    | none => s0
    | some c =>
      if s0.auxState ≠ 2 ∧ s0.auxState ≠ 4 then s0 else
        let raw := auxCode s0 c vin vref
        let code := max (-8388607) (min 8388607 raw)
        let tag : AuxConv := { c with
          sat := c.sat || code.natAbs == 8388607, end_ := t
          comply := c.comply || comply.toNat &&& convF c Reg.AUX_Rr_CFG_EXC != 0 }
        let s1 := auxComply comply.toNat { s0 with free := s0.free + 1 }
        if s0.auxState = 2 then
          let rev := convF c Reg.AUX_Rr_CFG_REV != 0
          { s1 with aux := { s1.aux with conv := some { tag with cA := code, endA := t, vref := vref } } }.setSt Reg.AUX_STATUS_STATE
            (if rev then 3 else 5)
        else { s1 with aux := { s1.aux with conv := some { tag with cB := code } } }.setSt Reg.AUX_STATUS_STATE 5)

/-- DWELL_END (R245). [DESIGN CHOICE: log 3] -/
def execDwellEnd (t : Time) (s : State) : Res :=
  let s0 := advance t s
  .next (if s0.auxState ≠ 3 then s0 else
    let go := fun (c : AuxConv) => { c with startB := t }
    { s0 with aux := { s0.aux with conv := s0.aux.conv.map go } }.setSt Reg.AUX_STATUS_STATE 4)

/-- The raw result (R245). [DEDUCED: log 46] -/
def auxRaw (c : AuxConv) : Int :=
  if convF c Reg.AUX_Rr_CFG_REV = 0 then c.cA
  else if convF c Reg.AUX_Rr_CFG_REF = 1 then (c.cA + c.cB) / 2 else (c.cA - c.cB) / 2

/-- Nominal current of a source code in µA (R240). -/
def auxMicroAmp (c : Nat) : Nat := ([0, 10, 50, 100, 250, 500, 1000, 2000] : List Nat).getD c 0

/-- Z as a fraction of 1 mΩ (R250): none where the excitation has no source. [DEDUCED: log 46] -/
def auxZ (s : State) (c : AuxConv) (raw : Int) : Option (Int × Int) :=
  let g : Int := auxGain (convF c Reg.AUX_Rr_CFG_GAIN)
  if convF c Reg.AUX_Rr_CFG_REF = 1 then some (raw * convF c Reg.AUX_Rr_ZREF, 2 ^ 23 * g)
  else
    match (List.range 4).find? fun i => convF c Reg.AUX_Rr_CFG_EXC / 2 ^ i % 2 == 1 with
    | none => none
    | some i =>
      let code := s.lv (Reg.AUX_SRCs_CODE.ix i)
      let e := almVal s.alm.factory s.alm.eff (0x4C0 + 7 * i + (code - 1))
      let den := 2 ^ 23 * g * (auxMicroAmp code : Int) * (2 ^ 20 + e)
      if den ≤ 0 then none else some (raw * 1250000000 * 2 ^ 20, den)

/-- The cold junction's temperature in mK (R250); none where the definition has no valid result. -/
def auxCold (s : State) (cj : Nat) : Option Int :=
  if cj < 8 then
    let m := s.st (Reg.AUX_RESr_META.ix cj)
    if m % 2 = 1 ∧ m / 16 % 2 = 0 then some (sx 32 (s.st (Reg.AUX_RESr_VALUE.ix cj))) else none
  else some (Config.dieTemp s.free).toNat

/-- E(T_cj) is stated (R250): the cold junction is a definition with a temperature curve, or the die sensor, and its temperature lies
in the range of the thermocouple curve. -/
def coldStated (s : State) (curve cj : Nat) (tc : Int) : Bool :=
  let cv := s.st (Reg.AUX_RESr_META.ix cj) / 2048 % 16
  let r := tcRange curve
  (cj == 8 || (decide (cj < 8) && decide (2 ≤ cv ∧ cv ≤ 7))) && decide (r.1 ≤ tc - 273150 ∧ tc - 273150 ≤ r.2)

/-- VALUE of a raw result; `none`: tagged RANGE (R250, R251). [PRESUMED: log 45; DEDUCED: log 46] -/
def auxValue (s : State) (c : AuxConv) (raw : Int) : Option Int :=
  let free := some (sx 32 (Config.auxValue s.free).toNat)
  let tol := fun (o : Option (Int × Bool)) (d : Nat) => o.map fun e => curveTol e d s.free
  match convF c Reg.AUX_Rr_LIN_CURVE with
  | 0 => some raw
  | 1 =>
    let v := divRound (raw * sx 32 (convF c Reg.AUX_Rr_ZREF)) (2 ^ 16) + sx 32 (convF c Reg.AUX_Rr_OFFSET)
    if -(2 ^ 31) ≤ v ∧ v < 2 ^ 31 then some v else free
  | 2 => match auxZ s c raw with | none => free | some z => tol (ptInverse 100000 z.1 z.2) 1
  | 3 => match auxZ s c raw with | none => free | some z => tol (ptInverse 1000000 z.1 z.2) 1
  | 7 => match auxZ s c raw with
    | none => free
    | some z => tol (shInverse (convF c Reg.AUX_Rr_SH_A) (convF c Reg.AUX_Rr_SH_B) (convF c Reg.AUX_Rr_SH_C) z.1 z.2) 1
  | k =>
    if 7 < k then free else
      match auxCold s (convF c Reg.AUX_Rr_LIN_CJ) with
      | none => none
      | some tc =>
        if !coldStated s k (convF c Reg.AUX_Rr_LIN_CJ) tc then free else
          -- V_in in 10⁻⁶⁰ mV from the internal 1,250 mV, or the V_ref of the first phase in nV
          let ref : Int := if convF c Reg.AUX_Rr_CFG_REF = 1 then c.vref * 10 ^ 54 else 1250 * 10 ^ 60
          let v := raw * ref / (2 ^ 23 * (auxGain (convF c Reg.AUX_Rr_CFG_GAIN) : Int))
          tol (tcInverse k (v + tcE k (tc - 273150))) 10

/-- SUPPLY_DIP and REF_LOST of a conversion's integration phases (R252, R374). [DEDUCED: log 47] -/
def auxFlags (s : State) (c : AuxConv) : Nat :=
  flagsOver s c.start c.endA ||| (if convF c Reg.AUX_Rr_CFG_REV = 0 then 0 else flagsOver s c.startB c.end_)

/-- The latest source tick at or before an instant; the instant itself where no ticks run (R253). -/
def auxTick (s : State) (t : Time) : Time :=
  if !s.ticksRun ∨ !s.merid.started then t
  else
    let per := s.lv Reg.MERID_PERIOD_PERIOD_NS * duPerNs
    let back := tDiff s.merid.lastTick t
    if back ≤ 0 ∨ per = 0 then s.merid.lastTick
    else s.merid.lastTick - BitVec.ofNat 64 ((back.toNat + per - 1) / per * per)

/-- The source frames between two instants. [DEDUCED: log 47] -/
def auxFrames (s : State) (a b : Time) : Nat := if !s.ticksRun then 0 else (tDiff b a).toNat / (s.lv Reg.MERID_PERIOD_PERIOD_NS * duPerNs)

/-- A latched result's entry joins the AUX records (R253). -/
def auxEntry (r : Nat) (end_ : Time) (value raw meta_ seq : Nat) (flags : Nat) (s : State) : State :=
  addEntryWith 0x0B (fun x => x.src / 2 ^ r % 2 == 1) 0
    (fun x => { product := 0x0B, width := 3, time := auxTick s end_, firstPoint := BitVec.ofNat 32 (x.src % 256) })
    (fun x => { x with till := end_, frameCount := auxFrames s x.time end_ })
    (leBytes 8 end_.toNat ++ leBytes 4 value ++ leBytes 4 raw ++ leBytes 4 meta_ ++ leBytes 4 seq) flags s

/-- A result latches (R250 to R252). -/
def auxLatch (c : AuxConv) (s : State) : State :=
  let raw := auxRaw c
  let v := if c.sat then none else auxValue s c raw
  let range := v.isNone
  let value := ux 32 (v.getD 0x7FFFFFFF)
  let fl := auxFlags s c
  let meta_ := 3 + 4 * bit c.unsettled + 8 * bit c.sat + 16 * bit range + 32 * bit c.comply + 64 * (fl / 2 % 2) + 128 * (fl % 2) +
    256 * c.origin + 1024 * bit (convF c Reg.AUX_Rr_CFG_REV != 0) + 2048 * convF c Reg.AUX_Rr_LIN_CURVE + 32768 * c.r
  let seq := (s.st (Reg.AUX_RESr_SEQ.ix c.r) + 1) % 2 ^ 32
  let s1 := (({ s with free := s.free + 1 }.setSt (Reg.AUX_RESr_VALUE.ix c.r) value).setStI (Reg.AUX_RESr_RAW.ix c.r) raw).setSt
    (Reg.AUX_RESr_META.ix c.r) meta_
  let s2 := ((s1.setSt2 (Reg.AUX_RESr_END_LO.ix c.r) (Reg.AUX_RESr_END_HI.ix c.r) c.end_.toNat).setSt (Reg.AUX_RESr_SEQ.ix c.r) seq).bump
    Reg.AUX_CONVERSIONS
  let s3 := ((s2.raise 0x031 c.r).bumpBy Reg.AUX_UNSETTLED (bit c.unsettled)).raiseIf c.unsettled 0x031 9
  let s4 := (s3.raiseIf c.sat 0x031 10).raiseIf range 0x031 11
  let cal := bit (flagsOver s c.start c.end_ / 2 ^ 7 % 2 == 1)
  let s5 := auxEntry c.r c.end_ value (ux 32 raw) meta_ seq
    (fl % 4 + 16 * bit c.unsettled + 128 * cal) s4
  if c.unsettled then s5 else ramanTakeAux c.r c.end_ (sx 32 value) s5

/-- RESULT (R249, R252). -/
def execResult (t : Time) (s : State) : Res :=
  let s0 := advance t s
  .next (match s0.aux.conv with
    | none => s0
    | some c =>
      if s0.auxState ≠ 5 then s0 else
        let s1 := auxLatch c { s0 with aux := { s0.aux with conv := none } }
        let gap := c.origin == 0 && s1.lv Reg.AUX_SCAN_INTERVAL != 0 && s1.aux.req.isNone && s1.aux.work.isEmpty
        s1.setSt Reg.AUX_STATUS_STATE (if gap then 6 else 1))

/-- SCAN_GAP_END (R249). -/
def execScanGapEnd (t : Time) (s : State) : Res :=
  let s0 := advance t s
  .next (if s0.auxState = 6 then s0.setSt Reg.AUX_STATUS_STATE 1 else s0)

/-- AUX_RESULT_READ (R252): the other words are snapshotted, NEW is cleared. -/
def execAuxResultRead (q : Requester) (r : Fin 8) (s : State) : Res :=
  .next (s.busRead q 0x031 fun s =>
    let a := fun (f : Fld) => regAddr 0x031 (f.ix r).off
    let snap := fun (f : Fld) (s : State) => s.takeSnap q (a f) (s.st (f.ix r))
    let s1 := snap Reg.AUX_RESr_SEQ (snap Reg.AUX_RESr_END_HI (snap Reg.AUX_RESr_END_LO (snap Reg.AUX_RESr_META (snap Reg.AUX_RESr_RAW s))))
    let m := s.st (Reg.AUX_RESr_META.ix r)
    (s1.setSt (Reg.AUX_RESr_META.ix r) (m &&& 0xFFFFFFFD)).answer (s.st (Reg.AUX_RESr_VALUE.ix r)))

/-- AUX_RECORD_FLUSH (R253): 1 s after its first entry, the AUX records with the earliest first entry close. -/
def execAuxRecordFlush (s : State) : Res :=
  let opens := s.strm.streams.filterMap fun x =>
    if x.sel.product = 0x0B then (Amap.find 0 x.opens).map fun r => (x.sid, leNat (r.body.take 8)) else none
  .next (match opens with
    | [] => s
    | (_, t) :: _ =>
      let first := opens.foldl (fun (m : Nat) e => if tBefore (BitVec.ofNat 64 e.2) (BitVec.ofNat 64 m) then e.2 else m) t
      opens.foldl (fun s e => if e.2 = first then closeOpen e.1 0 s else s) s)

end Sys2Proof.Machine
end

