-- ==== Sys2Proof/Machine/Commits.lean ====
section
/-!
DEFINITION. Page commits: the check word (R547), acceptance (R33, R34) and what an applied commit does (R35, R257, R475, R490).
-/

namespace Sys2Proof.Machine

/-! ### pages -/

/-- The page is present and carries the common layout (R550). -/
def pagePresent (p : Nat) : Bool := !(Reg.pageFields p).isEmpty

/-- Every field of an array field on page `p`. -/
def fieldEntries (p : Nat) (f : Fld) : List Fld :=
  (List.range f.count).flatMap fun i => (List.range f.count2).map fun j => ((f.pg (p - f.page)).ix i).ix2 j

/-- The shadow fields of a page (R546): its RW fields at 0x040 to 0x7FF. -/
def shadowFields (p : Nat) : List Fld :=
  (((Reg.pageFields p).filter fun f => f.ty == .rw && decide (0x040 ≤ f.off ∧ f.off < 0x800)).flatMap (fieldEntries p)).filter
    fun f => decide (f.off < 0x800)

/-- The shadow words of a page by offset, those that are not 0. -/
def shadowWords (s : State) (p : Nat) : Amap Nat :=
  (shadowFields p).foldl (fun m f => let v := s.sh f; if v = 0 then m else Amap.put f.off (Amap.get m f.off 0 + v * 2 ^ f.lo) m) []

/-- The 1,984 bytes of R547. -/
def shadowBytes (s : State) (p : Nat) : List Byte :=
  let w := shadowWords s p
  (List.range 496).flatMap fun i => leBytes 4 (Amap.get w (0x040 + 4 * i) 0)

/-- The window's shadow words on the ZONE and ALM pages (R257, R475, R547). -/
def windowBytes (s : State) (p : Nat) : List Byte :=
  if p = 0x038 then
    ((List.range 1024).flatMap fun i => leBytes 4 (Amap.get s.zone.shadow (65536 + i / 4 * 16 + i % 4) 0).toNat) ++
    ((List.range (16 * s.sh Reg.ZONE_COUNT_N)).flatMap fun i => leBytes 4 (Amap.get s.zone.shadow i 0).toNat)
  else if p = 0x014 then (List.range 0x500).flatMap fun i => leBytes 4 (Amap.get s.alm.user i 0).toNat
  else []

/-- PAGE_CHECK (R547). -/
def pageCheck (s : State) (p : Nat) : Nat := crc32c (shadowBytes s p ++ windowBytes s p)

/-! ### acceptance -/

/-- A commit of the page becomes pending and replaces one that was (R33, R34). -/
def acceptCommit (page : Nat) (s : State) : State :=
  let c : Commit := { page := page, at_ := s.time }
  ({ s with commits := (s.commits.filter fun (x : Commit) => x.page != page) ++ [c] }.setSt (commitState page) 1).setSt (commitHeld page)
    (s.lv Reg.MERID_APPLY_CTRL_HOLD)

/-- PAGE_COMMIT (R33). [DEDUCED: log 22] -/
def execPageCommit (q : Requester) (t : Time) (page : Nat) (check : Word) (s : State) : Res :=
  .next ((advance t s).busWrite q page fun s =>
    if !pagePresent page then s
    else if check.toNat = pageCheck s page then acceptCommit page s
    else s.setSt (commitState page) 3)

/-! ### almanac values in force (R472, R475) -/

/-- The effective values of the user values in force, with how many of those that changed from `old` saturate. [DEDUCED: log 86] -/
def almApply (old : Amap Word) (s : State) : State :=
  let val := fun (e : Nat × Word) => almSat e.1 (almCombine e.1 (sx 32 (Amap.get s.alm.factory e.1 0).toNat) (sx 32 e.2.toNat))
  let moved := s.alm.userLive.filter fun (e : Nat × Word) => Amap.get old e.1 0 != e.2 && (val e).2
  let sat := moved.length
  { s with alm := { s.alm with eff := (s.alm.userLive.filter fun (e : Nat × Word) => e.2 != 0).map fun (e : Nat × Word) => (e.1, BitVec.ofInt 32 (val e).1) } }.bumpBy
    Reg.ALM_SATURATIONS sat

/-! ### application -/

/-- The field is copied by a commit of its page: a COMMIT field, but for BANK where that takes effect at the restart (R200). -/
def committedField (s : State) (page k : Nat) : Bool :=
  match fieldOfKey k with
  | none => false
  | some f =>
    f.page == page && f.eff == .commit &&
      !((f.key == (Reg.SLOWn_FIR_CFG_BANK.pg 0).key && bankAtRestart s 0) || (f.key == (Reg.SLOWn_FIR_CFG_BANK.pg 1).key && bankAtRestart s 1))

/-- The page's COMMIT fields follow the shadow, and the commit reads APPLIED (R33, R34, R490). -/
def copyCommit (page : Nat) (s : State) : State :=
  let s1 := { s with
    live := copyFields (fun k => k / 131072 == page && committedField s page k) s.shadow s.live
    commits := s.commits.filter fun (x : Commit) => x.page != page
    stew := { s.stew with defaulted := Amap.del s.stew.defaulted page } }
  ((s1.setSt (commitState page) 2).setSt (commitHeld page) 0).setSt (commitApplyTick page) (s.tickCount % 2 ^ 16)

/-- A commit that changes RANGE (R129): ARC's dwell starts again at this tick, which counts one frame of it off; the range of a lane
that does not run follows. -/
def commitRange (n : Lane) (old : RegFile) (s : State) : State :=
  let f := Reg.RXFn_CFG_RANGE.pg n
  let s1 := if s.laneState n = 2 then s else s.setSt (Reg.RXFn_STATUS_RANGE_CUR.pg n) (s.lv f)
  if s.lv f = RegFile.get old f ∨ s.lv (Reg.RXFn_CFG_ARC_EN.pg n) = 0 then s1 else s1.setRxf n { s1.rxf.get n with dwell := 65 }

/-- What the blocks do when a commit of a page has applied at `t`; `old` is the configuration before it (R88, R129, R182, R202,
R226, R257, R475). -/
def commitHook (t : Time) (old : State) (page : Nat) (s : State) : State :=
  let frame := fun (n : Lane) => (s.lanes.get n).frame
  match page with
  | 0x013 => ivRestart s
  | 0x014 => almApply old.alm.userLive { s with alm := { s.alm with userLive := s.alm.user } }
  | 0x018 => syncDrive s
  | 0x01A => syncIdle (syncNh 0 (constChange 0 (frame 0) old.live s.live s))
  | 0x01B => syncIdle (syncNh 1 (constChange 1 (frame 1) old.live s.live s))
  | 0x020 => syncServo 0 (commitRange 0 old.live s)
  | 0x021 => syncServo 1 (commitRange 1 old.live s)
  | 0x022 => commitTsf t old.live s
  | 0x028 => syncNh 0 (constChange 0 (frame 0) old.live s.live s)
  | 0x029 => syncNh 1 (constChange 1 (frame 1) old.live s.live s)
  | 0x02C => commitSlow 0 (frame 0) old.live s
  | 0x02D => commitSlow 1 (frame 1) old.live s
  | 0x038 => commitZone s
  | _ => s

/-- The constellation hook of a lane is one for both its pages. -/
def hookPages (pages : List Nat) : List Nat :=
  pages.filter fun p => !((p == 0x028 && pages.contains 0x01A) || (p == 0x029 && pages.contains 0x01B))

/-- Commits of pages apply together at `t` (R35). -/
def applyPages (t : Time) (pages : List Nat) (s : State) : State :=
  (hookPages pages).foldl (fun x p => commitHook t s p x) (pages.foldl (fun x p => copyCommit p x) s)

/-- A commit made by the device itself takes effect at the next tick, or at once when no ticks run (R477, R502). [DEDUCED: log 86] -/
def deviceCommit (page : Nat) (s : State) : State :=
  if s.ticksRun then acceptCommit page s else applyPages s.time [page] s

end Sys2Proof.Machine
end

