-- ==== Sys2Proof/Machine/ZoneCore.lean ====
section
/-!
DEFINITION. Zone cores: issue, the instructions, ports, events and control (chapter 12, R286 to R318).
-/

namespace Sys2Proof.Machine

/-! ### addressing (R288) -/

/-- The memory address of pointer `p`: P4 to P7 address YM. -/
def ZCore.ptr (c : ZCore) (p : Nat) : Nat := (if p < 4 then 0 else 4096) + c.reg (zP p)

/-- A pointer after an update by `k`. -/
def stepPtr (p b l : Nat) (k : Int) : Nat :=
  if l = 0 then (((p : Int) + k) % 4096).toNat
  else
    let u := (p + 4096 - b) % 4096
    (b + (((u : Int) + k) % (l : Int)).toNat) % 4096

def ZCore.updPtr (p : Nat) (k : Int) (c : ZCore) : ZCore :=
  c.setReg (zP p) (stepPtr (c.reg (zP p)) (c.reg (zB p)) (c.reg (zL p)) k)

/-- The step of an update code (R299); none leaves the pointer alone. -/
def ZCore.upd (p : Nat) (u : Upd) (c : ZCore) : ZCore :=
  match u with
  | .none => c.updPtr p 0
  | .inc => c.updPtr p 1
  | .dec => c.updPtr p (-1)
  | .inc2 => c.updPtr p 2

/-! ### issue (R293 to R297, R313, R314) -/

/-- The address after `pc` that the active innermost loop makes (R297), with the loop's count and activity. -/
def ZCore.advancePc (c : ZCore) : ZCore :=
  let pc := c.reg zPC
  let next := (pc + 1) % 8192
  let lv : Option Nat := if c.sr 7 then some 1 else if c.sr 6 then some 0 else none
  match lv with
  | none => c.setReg zPC next
  | some l =>
    if pc ≠ c.reg (zX (7 + 3 * l)) then c.setReg zPC next
    else
      let n := (c.reg (zX (5 + 3 * l)) + 65535) % 65536
      let c1 := c.setReg (zX (5 + 3 * l)) n
      if n = 0 then (c1.setSr (6 + l) false).setReg zPC next else c1.setReg zPC (c.reg (zX (6 + 3 * l)))

/-- A core enters HALTED. -/
def haltCore (n : Nat) (s : State) : State :=
  ((s.setCore n { (s.core n).drain with haltReq := false, stepping := false }).setSt (Reg.ZCn_STATUS_STATE.pg n) 3).raise (0x040 + n) 0

/-- A control instruction that no delay slot may hold, and one that the end of a loop body may not hold (R295). -/
def noDelaySlot (i : Instr) : Bool :=
  match i with
  | .br .. | .call .. | .ret .. | .jmpr .. | .loopi .. | .loopr .. | .brklp .. | .rti .. | .wait .. | .halt .. => true
  | _ => false
def noLoopEnd (i : Instr) : Bool :=
  match i with
  | .br .. | .call .. | .ret .. | .jmpr .. | .loopi .. | .loopr .. | .brklp .. | .rti .. => true
  | _ => false

/-- The address lies in the last three positions of the body of an active loop (R295). -/
def ZCore.nearLoopEnd (c : ZCore) : Bool :=
  [0, 1].any fun l =>
    c.sr (6 + l) && decide (c.reg (zX (6 + 3 * l)) ≤ c.reg zPC ∧ c.reg zPC ≤ c.reg (zX (7 + 3 * l)) ∧
      c.reg (zX (7 + 3 * l)) ≤ c.reg zPC + 2)

/-- The placement fault of an instruction. [DESIGN CHOICE: log 53] -/
def placement (c : ZCore) (i : Instr) : Bool := (c.delay != 0 && noDelaySlot i) || (noLoopEnd i && c.nearLoopEnd)

/-- The core can issue the instruction at its PC: it runs, or waits with its request line asserted and IE clear (R305);
the address is no enabled breakpoint, but for a STEP (R313). [DESIGN CHOICE: log 53] -/
def canIssue (s : State) (n : Nat) : Bool :=
  let c := s.core n
  (s.coreState n == 1 || (s.coreState n == 2 && icuRequest s (2 + n) && !c.sr 5)) &&
    (c.stepping || !s.on (Reg.ZCn_BKPT_EN.pg n) || s.lv (Reg.ZCn_BKPT_ADDR.pg n) != c.reg zPC)

/-- What follows an issue: delay slots run out, a STEP or a halt request takes hold (R295, R313). -/
def afterIssue (n : Nat) (slot : Bool) (s : State) : State :=
  let c := s.core n
  let c1 := if !slot then c
    else if c.delay = 1 then
      let c2 := match c.target with | some a => c.setReg zPC a | none => c
      let c3 := match c.rti with | some v => c2.setReg (zX 0) v | none => c2
      { c3 with delay := 0, target := none, rti := none }
    else { c with delay := c.delay - 1 }
  let s1 := s.setCore n c1
  if (s1.coreState n = 1 ∨ s1.coreState n = 2) ∧ (c1.stepping ∨ (c1.haltReq ∧ c1.delay = 0)) then haltCore n s1 else s1

/-- Core `n` issues instruction `i`, which must be the one that its program memory holds at its PC. `fault` gives a
fault of the instruction's own, `body` its effect at its position, with the PC already moved on. [DESIGN CHOICE: log 53; DEDUCED: log 55] -/
def zcIssue (n : Core) (i : Instr) (fault : ZCore → Option (State → State)) (body : ZCore → State → State) (s : State) : State :=
  let c := s.core n
  if !canIssue s n || zcDecode n (Amap.get c.pm (c.reg zPC) 0) != some i then s
  else if placement c i then faultCore n 2 s
  else match fault c with
    | some f => f s
    | none =>
      let c1 := (c.land c.pos).advancePc
      let s1 := body { c1 with cycles := c1.cycles + 1 } (s.setSt (Reg.ZCn_STATUS_STATE.pg n) 1)
      let c2 := s1.core n
      afterIssue n (c.delay != 0) (s1.setCore n { c2 with pos := c2.pos + 1 })

/-- An instruction that touches the core alone. -/
def zcOwn (n : Core) (i : Instr) (f : ZCore → ZCore) (s : State) : State :=
  zcIssue n i (fun _ => none) (fun c s => s.setCore n (f c)) s

/-- An instruction that reads words of the core's memories: one that is uncorrectable faults it (R314). `e` is what a load met. -/
def zcLoad (n : Core) (i : Instr) (addrs : ZCore → List Nat) (e : Sram) (f : ZCore → ZCore) (s : State) : State :=
  let fault := fun (c : ZCore) => ((addrs c).find? fun a => e.lost || c.bad.contains a).map (memFault n)
  zcIssue n i fault (fun c s => sramMet { e with lost := false } (s.setCore n (f c))) s

/-- No error was met. -/
def noSram : Sram := ⟨0, false⟩

/-! ### arithmetic (R290 to R292) -/

/-- Z and N of a 40-bit result. -/
def ZCore.flagsZN (v : Nat) (c : ZCore) : ZCore := (c.setSr 0 (v % 2 ^ 40 == 0)).setSr 1 (v / 2 ^ 39 % 2 == 1)

/-- Z, N, C and V. -/
def ZCore.flags (v : Nat) (cy ov : Bool) (c : ZCore) : ZCore := ((c.flagsZN v).setSr 2 cy).setSr 3 ov

/-- A value lies outside the 40-bit two's complement range. -/
def out40 (x : Int) : Bool := decide (x < -549755813888 ∨ 549755813887 < x)

/-- Sum and difference with their flags. -/
def ZCore.addF (a b : Nat) (c : ZCore) : ZCore :=
  c.flags ((a + b) % 2 ^ 40) (decide (2 ^ 40 ≤ a + b)) (out40 (sx 40 a + sx 40 b))
def ZCore.subF (a b : Nat) (c : ZCore) : ZCore :=
  c.flags ((a + 2 ^ 40 - b) % 2 ^ 40) (decide (a < b)) (out40 (sx 40 a - sx 40 b))

/-- A multiplier operand (R290). -/
def mulField (v : Nat) (f : FieldSel) : Nat :=
  match f with | .h => v / 2 ^ 24 % 2 ^ 16 | .m => v / 2 ^ 16 % 2 ^ 16 | .l => v % 2 ^ 16

/-- The exact product. -/
def mulProduct (a b : Nat) (m : SignMode) : Int :=
  match m with
  | .ss => sx 16 a * sx 16 b
  | .uu => (a : Int) * b
  | .su => sx 16 a * b

/-- An accumulator takes a true result; AV is sticky (R290). -/
def ZCore.acc (a : Fin 2) (x : Int) (c : ZCore) : ZCore :=
  let c1 := if out40 x then c.setSr 4 true else c
  c1.wr false (zA a) (ux 40 x)

/-- The reads of a parallel word (R299). -/
def ZCore.parReads (p : ParOps) (c : ZCore) : ZCore :=
  let c1 := if p.xe then (c.wr true p.xd.val (c.memAt (c.ptr p.xp.val))).upd p.xp.val p.xu else c
  if p.ye then (c1.wr true (4 + p.yd.val) (c1.memAt (c1.ptr (4 + p.yp.val)))).upd (4 + p.yp.val) p.yu else c1

/-- The words that a parallel word reads. -/
def ZCore.parAddrs (p : ParOps) (c : ZCore) : List Nat :=
  (if p.xe then [c.ptr p.xp.val] else []) ++ (if p.ye then [c.ptr (4 + p.yp.val)] else [])

/-- The product of a parallel word's operands. -/
def ZCore.parMul (p : ParOps) (c : ZCore) : Int :=
  mulProduct (mulField (c.rdE (zD p.sa)) p.fa) (mulField (c.rdE (zD p.sb)) p.fb) p.sgn

/-- A bit-field of a register (R300); the spec defines widths 1 to 40 inside the register. [DESIGN CHOICE: log 54] -/
def bitField (op v b w : Nat) (signed : Bool) : Nat :=
  if 1 ≤ w ∧ b + w ≤ 40 then
    let f := v / 2 ^ b % 2 ^ w
    if signed then ux 40 (sx w f) else f
  else (Config.zcUnstated op (BitVec.ofNat 40 v) (b + 64 * w)).toNat

/-- A shift by 0 to 39 (R300). [DESIGN CHOICE: log 54] -/
def zcShift (op v sh : Nat) : Nat :=
  if 40 ≤ sh then (Config.zcUnstated op (BitVec.ofNat 40 v) sh).toNat
  else if op = 5 then ux 40 (sx 40 v / (2 ^ sh : Nat)) else if op = 6 then v / 2 ^ sh else v * 2 ^ sh % 2 ^ 40

/-- MINX and its kin (R292). -/
def ZCore.extreme (take : Int → Int → Bool) (signed : Bool) (d s t : Fin 8) (c : ZCore) : ZCore :=
  let f := fun (v : Nat) => if signed then sx 40 v else (v : Int)
  let vs := c.rdE (zD s)
  let c1 := if take (f vs) (f (c.rdE (zD d))) then (c.wr false (zD d) vs).wr false (zD t) (c.reg (zX 4)) else c
  c1.setReg (zX 4) (c.reg (zX 4) + 1)

/-- Dd = Ds op Dt with flags Z and N. -/
def ZCore.logic (f : Nat → Nat → Nat) (d s t : Fin 8) (c : ZCore) : ZCore :=
  let v := f (c.rdE (zD s)) (c.rdE (zD t))
  (c.wr false (zD d) v).flags v false false

/-- A result with flags Z and N, C and V clear. -/
def ZCore.putRes (d : Fin 8) (v : Nat) (c : ZCore) : ZCore := (c.wr false (zD d) v).flags v false false

/-- The 15-bit immediate as a 40-bit number. -/
def imm15 (i : BitVec 15) : Nat := ux 40 i.toInt

/-! ### events, verdicts, copies, the timer: the ports (R306 to R312) -/

/-- EVQ_POP (R306). -/
def evqPopOp (n : Core) (s : State) : State :=
  let c := s.core n
  match c.evq with
  | [] => s.setCore n { c with window := none }
  | e :: r => s.setCore n { c with evq := r, window := some e }

/-- Word `k` of the event window. [DESIGN CHOICE: log 52] -/
def windowWord (s : State) (c : ZCore) (k : Nat) : Nat :=
  match c.window with
  | some e => leNat (((eventBytes e).drop (4 * k)).take 4)
  | none => (Config.emptyWindow s.free).toNat

/-- The check of a copy (R309): the result code, 0 where it may start. [DEDUCED: log 57] -/
def copyCheck (s : State) (x : SegCopy) (id : Nat) : Nat :=
  let g := s.seg x.seg
  let bytes := g.held * segRow g
  if x.cnt = 0 ∨ 4096 < x.cnt ∨ 4096 < x.dst % 4096 + x.cnt then 3
  else if segCount s ≤ x.seg ∨ g.gen ≠ id / 65536 then 1
  else if g.st = 0 then 2
  else if x.mode = 0 then
    (if bytes < (x.off + (x.cnt - 1) * x.stride + 1) * g.width ∨ 24 < x.sh then 3 else 0)
  else if x.off % 4 ≠ 0 ∨ 64 + bytes < x.off + 4 * x.cnt ∨ (g.st = 1 ∧ x.off < 64) then 3 else 0

/-- SEG_GO (R309). A write while a copy runs leaves it. [DEDUCED: log 57] -/
def segGoOp (n : Core) (w : Nat) (s : State) : State :=
  let c := s.core n
  let x : SegCopy := { seg := c.segId % 65536, mode := w % 2, off := c.segOff, stride := c.segStride, cnt := c.segCnt
                       dst := c.segDst % 8192, sh := w / 256 % 32 }
  if c.copy.isSome then s
  else
    let r := copyCheck s x c.segId
    if r = 0 then s.setCore n { c with copy := some x, result := 0 } else s.setCore n { c with result := r }

/-- The words of a copy (R309). -/
def copyWords (s : State) (x : SegCopy) : List Nat :=
  let g := s.seg x.seg
  let a := segAddr s x.seg
  (List.range x.cnt).map fun i =>
    if x.mode = 0 then
      let v := leNat (memRead s (a + 64 + (x.off + i * x.stride) * g.width) g.width)
      ux 40 (sx (8 * g.width) v * (2 ^ x.sh : Nat))
    else leNat (memRead s (a + x.off + 4 * i) 4)

/-- A copy ends (R309): its words reach the core's memory, or it met an uncorrectable word (R364); a merge may meet one in the core's memory
(R314). [DEDUCED: log 56] -/
def copyEnd (n : Core) (x : SegCopy) (ue : Bool) (s : State) : State :=
  let c := s.core n
  let g := s.seg x.seg
  let a := segAddr s x.seg
  let bad := ue || (List.range x.cnt).any fun i =>
    if x.mode = 0 then poisoned s (a + 64 + (x.off + i * x.stride) * g.width) g.width else poisoned s (a + x.off + 4 * i) 4
  let c1 := if bad then { c with result := 4 }
    else (copyWords s x).zipIdx.foldl (fun c e => c.setMem (x.dst + e.2) e.1) { c with result := 0 }
  let hit := if bad then none else (List.range x.cnt).find? fun i => c.bad.contains (x.dst + i)
  let s1 := settleSeg x.seg (s.setCore n { c1 with copy := none })
  let s2 := match hit with | some i => memFault n (x.dst + i) s1 | none => s1
  raisePriv (2 + n) 1 (s2.setCore n { s2.core n with bad := c1.bad })

/-- SEG_REL (R310). -/
def segRelOp (n : Core) (id : Nat) (s : State) : State :=
  let i := id % 65536
  let g := s.seg i
  if i < segCount s ∧ g.st ≠ 0 ∧ g.gen = id / 65536 ∧ g.hold / 2 % 2 = 1 ∧ g.core = n.val then
    releaseSeg i 2 s
  else (s.bump (Reg.ZCn_REL_REJECTS.pg n)).raise (0x040 + n) 4

/-- The entry of a verdict (R311). [DESIGN CHOICE: log 52] -/
def verdict (s : State) (n : Core) (t : Time) : Event :=
  let c := s.core n
  let base : Event := match c.window with
    | some e => e
    | none =>
      let f := (Config.verdictBlank s.free).toNat
      { seq := 0xFFFFFFFF, zone := 0xFFFF, lane := 0, trig := t, decide := t, mask := f % 256, primary := f / 2 ^ 8 % 256
        throttle := f / 2 ^ 16 % 256, eflags := f / 2 ^ 24 % 256, fslot := 0, value := 0, width := 0, arg := 0, flags := 0 }
  { base with
    decide := t, eflags := base.eflags ||| 0x20, fslot := n.val, value := sx 40 c.vdValue, width := c.vdClass, arg := c.vdPoint
    flags := 0 }

/-- VD_POST (R311): a verdict less than 64 core cycles (80 ns) after the core's last is lost. -/
def vdPostOp (n : Core) (t : Time) (s : State) : State :=
  let c := s.core n
  let early := match c.vdAt with
    | some (k, u) => decide (c.cycles < k + 64 ∧ tDiff t u < 80 * 128)
    | none => false
  if early then (s.bump (Reg.ZCn_VD_DROPS.pg n)).raise (0x040 + n) 5
  else
    let e := verdict s n t
    let s1 := if c.window.isNone then { s with free := s.free + 1 } else s
    (eventEntry e (s1.setCore n { c with vdAt := some (c.cycles, t) })).bump (Reg.ZCn_VERDICTS.pg n)

/-- TMR_LO (R312): the pair is committed; a value that is not in the future raises the source at once. -/
def tmrCommitOp (n : Core) (t : Time) (lo : Nat) (s : State) : State :=
  let c := s.core n
  let v : Time := BitVec.ofNat 64 (c.tmrHi * 2 ^ 32 + lo % 2 ^ 32)
  if tBefore t v then s.setCore n { c with tmr := some v }
  else raisePriv (2 + n) 3 (s.setCore n { c with tmr := none })

/-- A read of a port; none where it is undefined in that direction (R306). -/
def portIn (n : Core) (port : Nat) (s : State) : Option (Nat × State) :=
  let c := s.core n
  match port with
  | 0x00 => some (c.evq.length, s)
  | 0x02 => some (bit c.window.isSome, s)
  | 0x26 => some (bit c.copy.isSome + 2 * c.result, s)
  | 0x30 => some (c.fringWr, s)
  | 0x31 => some (c.fringRd, s)
  | 0x40 => some (icuClaim (2 + n) s)
  | 0x48 => some (s.time.toNat % 2 ^ 32, s.setCore n { c with timeHi := s.time.toNat / 2 ^ 32 })
  | 0x49 => some (c.timeHi, s)
  | 0x50 => some (n.val, s)
  | p =>
    if 0x10 ≤ p ∧ p ≤ 0x1B then
      some (windowWord s c (p - 0x10), if c.window.isNone then { s with free := s.free + 1 } else s)
    else none

/-- A write of a port; none where it is undefined in that direction. `v` has 40 bits. -/
def portOut (n : Core) (port v : Nat) (s : State) : Option State :=
  let c := s.core n
  let w := v % 2 ^ 32
  match port with
  | 0x01 => some (evqPopOp n s)
  | 0x20 => some (s.setCore n { c with segId := w })
  | 0x21 => some (s.setCore n { c with segOff := w })
  | 0x22 => some (s.setCore n { c with segStride := w })
  | 0x23 => some (s.setCore n { c with segCnt := w })
  | 0x24 => some (s.setCore n { c with segDst := w })
  | 0x25 => some (segGoOp n w s)
  | 0x27 => some (segRelOp n w s)
  | 0x31 => some (s.setCore n { c with fringRd := w })
  | 0x38 => some (s.setCore n { c with vdValue := v })
  | 0x39 => some (s.setCore n { c with vdClass := w })
  | 0x3A => some (s.setCore n { c with vdPoint := w })
  | 0x3B => some (vdPostOp n s.time s)
  | 0x41 => some (icuCompleteBy (2 + n) (w % 2048) s)
  | 0x4A => some (tmrCommitOp n s.time w s)
  | 0x4B => some (s.setCore n { c with tmrHi := w })
  | _ => none

/-! ### instructions -/

/-- Parallel format (R299). -/
def execMpy (n : Core) (p : ParOps) (s : State) : Res :=
  .next (zcLoad n (.mpy n p) (ZCore.parAddrs p) noSram (fun c => (c.acc p.acc (c.parMul p)).parReads p) s)
def execMac (n : Core) (p : ParOps) (s : State) : Res :=
  .next (zcLoad n (.mac n p) (ZCore.parAddrs p) noSram (fun c => (c.acc p.acc (sx 40 (c.rdE (zA p.acc)) + c.parMul p)).parReads p) s)
def execMsu (n : Core) (p : ParOps) (s : State) : Res :=
  .next (zcLoad n (.msu n p) (ZCore.parAddrs p) noSram (fun c => (c.acc p.acc (sx 40 (c.rdE (zA p.acc)) - c.parMul p)).parReads p) s)
def execMove (n : Core) (p : ParOps) (s : State) : Res := .next (zcLoad n (.move n p) (ZCore.parAddrs p) noSram (fun c => c.parReads p) s)

/-- Register format, stage E (R300). -/
def execAdd (n : Core) (d a b : Fin 8) (s : State) : Res :=
  .next (zcOwn n (.add n d a b) (fun c =>
    let x := c.rdE (zD a); let y := c.rdE (zD b)
    (c.wr false (zD d) (x + y)).addF x y) s)
def execSub (n : Core) (d a b : Fin 8) (s : State) : Res :=
  .next (zcOwn n (.sub n d a b) (fun c =>
    let x := c.rdE (zD a); let y := c.rdE (zD b)
    (c.wr false (zD d) (x + 2 ^ 40 - y)).subF x y) s)
def execAnd (n : Core) (d a b : Fin 8) (s : State) : Res := .next (zcOwn n (.and n d a b) (ZCore.logic (· &&& ·) d a b) s)
def execOr (n : Core) (d a b : Fin 8) (s : State) : Res := .next (zcOwn n (.or n d a b) (ZCore.logic (· ||| ·) d a b) s)
def execXor (n : Core) (d a b : Fin 8) (s : State) : Res := .next (zcOwn n (.xor n d a b) (ZCore.logic (· ^^^ ·) d a b) s)
def execAsr (n : Core) (d a : Fin 8) (sh : Fin 64) (s : State) : Res :=
  .next (zcOwn n (.asr n d a sh) (fun c => c.putRes d (zcShift 5 (c.rdE (zD a)) sh)) s)
def execLsr (n : Core) (d a : Fin 8) (sh : Fin 64) (s : State) : Res :=
  .next (zcOwn n (.lsr n d a sh) (fun c => c.putRes d (zcShift 6 (c.rdE (zD a)) sh)) s)
def execLsl (n : Core) (d a : Fin 8) (sh : Fin 64) (s : State) : Res :=
  .next (zcOwn n (.lsl n d a sh) (fun c => c.putRes d (zcShift 7 (c.rdE (zD a)) sh)) s)
def execAddi (n : Core) (d a : Fin 8) (imm : BitVec 15) (s : State) : Res :=
  .next (zcOwn n (.addi n d a imm) (fun c =>
    let x := c.rdE (zD a)
    (c.wr false (zD d) (x + imm15 imm)).addF x (imm15 imm)) s)
def execCmp (n : Core) (a b : Fin 8) (s : State) : Res :=
  .next (zcOwn n (.cmp n a b) (fun c => c.subF (c.rdE (zD a)) (c.rdE (zD b))) s)
def execCmpi (n : Core) (a : Fin 8) (imm : BitVec 15) (s : State) : Res :=
  .next (zcOwn n (.cmpi n a imm) (fun c => c.subF (c.rdE (zD a)) (imm15 imm)) s)
/-- ABS and NEG: Z, N and V; −2³⁹ is returned unchanged with V (R291). -/
def execAbs (n : Core) (d a : Fin 8) (s : State) : Res :=
  .next (zcOwn n (.abs n d a) (fun c =>
    let x := sx 40 (c.rdE (zD a))
    ((c.wr false (zD d) (ux 40 x.natAbs)).flagsZN (ux 40 x.natAbs)).setSr 3 (x == -549755813888)) s)
def execNeg (n : Core) (d a : Fin 8) (s : State) : Res :=
  .next (zcOwn n (.neg n d a) (fun c =>
    let x := sx 40 (c.rdE (zD a))
    ((c.wr false (zD d) (ux 40 (-x))).flagsZN (ux 40 (-x))).setSr 3 (x == -549755813888)) s)
def execMin (n : Core) (d a b : Fin 8) (s : State) : Res :=
  .next (zcOwn n (.min n d a b) (fun c => c.wr false (zD d) (ux 40 (min (sx 40 (c.rdE (zD a))) (sx 40 (c.rdE (zD b)))))) s)
def execMax (n : Core) (d a b : Fin 8) (s : State) : Res :=
  .next (zcOwn n (.max n d a b) (fun c => c.wr false (zD d) (ux 40 (max (sx 40 (c.rdE (zD a))) (sx 40 (c.rdE (zD b)))))) s)
def execMinx (n : Core) (d a b : Fin 8) (s : State) : Res :=
  .next (zcOwn n (.minx n d a b) (ZCore.extreme (fun x y => x < y) true d a b) s)
def execMaxx (n : Core) (d a b : Fin 8) (s : State) : Res :=
  .next (zcOwn n (.maxx n d a b) (ZCore.extreme (fun x y => y < x) true d a b) s)
def execMinxu (n : Core) (d a b : Fin 8) (s : State) : Res :=
  .next (zcOwn n (.minxu n d a b) (ZCore.extreme (fun x y => x < y) false d a b) s)
def execMaxxu (n : Core) (d a b : Fin 8) (s : State) : Res :=
  .next (zcOwn n (.maxxu n d a b) (ZCore.extreme (fun x y => y < x) false d a b) s)
def execMovi (n : Core) (d : Fin 8) (imm : BitVec 15) (s : State) : Res :=
  .next (zcOwn n (.movi n d imm) (fun c => c.wr false (zD d) (imm15 imm)) s)
def execOrsh (n : Core) (d a : Fin 8) (imm : BitVec 15) (s : State) : Res :=
  .next (zcOwn n (.orsh n d a imm) (fun c => c.wr false (zD d) ((c.rdE (zD a) * 2 ^ 15) ||| imm.toNat)) s)
def execMov (n : Core) (d a : Fin 8) (s : State) : Res := .next (zcOwn n (.mov n d a) (fun c => c.wr false (zD d) (c.rdE (zD a))) s)
def execExtu (n : Core) (d a : Fin 8) (b w : Fin 64) (s : State) : Res :=
  .next (zcOwn n (.extu n d a b w) (fun c => c.putRes d (bitField 0x16 (c.rdE (zD a)) b w false)) s)
def execExts (n : Core) (d a : Fin 8) (b w : Fin 64) (s : State) : Res :=
  .next (zcOwn n (.exts n d a b w) (fun c => c.putRes d (bitField 0x17 (c.rdE (zD a)) b w true)) s)
def execMova (n : Core) (d : Fin 8) (a : Fin 2) (sh : Fin 64) (s : State) : Res :=
  .next (zcOwn n (.mova n d a sh) (fun c => c.wr false (zD d) (ux 40 (sx 40 (c.rdE (zA a)) / (2 ^ sh.val : Nat)))) s)
def execMovta (n : Core) (a : Fin 2) (d : Fin 8) (s : State) : Res :=
  .next (zcOwn n (.movta n a d) (fun c => c.wr false (zA a) (c.rdE (zD d))) s)
def execAdda (n : Core) (a : Fin 2) (d : Fin 8) (s : State) : Res :=
  .next (zcOwn n (.adda n a d) (fun c => c.acc a (sx 40 (c.rdE (zA a)) + sx 40 (c.rdE (zD d)))) s)
def execClra (n : Core) (a : Fin 2) (s : State) : Res := .next (zcOwn n (.clra n a) (fun c => c.wr false (zA a) 0) s)
/-- SHA: −32 to 31, a negative count shifting left. [DEDUCED: log 55] -/
def execSha (n : Core) (a : Fin 2) (sh : BitVec 6) (s : State) : Res :=
  .next (zcOwn n (.sha n a sh) (fun c =>
    let v := sx 40 (c.rdE (zA a))
    if 0 ≤ sh.toInt then c.wr false (zA a) (ux 40 (v / (2 ^ sh.toInt.toNat : Nat)))
    else c.acc a (v * (2 ^ sh.toInt.natAbs : Nat))) s)

/-- Register format, stage A: pointers, bases and lengths (R289, R300). -/
def execMovp (n : Core) (d a : Fin 8) (s : State) : Res := .next (zcOwn n (.movp n d a) (fun c => c.setReg (zP d) (c.rdA (zD a))) s)
def execMovb (n : Core) (d a : Fin 8) (s : State) : Res := .next (zcOwn n (.movb n d a) (fun c => c.setReg (zB d) (c.rdA (zD a))) s)
def execMovl (n : Core) (d a : Fin 8) (s : State) : Res := .next (zcOwn n (.movl n d a) (fun c => c.setReg (zL d) (c.rdA (zD a))) s)
def execLdpi (n : Core) (d : Fin 8) (imm : BitVec 12) (s : State) : Res :=
  .next (zcOwn n (.ldpi n d imm) (fun c => c.setReg (zP d) imm.toNat) s)
def execLdbi (n : Core) (d : Fin 8) (imm : BitVec 12) (s : State) : Res :=
  .next (zcOwn n (.ldbi n d imm) (fun c => c.setReg (zB d) imm.toNat) s)
def execLdli (n : Core) (d : Fin 8) (imm : BitVec 12) (s : State) : Res :=
  .next (zcOwn n (.ldli n d imm) (fun c => c.setReg (zL d) imm.toNat) s)
def execAddp (n : Core) (d : Fin 8) (imm : BitVec 12) (s : State) : Res :=
  .next (zcOwn n (.addp n d imm) (fun c => c.updPtr d imm.toInt) s)
def execRdp (n : Core) (d a : Fin 8) (s : State) : Res := .next (zcOwn n (.rdp n d a) (fun c => c.wr false (zD d) (c.reg (zP a))) s)
def execRdb (n : Core) (d a : Fin 8) (s : State) : Res := .next (zcOwn n (.rdb n d a) (fun c => c.wr false (zD d) (c.reg (zB a))) s)
def execRdl (n : Core) (d a : Fin 8) (s : State) : Res := .next (zcOwn n (.rdl n d a) (fun c => c.wr false (zD d) (c.reg (zL a))) s)

/-- Memory operands (R300): the pointer's value before its update addresses the word (R288). `e` is what the load met in the core's SRAM
(R15, R314). [DEDUCED: log 56] -/
def execLd (n : Core) (d a : Fin 8) (u : Upd) (s : State) (e : Sram := ⟨0, false⟩) : Res :=
  .next (zcLoad n (.ld n d a u noSram) (fun c => [c.ptr a]) e (fun c => (c.wr true (zD d) (c.memAt (c.ptr a))).upd a u) s)
def execSt (n : Core) (d a : Fin 8) (u : Upd) (s : State) : Res :=
  .next (zcOwn n (.st n d a u) (fun c => (c.store (c.ptr a) (c.rdE (zD d))).upd a u) s)

/-- The address (Ps + sext(imm)) mod 4,096 in the pointer's memory. -/
def ZCore.offAddr (c : ZCore) (p : Nat) (off : BitVec 12) : Nat :=
  (if p < 4 then 0 else 4096) + (((c.reg (zP p) : Int) + off.toInt) % 4096).toNat

def execLdo (n : Core) (d a : Fin 8) (off : BitVec 12) (s : State) : Res :=
  .next (zcLoad n (.ldo n d a off) (fun c => [c.offAddr a off]) noSram (fun c => c.wr true (zD d) (c.memAt (c.offAddr a off))) s)
def execSto (n : Core) (d a : Fin 8) (off : BitVec 12) (s : State) : Res :=
  .next (zcOwn n (.sto n d a off) (fun c => c.store (c.offAddr a off) (c.rdE (zD d))) s)
def execLda (n : Core) (x : Fin 2) (a : Fin 8) (u : Upd) (s : State) : Res :=
  .next (zcLoad n (.lda n x a u) (fun c => [c.ptr a]) noSram (fun c => (c.wr true (zA x) (c.memAt (c.ptr a))).upd a u) s)
def execSta (n : Core) (x : Fin 2) (a : Fin 8) (u : Upd) (s : State) : Res :=
  .next (zcOwn n (.sta n x a u) (fun c => (c.store (c.ptr a) (c.rdE (zA x))).upd a u) s)
def execLdd (n : Core) (d : Fin 8) (y : Bool) (addr : BitVec 12) (s : State) : Res :=
  .next (zcLoad n (.ldd n d y addr) (fun _ => [(if y then 4096 else 0) + addr.toNat]) noSram (fun c => c.wr true (zD d) (c.memAt ((if y then 4096 else 0) + addr.toNat))) s)
def execStd (n : Core) (d : Fin 8) (y : Bool) (addr : BitVec 12) (s : State) : Res :=
  .next (zcOwn n (.std n d y addr) (fun c => c.store ((if y then 4096 else 0) + addr.toNat) (c.rdE (zD d))) s)

/-- IN and OUT (R306): a port that is undefined in the direction faults with IO. -/
def execInp (n : Core) (d : Fin 8) (port : BitVec 8) (s : State) : Res :=
  .next (zcIssue n (.inp n d port) (fun _ => if (portIn n port.toNat s).isNone then some (faultCore n 5) else none)
    (fun c s =>
      match portIn n port.toNat (s.setCore n c) with
      | some (v, s1) => s1.setCore n ((s1.core n).wr true (zD d) v)
      | none => s) s)
def execOut (n : Core) (d : Fin 8) (port : BitVec 8) (s : State) : Res :=
  .next (zcIssue n (.out n d port) (fun c => if (portOut n port.toNat (c.rdE (zD d)) s).isNone then some (faultCore n 5) else none)
    (fun c s => (portOut n port.toNat (c.rdE (zD d)) (s.setCore n c)).getD s) s)

/-- MOVS and MOVSR (R294, R300): a MOVSR to a loop register reaches loop-end decisions three positions later. -/
def execMovs (n : Core) (d : Fin 8) (x : Fin 11) (s : State) : Res :=
  .next (zcOwn n (.movs n d x) (fun c =>
    let v := match (c.loopW.filter fun w => w.2.1 == zX x).getLast? with | some w => w.2.2 | none => c.reg (zX x)
    c.wr false (zD d) v) s)
def execMovsr (n : Core) (d : Fin 8) (x : Fin 11) (s : State) : Res :=
  .next (zcOwn n (.movsr n d x) (fun c =>
    let v := c.rdE (zD d) % 2 ^ zWidth (zX x)
    if x.val < 5 then c.setReg (zX x) v else { c with loopW := c.loopW ++ [(c.pos, zX x, v)] }) s)

/-! ### control format (R295, R297, R301, R305, R313) -/

/-- A condition (R301). -/
def condHolds (s : State) (n : Core) (c : ZCore) (k : Cond) : Bool :=
  match k with
  | .always => true
  | .eq => c.sr 0
  | .ne => !c.sr 0
  | .lt => c.sr 1 != c.sr 3
  | .ge => c.sr 1 == c.sr 3
  | .gt => !c.sr 0 && c.sr 1 == c.sr 3
  | .le => c.sr 0 || c.sr 1 != c.sr 3
  | .lo => c.sr 2
  | .hs => !c.sr 2
  | .vs => c.sr 3
  | .avs => c.sr 4
  | .evq => !(s.core n).evq.isEmpty
  | .segbusy => (s.core n).copy.isSome

/-- Two delay slots follow, then the target (`none`: on in sequence). -/
def ZCore.branch (t : Option Nat) (c : ZCore) : ZCore := { c with delay := 2, target := t, rti := none }

def execNop (n : Core) (s : State) : Res := .next (zcOwn n (.nop n) id s)
def execBr (n : Core) (k : Cond) (addr : BitVec 13) (s : State) : Res :=
  .next (zcOwn n (.br n k addr) (fun c => c.branch (if condHolds s n c k then some addr.toNat else none)) s)
/-- CALL: LR is the address of position i + 3. -/
def execCall (n : Core) (addr : BitVec 13) (s : State) : Res :=
  .next (zcOwn n (.call n addr) (fun c => (c.setReg (zX 3) (((s.core n).reg zPC + 3) % 8192)).branch (some addr.toNat)) s)
def execRet (n : Core) (k : Cond) (s : State) : Res :=
  .next (zcOwn n (.ret n k) (fun c => c.branch (if condHolds s n c k then some (c.reg (zX 3)) else none)) s)
def execJmpr (n : Core) (a : Fin 8) (s : State) : Res :=
  .next (zcOwn n (.jmpr n a) (fun c => c.branch (some (c.rdE (zD a) % 8192))) s)

/-- Start a loop (R297): the free level, or past the body for a count of 0. [DEDUCED: log 55] -/
def ZCore.startLoop (count le : Nat) (c : ZCore) : ZCore :=
  if count = 0 then { c.setReg zPC ((le + 1) % 8192) with cycles := c.cycles + 1 }
  else
    let l := if c.sr 6 then 1 else 0
    let mine := fun (r : Nat) => zX (5 + 3 * l) ≤ r ∧ r ≤ zX (7 + 3 * l)
    let c1 := { c with loopW := c.loopW.filter fun w => !decide (mine w.2.1) }
    (((c1.setReg (zX (5 + 3 * l)) count).setReg (zX (6 + 3 * l)) (c.reg zPC)).setReg (zX (7 + 3 * l)) le).setSr (6 + l) true

/-- Both levels are active: LOOP_OVF. -/
def loopOvf (n : Core) (c : ZCore) : Option (State → State) := if c.sr 6 && c.sr 7 then some (faultCore n 3) else none

def execLoopi (n : Core) (count le : BitVec 13) (s : State) : Res :=
  .next (zcIssue n (.loopi n count le) (loopOvf n) (fun c s => s.setCore n (c.startLoop count.toNat le.toNat)) s)
def execLoopr (n : Core) (a : Fin 8) (le : BitVec 13) (s : State) : Res :=
  .next (zcIssue n (.loopr n a le) (loopOvf n) (fun c s => s.setCore n (c.startLoop (c.rdA (zD a) % 65536) le.toNat)) s)
def execBrklp (n : Core) (s : State) : Res :=
  .next (zcOwn n (.brklp n) (fun c => if c.sr 7 then c.setSr 7 false else c.setSr 6 false) s)
def execRti (n : Core) (s : State) : Res :=
  .next (zcOwn n (.rti n) (fun c => { c.branch (some (c.reg (zX 2))) with rti := some (c.reg (zX 1)) }) s)
/-- WAIT does not stop a core whose request line is asserted (R305). -/
def execWait (n : Core) (s : State) : Res :=
  .next (zcIssue n (.wait n) (fun _ => none) (fun c s =>
    let s1 := s.setCore n c
    if icuRequest s1 (2 + n) then s1 else (s1.setCore n c.drain).setSt (Reg.ZCn_STATUS_STATE.pg n) 2) s)
def execHalt (n : Core) (s : State) : Res :=
  .next (zcIssue n (.halt n) (fun _ => none) (fun c s => haltCore n (s.setCore n c)) s)
def execSetie (n : Core) (v : Bool) (s : State) : Res := .next (zcOwn n (.setie n v) (ZCore.setSr 5 v) s)
def execClrv (n : Core) (s : State) : Res := .next (zcOwn n (.clrv n) (ZCore.setSr 4 false) s)

/-- ILLEGAL_INSTRUCTION (R298): the word at the PC is reserved. -/
def execIllegalInstruction (n : Core) (w : Word) (s : State) : Res :=
  let c := s.core n
  .next (if canIssue s n && Amap.get c.pm (c.reg zPC) 0 == w.toNat && (zcDecode n w.toNat).isNone then faultCore n 1 s else s)

/-! ### events of a core -/

/-- ZC_INTERRUPT (R302). -/
def execZcInterrupt (n : Core) (s : State) : Res :=
  let c := s.core n
  .next (if (s.coreState n == 1 || s.coreState n == 2) && c.sr 5 && c.delay == 0 && icuRequest s (2 + n) then
    let c1 := c.drain
    let sr := c1.reg (zX 0)
    let c2 := ((c1.setReg (zX 2) (c1.reg zPC)).setReg (zX 1) sr).setReg (zX 0) ((sr &&& 0x11F) ||| 0x100)
    (s.setCore n (c2.setReg zPC (s.lv (Reg.ZCn_VECTOR.pg n)))).setSt (Reg.ZCn_STATUS_STATE.pg n) 1
  else s)

/-- BKPT_HIT (R313): the fetch address equals the enabled breakpoint; a core in WAIT fetches when it resumes (R305). -/
def execBkptHit (n : Core) (s : State) : Res :=
  let fetches := s.coreState n == 1 || (s.coreState n == 2 && icuRequest s (2 + n) && !(s.core n).sr 5)
  .next (if fetches = true ∧ s.on (Reg.ZCn_BKPT_EN.pg n) ∧ s.lv (Reg.ZCn_BKPT_ADDR.pg n) = (s.core n).reg zPC then
    (haltCore n s).setSt (Reg.ZCn_STATUS_BKPT_HIT.pg n) 1
  else s)

def execEvqPop (n : Core) (s : State) : Res := .next (evqPopOp n s)
def execSegGo (n : Core) (w : Word) (s : State) : Res := .next (segGoOp n w.toNat s)
/-- SEG_COPY_DONE (R309). -/
def execSegCopyDone (n : Core) (ue : Bool) (s : State) : Res :=
  .next (match (s.core n).copy with | some x => copyEnd n x ue s | none => s)
def execSegRel (n : Core) (id : Word) (s : State) : Res := .next (segRelOp n id.toNat s)
def execVdPost (n : Core) (t : Time) (s : State) : Res := .next (vdPostOp n t (advance t s))
def execTmrCommit (n : Core) (t : Time) (lo : Word) (s : State) : Res := .next (tmrCommitOp n t lo.toNat (advance t s))

/-- ZC_TIMER (R312): once for each committed value. -/
def execZcTimer (n : Core) (t : Time) (s : State) : Res :=
  let s0 := advance t s
  let c := s0.core n
  .next (match c.tmr with
    | some v => if tBefore t v then s0 else raisePriv (2 + n) 3 (s0.setCore n { c with tmr := none })
    | none => s0)

/-- ZC_START (R313): from RESET at ZCn_ENTRY, from HALTED at ZCn_PC. -/
def startCore (n : Core) (s : State) : State :=
  let c := s.core n
  let run := fun (s : State) => (s.setSt (Reg.ZCn_STATUS_STATE.pg n) 1).setSt (Reg.ZCn_STATUS_BKPT_HIT.pg n) 0
  if s.coreState n = 0 then run (s.setCore n (c.setReg zPC (s.lv (Reg.ZCn_ENTRY.pg n))))
  else if s.coreState n = 3 then run s else s
def execZcStart (q : Requester) (n : Core) (s : State) : Res := .next (s.shadowWrite q (0x040 + n) (startCore n))

/-- HALT_REQ (R313): honoured at the next boundary that is no delay slot. -/
def haltReqOp (n : Core) (s : State) : State :=
  let c := s.core n
  if s.coreState n = 1 ∨ s.coreState n = 2 then
    (if c.delay = 0 then haltCore n s else s.setCore n { c with haltReq := true })
  else s
def execHaltReq (q : Requester) (n : Core) (s : State) : Res := .next (s.shadowWrite q (0x040 + n) (haltReqOp n))

/-- ZC_STEP (R313): one instruction issues, and the core halts when it completes. [DEDUCED: log 56] -/
def stepOp (n : Core) (s : State) : State :=
  if s.coreState n = 3 then
    (((s.setCore n { s.core n with stepping := true }).setSt (Reg.ZCn_STATUS_STATE.pg n) 1).setSt (Reg.ZCn_STATUS_BKPT_HIT.pg n) 0)
  else s
def execZcStep (q : Requester) (n : Core) (s : State) : Res := .next (s.shadowWrite q (0x040 + n) (stepOp n))

/-- CLR_FAULT (R313). [DEDUCED: log 56] -/
def clrFaultOp (n : Core) (s : State) : State := if s.coreState n = 4 then haltCore n s else s
def execClrFault (q : Requester) (n : Core) (s : State) : Res := .next (s.shadowWrite q (0x040 + n) (clrFaultOp n))

/-! ### reset, gating, loading (R307, R313, R315, R316) -/

/-- A core reset: registers, queue and window cleared, the memories kept; CORE holds of the queued events and of the
windowed one clear (R307, R313), and the target's stack returns to the base (R452). -/
def resetCore (n : Nat) (s : State) : State :=
  let c := s.core n
  let clear := fun (s : State) (e : Event) =>
    let i := e.segId % 65536
    let g := s.seg i
    if e.segId ≠ 0xFFFFFFFF ∧ g.st ≠ 0 ∧ segId i g = e.segId ∧ e.eflags / 2 % 2 = 0 then releaseSeg i 2 s else s
  let s1 := (c.evq ++ c.window.toList).foldl clear s
  let s2 := s1.setCore n { pm := c.pm, xm := c.xm, ym := c.ym, bad := c.bad }
  let s3 := match c.copy with | some x => settleSeg x.seg s2 | none => s2
  (icuReset (2 + n) s3).setSt (Reg.ZCn_STATUS_STATE.pg n) 0

/-- A word of the window of core `n`, by memory and address, is within the memory (R549). -/
def zcEntry (mem a : Nat) : Bool := if mem = 0 then true else if mem = 3 then zWidth a != 0 else decide (a < 4096)

/-- The window word (R315). -/
def zcWindow (s : State) (n mem a : Nat) : Nat :=
  let c := (s.core n).drain
  if !zcEntry mem a then 0
  else if mem = 0 then Amap.get c.pm a 0 else if mem = 3 then c.reg a
  else if c.bad.contains ((mem - 1) * 4096 + a) then 0 else c.memAt ((mem - 1) * 4096 + a)

/-- A host read of the window meets an uncorrectable word (R314). -/
def zcHostRead (n mem a : Nat) (s : State) : State :=
  let x := (mem - 1) * 4096 + a
  if (mem = 1 ∨ mem = 2) ∧ a < 4096 ∧ (s.core n).bad.contains x = true then memFault n x s else s

/-- The window index after an access. -/
def zcNextIndex (i : Nat) : Nat := i / 65536 % 4 * 65536 + (i + 1) % 8192

/-- A write of ZCn_MEM_DATA_LO (R315). -/
def zcMemWriteOp (q : Requester) (n : Nat) (w : Word) (s : State) : State :=
  let page := 0x040 + n
  let i := s.winIndex q page
  let a := i % 8192
  let mem := i / 65536 % 4
  let st := s.coreState n
  let c := s.core n
  let hi := ((s.staged q (regAddr page 0xC08)).map (·.toNat % 256)).getD (zcWindow s n mem a / 2 ^ 32)
  let v := w.toNat + 2 ^ 32 * hi
  let stopped := st == 0 || st == 3 || st == 4 || (st == 5 && mem == 0)
  let s1 :=
    if !zcEntry mem a then s
    else if mem = 1 ∨ mem = 2 then s.setCore n (c.setMem ((mem - 1) * 4096 + a) v)
    else if !stopped then (s.bump (Reg.ZCn_LOAD_REJECTS.pg n)).raise page 6
    else if mem = 0 then s.setCore n { c with pm := Amap.put a w.toNat c.pm }
    else s.setCore n (c.setReg a v)
  ((if mem = 0 then s1 else s1.unstage q (regAddr page 0xC08))).setWinIndex q page (zcNextIndex i)

/-- ZC_MEM_WRITE (R315). -/
def execZcMemWrite (q : Requester) (n : Core) (w : Word) (s : State) : Res :=
  .next (s.busWrite q (0x040 + n) (zcMemWriteOp q n w))

/-- A field of an image. -/
def imgNum (img : List Byte) (off n : Nat) : Nat := leNat ((img.drop off).take n)

/-- The sections of an image, from byte `off` on (R316): memory, start, words; none where one does not fit. -/
def imgSections : Nat → List Byte → Option (List (Nat × Nat × List Nat))
  | 0, _ => some []
  | k + 1, l =>
    let mem := imgNum l 0 1
    let start := imgNum l 2 2
    let words := imgNum l 4 2
    let per := if mem = 0 then 4 else 5
    let size := (words * per + 3) / 4 * 4
    let room := if mem = 0 then 8192 else 4096
    if 2 < mem ∨ room < start + words ∨ l.length < 8 + size then none
    else (imgSections k (l.drop (8 + size))).map fun r =>
      (mem, start, (List.range words).map fun i => imgNum l (8 + i * per) per) :: r

/-- An image that the steward accepts (R316): its entry, vector and sections. -/
def imgParse (img0 : List Byte) : Option (Nat × Nat × List (Nat × Nat × List Nat)) :=
  let bytes := imgNum img0 0x0C 4
  let img := img0.take bytes
  if imgNum img 0 4 ≠ 0x4D49435A ∨ imgNum img 4 2 ≠ 1 ∨ img.length < 0x20 ∨ img.length ≠ bytes then none
  else if crc32c (img.take 0x1C ++ img.drop 0x20) ≠ imgNum img 0x1C 4 then none
  else (imgSections (imgNum img 6 2) (img.drop 0x20)).map fun s => (imgNum img 8 2 % 8192, imgNum img 0x0A 2 % 8192, s)

/-- Load an image into a core that is in RESET, HALTED or FAULTED (R316); whether it was loaded. [DEDUCED: log 57] -/
def loadImage (n : Nat) (img : List Byte) (s : State) : State × Bool :=
  let st := s.coreState n
  if !(st == 0 || st == 3 || st == 4) then (s, false)
  else match imgParse img with
    | none => (s, false)
    | some (entry, vector, secs) =>
      let c := secs.foldl (fun (c : ZCore) x => x.2.2.zipIdx.foldl (fun (c : ZCore) e =>
        if x.1 = 0 then { c with pm := Amap.put (x.2.1 + e.2) e.1 c.pm }
        else c.setMem ((x.1 - 1) * 4096 + x.2.1 + e.2) e.1) c) (s.core n)
      (((s.setCore n c).setNow (Reg.ZCn_ENTRY.pg n) entry).setNow (Reg.ZCn_VECTOR.pg n) vector, true)

end Sys2Proof.Machine
end

