-- ==== Sys2Proof/Machine/Steward.lean ====
section
/-!
DEFINITION. The steward cores: mailboxes, firmware, watchdogs, management pins (R316, R453 to R471).
-/

namespace Sys2Proof.Machine

/-! ### mailboxes (R460 to R462) -/

/-- The number of a mailbox: a function's, or 32 for the SMBus. -/
def mbKey (f : Option Func) : Nat := (f.map (·.val)).getD 32

/-- Who writes a mailbox's page, and the page (R460). -/
def mbRequester (f : Option Func) : Requester := match f with | some g => .pcie g | none => .smbus
def mbPage (f : Option Func) : Nat := match f with | some g => 0x0C1 + 2 * g.val | none => 0x0A8

/-- A request word. -/
def Mbox.word (m : Mbox) (i : Nat) : Nat := (Amap.get m.req i 0).toNat

/-- A mailbox ignores a write or a doorbell (R460). -/
def mbReject (k : Nat) (s : State) : State := s.setMb k { s.mb k with rejects := min 0xFFFF ((s.mb k).rejects + 1) }

/-- The body lengths that a command allows (R389, R390, R462, R478, R511); none for an unknown command. -/
def mbLenOk (cmd len : Nat) : Option Bool :=
  match cmd with
  | 0x01 | 0x04 | 0x05 => some (len == 0)
  | 0x02 => some (decide (32 ≤ len ∧ len % 16 = 0))
  | 0x03 | 0x33 | 0x40 => some (len == 4)
  | 0x10 | 0x20 | 0x31 => some (len == 16)
  | 0x30 => some (decide (4 ≤ len ∧ len ≤ 1004))
  | 0x32 => some (len == 1)
  | _ => none

/-- A virtual function may use commands 1 to 5 alone (R462). -/
def mbDenied (f : Option Func) (cmd : Nat) : Bool :=
  match f with
  | some g => g.val != 0 && !decide (1 ≤ cmd ∧ cmd ≤ 5)
  | none => false

/-- A command that a mailbox has answered OK or BUSY renews the lease of the entry whose token it carries (R383). [DEDUCED: log 78] -/
def mbRenew (f : Option Func) (s : State) : State :=
  match f with
  | none => s
  | some g =>
    let m := s.mb g.val
    if m.busy then renewLast m.at_ ⟨.mailbox g, BitVec.ofNat 32 (m.word 1), 0, none⟩ s else s

/-- The request of mailbox `f` with code `cmd` is served by `k`, or turned away (R456, R462, R466). [DEDUCED: log 78] -/
def served (f : Option Func) (cmd : Nat) (k : State → State) (s : State) : State :=
  let say := fun (r retry : Nat) => mboxAnswer (mbKey f) { result := r, retry := retry, token := (s.mb (mbKey f)).word 1 }
  if mbDenied f cmd then say 2 0 s
  else if resident s && !(List.contains [0x01, 0x30, 0x31, 0x32] cmd) then say 5 0 s
  else if s.stOn Reg.SYS_STEWARD_LOAD_SHEDDING then mbRenew f (say 1 (retryAfter s) { s with free := s.free + 1 })
  else k s

/-- A command is answered OK, or with another result, and a body. -/
def mbSay (f : Option Func) (result : Nat) (body : List Byte) (s : State) : State :=
  let s1 := mboxAnswer (mbKey f) { result := result, token := (s.mb (mbKey f)).word 1, body := body } s
  if result = 0 then mbRenew f s1 else s1

/-- Requests that no row serves: a subscription command of the SMBus mailbox, which owns no entry (R381) and has no channel (R462); a CAL_RUN of
another procedure (R478); another firmware slot, source of an image or TWIN operation, of which no rule says why it is not carried out. [DEDUCED: log 78] -/
def unserved (f : Option Func) (cmd arg : Nat) (s : State) : Option State :=
  let refuse := some (served f cmd (fun s => mbSay f (1 + Config.mailRefusal s.free % 6) [] { s with free := s.free + 1 }) s)
  match cmd with
  | 0x02 => if f = none then refuse else none
  | 0x03 | 0x04 | 0x05 => if f = none then some (mbSay f 0 (leBytes 1 9 ++ leBytes 3 0) s) else none
  | 0x20 => if 1 ≤ arg ∧ arg ≤ 6 then none else some (served f cmd (mbSay f 0 (leBytes 1 3 ++ leBytes 1 4 ++ leBytes 6 0)) s)
  | 0x31 | 0x32 => if 1 < arg then refuse else none
  | 0x40 => if 3 < arg then refuse else none
  | _ => none

/-- The request is taken (R460): its doorbell is raised; one that no command serves is answered at once (R461, R462). -/
def mbTake (f : Option Func) (s : State) : State :=
  let k := mbKey f
  let m := s.mb k
  let cmd := m.word 0 % 65536
  let len := m.word 0 / 65536
  let s1 := raiseShared (0x300 + k) (s.setMb k { m with busy := true, done := false, answer := none, at_ := s.time })
  if mbDenied f cmd then mboxAnswer k { result := 2, token := m.word 1 } s1
  else match mbLenOk cmd len with
    | none => mboxAnswer k { result := 3, token := m.word 1 } s1
    | some ok =>
      let nsel := m.word 4 / 65536 % 256
      if !ok || (cmd == 2 && len != 32 + 16 * nsel) then mboxAnswer k { result := 4, token := m.word 1 } s1
      else (unserved f cmd (m.word 4 % 256) s1).getD s1

/-- MBOX_GO (R460). [DEDUCED: log 78] -/
def execMboxGo (f : Option Func) (t : Time) (s : State) : Res :=
  .next ((advance t s).busWrite (mbRequester f) (mbPage f) fun s =>
    if (s.mb (mbKey f)).busy then mbReject (mbKey f) s else mbTake f s)

/-- The words of a byte string. -/
def bytesWords (l : List Byte) : Amap Word := (List.range ((l.length + 3) / 4)).map fun i => (i, BitVec.ofNat 32 (leNat ((l.drop (4 * i)).take 4)))

/-- The reply of a mailbox (R461). -/
def mbReply (m : Mbox) (a : Answer) : List Byte :=
  leBytes 2 (m.word 0 % 65536 ||| 0x8000) ++ leBytes 2 a.body.length ++ leBytes 4 a.token ++ leBytes 4 (m.word 2) ++
    leBytes 1 a.result ++ leBytes 1 0 ++ leBytes 2 a.retry ++ a.body

/-- MBOX_DONE (R460): the answer that the steward has made is written. -/
def execMboxDone (f : Option Func) (s : State) : Res :=
  let k := mbKey f
  let m := s.mb k
  .next (match m.busy, m.answer with
    | true, some a =>
      let s1 := s.setMb k { m with rep := bytesWords (mbReply m a), busy := false, done := true, answer := none }
      (match f with
       | some g => signal g.val 0 s1
       | none => s1.raise 0x0A8 20)
    | _, _ => s)

/-- GET_INFO (R462). [DEDUCED: log 78] -/
def execGetInfo (f : Option Func) (s : State) : Res :=
  .next (served f 0x01 (fun s =>
    mbSay f 0 (leBytes 4 (s.st Reg.MGMT_FW_VERSION) ++ leBytes 4 s.flash.svn ++ leBytes 4 0xB0 ++
      (s.flash.serial ++ List.replicate 16 0).take 16 ++ leBytes 2 (freeSubs s)) s) s)

/-- The bytes from `ra` to the end of the segment pool or trace region that holds it, at most `n`; none outside them or where a
code word is uncorrectable. -/
def imageAt (s : State) (ra n : Nat) : List Byte :=
  let in_ := fun (e : Nat) => let r := regionBytes s e; decide (r.1 ≤ ra ∧ ra < r.1 + r.2)
  let room := fun (e : Nat) => let r := regionBytes s e; r.1 + r.2 - ra
  let len := if in_ 3 then min n (room 3) else if in_ 6 then min n (room 6) else 0
  if poisoned s ra len then [] else memRead s ra len

/-- ZC_LOAD (R316, R462): the cores named load one after the other; BAD_STATE where one of them is in another state. [DEDUCED: log 57] -/
def execZcLoad (f : Option Func) (mask : BitVec 64) (ra : Nat) (s : State) : Res :=
  .next (served f 0x10 (fun s =>
    let img := imageAt s ra (leNat (imageAt s (ra + 0x0C) 4))
    let named := (List.range 64).filter fun n => mask.toNat / 2 ^ n % 2 == 1
    let bad := named.any fun n => !(s.coreState n == 0 || s.coreState n == 3 || s.coreState n == 4)
    let r := named.foldl (fun (x : State × Nat) n => let y := loadImage n img x.1; (y.1, x.2 + if y.2 then 2 ^ n else 0)) (s, 0)
    mbSay f (if bad then 5 else 0) (leBytes 8 r.2) r.1) s)

/-! ### firmware (R463 to R467) -/

/-- The code of an image. -/
def fwCode (img : List Byte) : List Byte := (img.drop 256).take (imgNum img 0x10 4)

/-- The VERIFY code of an image (R464); 0 where it is valid. [DEDUCED: log 79] -/
def fwVerify (fl : Flash) (img : List Byte) : Nat :=
  let key := (img.drop 0x38).take 64
  let slot := imgNum img 6 2
  let sig := (img.drop 0x78).take 64
  if img.length < 256 ∨ imgNum img 0 4 ≠ 0x57465850 ∨ imgNum img 4 2 ≠ 1 ∨ 4194048 < imgNum img 0x10 4 then 1
  else if 3 < slot ∨ Amap.find slot fl.keyHash ≠ some (sha256 key) ∨ fl.revoked / 2 ^ slot % 2 = 1 then 2
  else if !ecdsaVerify (beNat (key.take 32), beNat (key.drop 32)) (beNat (sha256 (img.take 0x78))) (beNat (sig.take 32)) (beNat (sig.drop 32)) then 3
  else if (img.drop 0x18).take 32 ≠ sha256 (fwCode img) then 4
  else if imgNum img 8 4 < fl.svn then 5 else 0

/-- The slot that a boot descriptor names (R463); one whose check word is wrong names none. [DESIGN CHOICE: log 6] -/
def preferredSlot (fl : Flash) : Option (Fin 2) :=
  let d := fl.descriptor
  if d.length = 8 ∧ leNat (d.drop 4) = crc32c (d.take 4) ∧ leNat (d.take 4) < 2 then some (Fin.ofNat 2 (leNat (d.take 4))) else none

/-- The flash offset of a firmware slot. [DESIGN CHOICE: log 6] -/
def flashSlot (i : Nat) : Nat := if i = 0 then 0x10000 else 0x410000

/-- FW_CHUNK (R467): bytes staged in the mirror staging region. [DEDUCED: log 78] -/
def execFwChunk (f : Option Func) (off : Nat) (bytes : List Byte) (s : State) : Res :=
  .next (served f 0x30 (fun s =>
    let r := regionBytes s 7
    if r.2 < off + bytes.length then mbSay f 5 [] s else mbSay f 0 [] (memWrite (r.1 + off) bytes s)) s)

/-- FW_INSTALL (R467): the image is checked and written to the slot not running. [DEDUCED: log 78] -/
def execFwInstall (f : Option Func) (fromRa : Bool) (ra len : Nat) (s : State) : Res :=
  .next (served f 0x31 (fun s =>
    let r := regionBytes s 7
    let img := if fromRa then imageAt s ra len
      else if poisoned s r.1 (min len r.2) then [] else memRead s r.1 (min len r.2)
    let v := fwVerify s.flash img
    let slot : Fin 2 := if s.st Reg.MGMT_BOOT_STATUS_SLOT = 0 then 1 else 0
    let body := leBytes 1 slot ++ leBytes 1 v
    if v ≠ 0 then mbSay f 6 body s
    else
      let s1 := { s with flash := { s.flash with slots := s.flash.slots.set slot img } }
      mbSay f 0 body ((s1.emit (.flash (flashSlot slot) img)).raise 0x0A8 18)) s)

/-- FW_SELECT (R467): the boot descriptor names a slot. -/
def execFwSelect (f : Option Func) (slot : Fin 2) (s : State) : Res :=
  .next (served f 0x32 (fun s =>
    let d := leBytes 4 slot ++ leBytes 4 (crc32c (leBytes 4 slot))
    mbSay f 0 [] ({ s with flash := { s.flash with descriptor := d } }.emit (.flash 0 d))) s)

/-- FW_COMMIT_SVN (R467): the OTP counter is raised, at most to the running image's. [DEDUCED: log 78] -/
def execFwCommitSvn (f : Option Func) (svn : Nat) (s : State) : Res :=
  .next (served f 0x33 (fun s =>
    if imgNum s.stew.header 8 4 < svn then mbSay f 6 (leBytes 4 s.flash.svn) s
    else
      let v := max s.flash.svn svn
      mbSay f 0 (leBytes 4 v) ({ s with flash := { s.flash with svn := v } }.setSt Reg.MGMT_FW_SVN v)) s)

/-- CODE_COPY (R466): the code read again from flash is checked. The stewards then leave the resident section, or stay in it. [DEDUCED: log 81] -/
def execCodeCopy (code : List Byte) (s : State) : Res :=
  .next (if !resident s || !s.stOn (Reg.MEMCn_STATUS_READY.pg 0) || s.stOn Reg.MGMT_BOOT_STATUS_COPY_FAIL then s
    else if (s.stew.header.drop 0x18).take 32 = sha256 code then s.setSt Reg.MGMT_BOOT_STATUS_RESIDENT 0
    else s.setSt Reg.MGMT_BOOT_STATUS_COPY_FAIL 1)

/-! ### cores (R453 to R459) -/

/-- The S_UP bit of a steward core (R454). -/
def stewUp (c : Fin 2) : Fld := if c = 0 then Reg.SYS_STEWARD_LOAD_S0_UP else Reg.SYS_STEWARD_LOAD_S1_UP

/-- A steward timer compare is committed (R457, R312). [DEDUCED: log 80] -/
def stewTimerCommit (c : Fin 2) (v : Nat) (s : State) : State :=
  let at_ : Time := BitVec.ofNat 64 v
  if tBefore s.time at_ then { s with stew := { s.stew with timers := Amap.put c.val at_ s.stew.timers } }
  else raisePriv c 0 { s with stew := { s.stew with timers := Amap.del s.stew.timers c.val } }

/-- STEWARD_TIMER (R457): once for each committed value. -/
def execStewardTimer (c : Fin 2) (t : Time) (s : State) : Res :=
  let s0 := advance t s
  .next (match Amap.find c.val s0.stew.timers with
    | some v => if tBefore t v then s0 else raisePriv c 0 { s0 with stew := { s0.stew with timers := Amap.del s0.stew.timers c.val } }
    | none => s0)

/-- A watchdog has passed half its timeout, or has been serviced. -/
def setWarned (c : Fin 2) (b : Bool) (s : State) : State :=
  { s with stew := { s.stew with warned := if b then Amap.put c.val true s.stew.warned else Amap.del s.stew.warned c.val } }

/-- WDT_SERVICE (R459): a steward core services its own watchdog. -/
def execWdtService (q : Requester) (c : Fin 2) (t : Time) (s : State) : Res :=
  .next ((advance t s).shadowWrite q (0x200 + c) (setWarned c false))

/-- WDT_WARNING (R459): half the timeout has passed. [DEDUCED: log 80] -/
def execWdtWarning (c : Fin 2) (s : State) : Res :=
  .next (if s.stOn (stewUp c) then raisePriv c 1 (setWarned c true s) else s)

/-- A core is reset and its firmware restarted (R452, R458). [DEDUCED: log 80] -/
def restartSteward (c : Fin 2) (s : State) : State := icuReset c ((setWarned c false s).setSt (stewUp c) 0)

/-- WDT (R459): the timeout of a warned watchdog has passed. [DEDUCED: log 80] -/
def execWdt (c : Fin 2) (s : State) : Res :=
  .next (if s.stOn (stewUp c) && Amap.get s.stew.warned c.val false then
    ((restartSteward c s).bump Reg.MGMT_WDT_RESETS).raise 0x0A8 16
  else s)

/-- MCHECK (R458). -/
def execMcheck (c : Fin 2) (s : State) : Res :=
  .next (if s.stOn (stewUp c) then
    raisePriv (1 - c.val) 3 (((restartSteward c s).bump Reg.MGMT_MCHECKS).raise 0x0A8 17)
  else s)

/-- STEWARD_RESTART_DONE (R458). -/
def execStewardRestartDone (c : Fin 2) (s : State) : Res := .next (s.setSt (stewUp c) 1)

/-- LOAD_WINDOW (R454, R455): class 3 runs on S1 while S1 is up. Loads are in 0.1 %. [DEDUCED: log 81] -/
def execLoadWindow (load0 load1 : Nat) (s : State) : Res :=
  let l3 := if s.stOn Reg.SYS_STEWARD_LOAD_S1_UP then load1 else load0
  .next ((((s.setSt Reg.SYS_STEWARD_LOAD_S0 (min load0 1000)).setSt Reg.SYS_STEWARD_LOAD_S1 (min load1 1000)).setSt
    Reg.SYS_STEWARD_LOAD_SHEDDING (bit (850 < l3))).raiseIf (850 < load0) 0x0A8 19)

/-! ### pins -/

/-- GPIO_EDGE (R470, R471). [DEDUCED: log 81] -/
def execGpioEdge (p : Fin 16) (rising : Bool) (s : State) : Res :=
  let was := s.st Reg.MGMT_GPIO_IN
  let sel := s.lv Reg.MGMT_GPIO_IRQ / 4 ^ p.val % 4
  let now := if rising then was ||| 2 ^ p.val else was &&& (0xFFFF ^^^ 2 ^ p.val)
  .next ((s.setSt Reg.MGMT_GPIO_IN now).raiseIf (sel == 3 || sel == (if rising then 1 else 2)) 0x0A8 p.val)

/-- UART_RECEIVE (R439, R565): a byte of firmware while the boot ROM receives it, else a character for the stewards. [DEDUCED: log 81] -/
def execUartReceive (b : Byte) (s : State) : Res :=
  .next (if s.mode = 0 ∧ s.st Reg.SYS_STRAPS_BOOT_SEL = 2 then { s with stew := { s.stew with uart := s.stew.uart ++ [b] } }
    else raiseShared 0x322 s)

/-- TWIN_LINK_COMMAND (R439). -/
def execTwinLinkCommand (s : State) : Res := .next (raiseShared 0x321 s)

end Sys2Proof.Machine
end

