-- ==== Sys2Proof/Machine/Almanac.lean ====
section
/-!
DEFINITION. The almanac's user values and the calibration procedures (chapter 18, R472 to R486).
-/

namespace Sys2Proof.Machine

def State.setCal (c : Cal) (s : State) : State := { s with cal := c }

/-- The device mode changes (R54); the converter follows it (R249). -/
def enterMode (m : Nat) (s : State) : State := syncNw none (auxMode (s.setSt Reg.SYS_MODE_STATUS_CUR m))

/-- The device leaves CONFIG: the region table takes effect unless it breaks R353. The first failing entry is reported. -/
def leaveConfig (need : Nat → Bool) (s : State) : Bool × State :=
  match regionError s need with
  | some i => (false, (s.setSt Reg.MEMCn_STATUS_REGION_ERR i).setSt Reg.MEMCn_STATUS_REGION_ERR_V 1)
  | none => (true, syncBufs { (s.setSt Reg.MEMCn_STATUS_REGION_ERR 0).setSt Reg.MEMCn_STATUS_REGION_ERR_V 0 with regions := s.regionShadow })

/-! ### user values (R472 to R475, R486) -/

/-- The item has a user layer (R473, R486). -/
def almUserItem (i : Nat) : Bool := decide (i < 0x500) && almKind i != 3 && !almFactoryOnly i

/-- The items that a procedure sets (R476), for its lanes and, for AUX, its definition's GAIN code and reference. -/
def calSets (s : State) (proc : Nat) (lanes : List Lane) (r i : Nat) : Bool :=
  let lane : Lane := if i < 0x200 then 0 else 1
  let j := i % 0x200
  let mine := decide (i < 0x400) && lanes.contains lane
  match proc with
  | 1 => mine && decide (j < 0x030)
  | 2 => mine && decide (0x030 ≤ j ∧ j < 0x034)
  | 3 => mine && decide (0x080 ≤ j ∧ j < 0x1E0) && (j - 0x080) / 44 % 4 != 1
  | 4 => decide (0x400 ≤ i ∧ i < 0x480)
  | 5 =>
    let g := s.lv (Reg.AUX_Rr_CFG_GAIN.ix r)
    let ref := s.lv (Reg.AUX_Rr_CFG_REF.ix r)
    i == 0x4A8 + g || i == 0x4AB + 2 * g + ref
  | _ => false

/-- The user value under which R472 yields the effective value `e`. -/
def calUser (factory : Amap Word) (i : Nat) (e : Int) : Word :=
  let f := sx 32 (Amap.get factory i 0).toNat
  match almKind i with
  | 1 =>
    let u := divRound ((e - f) * 2 ^ 20) (2 ^ 20 + f).toNat
    BitVec.ofInt 32 (([u, u - 1, u + 1].find? fun v => almCombine i f v == e).getD u)
  | 2 => BitVec.ofInt 32 (sx 16 (ux 16 (e - f)))
  | _ => BitVec.ofInt 32 (e - f)

/-- ALM_USER (R475, R482, R486): the shadow user value, or a rejection; the index advances. -/
def execAlmUserWrite (q : Requester) (w : Word) (s : State) : Res :=
  .next (s.busWrite q 0x014 fun s =>
    let i := s.winIndex q 0x014 % 4096
    let s1 :=
      if !almUserItem i then s
      else if s.stOn Reg.ALM_STATUS_CAL_BUSY && q != .s0 && q != .s1 && calSets s (s.st Reg.ALM_STATUS_PROC) s.cal.lanes s.cal.param i then
        (s.bump Reg.ALM_REJECTS).raise 0x014 4
      else ({ s with alm := { s.alm with user := Amap.put i w s.alm.user } }).touch 0x014
    s1.setWinIndex q 0x014 ((i + 1) % 4096))

/-! ### SUSPECT (R483) -/

/-- CAL_STATE becomes SUSPECT for a cause: 1 DIP, 2 CHECK. -/
def enterSuspect (cause : Nat) (s : State) : State :=
  if s.stOn Reg.ALM_STATUS_CAL_STATE then s
  else causeOn 7 ((((s.setSt Reg.ALM_STATUS_CAL_STATE 1).setSt Reg.ALM_STATUS_SUSPECT_CAUSE cause).bump Reg.ALM_SUSPECT_ENTRIES).raise 0x014 2)

/-- CAL_STATE returns to VALID. -/
def leaveSuspect (s : State) : State :=
  if s.stOn Reg.ALM_STATUS_CAL_STATE then
    causeOff 7 (((s.setSt Reg.ALM_STATUS_CAL_STATE 0).setSt Reg.ALM_STATUS_SUSPECT_CAUSE 0).raise 0x014 3)
  else s

/-! ### comparison (R477) -/

/-- The difference of an item's runs, wrapped for a PHASE item, and their mean, ties upward. -/
def pairDiff (p : CalPair) : Int := if almKind p.item = 2 then sx 16 (ux 16 (p.run1 - p.run2)) else p.run1 - p.run2
def pairMean (p : CalPair) : Int :=
  let m := divRound (2 * p.run2 + pairDiff p) 2
  if almKind p.item = 2 then sx 16 (ux 16 m) else m

/-- The tolerance of a procedure for an item. -/
def calTol (s : State) (proc i : Nat) : Nat :=
  s.lv ((if almKind i = 2 then Reg.ALM_TOLp_PHASE else Reg.ALM_TOLp_VAL).ix (proc - 1))

/-- The item's runs agree. [DEDUCED: log 84] -/
def pairAgrees (s : State) (proc : Nat) (p : CalPair) : Bool := decide ((pairDiff p).natAbs ≤ calTol s proc p.item)

/-- Two runs disagree: no user value changes. [DEDUCED: log 84] -/
def disagree (s : State) : State := (s.bump Reg.ALM_DISAGREES).raise 0x014 1

/-- The means become the effective values, by an ALM commit of the device. -/
def applyPairs (pairs : List CalPair) (s : State) : State :=
  let user := pairs.foldl (fun m p => Amap.put p.item (calUser s.alm.factory p.item (pairMean p)) m) s.alm.user
  deviceCommit 0x014 (({ s with alm := { s.alm with user := user } }).touch 0x014)

/-- A signed quality figure as a register. -/
def setFig (f : Fld) (v : Int) (s : State) : State := s.setStI f (satS f.width v)

/-- The largest difference of the RANGE phase items of a lane in 0.01 mrad (R485): 2π/2¹⁶ is 9.587379924 of them. [DEDUCED: log 85] -/
def rangePhase (n : Lane) (pairs : List CalPair) : Nat :=
  let mine := pairs.filter fun p => almKind p.item == 2 && p.item / 0x200 == n.val
  let d := mine.foldl (fun m p => max m (pairDiff p).natAbs) 0
  (divRound ((d * 9587379924 : Nat) : Int) 1000000000).toNat

/-- The quality figures of a procedure (R485). [DEDUCED: log 85] -/
def setFigures (proc : Nat) (lanes : List Lane) (pairs : List CalPair) (g : CalFigures) (s : State) : State :=
  match proc with
  | 1 => lanes.foldl (fun s (n : Lane) => setFig (Reg.ALM_Q_SPUR_Ln.ix n) (if n = 0 then g.spur0 else g.spur1) s) s
  | 2 => lanes.foldl (fun s (n : Lane) => s.setSt (Reg.ALM_Q_IMAGE_Ln.ix n) (min (if n = 0 then g.image0 else g.image1) 0xFFFF)) s
  | 3 => lanes.foldl (fun s (n : Lane) => s.setSt (Reg.ALM_Q_RANGE_PH_Ln.ix n) (min (rangePhase n pairs) 0xFFFF)) s
  | 4 => s.setSt Reg.ALM_Q_TDC_DNL (min g.dnl 0xFFFF)
  | _ => s

/-! ### procedures (R478 to R482) -/

/-- The injection of a lane is taken over: MODE, SRC 2 and ISOLATE. [DEDUCED: log 31] -/
def takeInj (n : Lane) (mode iso : Nat) (s : State) : State :=
  let was := s.lv (Reg.RXFn_INJ_CFG_MODE.pg n) + 4 * s.lv (Reg.RXFn_INJ_CFG_SRC.pg n) + 16 * s.lv (Reg.RXFn_INJ_CFG_ISOLATE.pg n)
  syncInj n s.time (((({ s with cal := { s.cal with inj := Amap.put n.val was s.cal.inj } }.setLive (Reg.RXFn_INJ_CFG_MODE.pg n) mode).setLive
    (Reg.RXFn_INJ_CFG_SRC.pg n) 2).setLive (Reg.RXFn_INJ_CFG_ISOLATE.pg n) iso).setSt (Reg.RXFn_STATUS_INJ_ACTIVE.pg n) (bit (mode == 1)))

/-- The injection of a lane is as it was. [DEDUCED: log 31] -/
def restoreInj (n : Lane) (s : State) : State :=
  match Amap.find n.val s.cal.inj with
  | none => s
  | some w =>
    syncInj n s.time (((({ s with cal := { s.cal with inj := Amap.del s.cal.inj n.val } }.setLive (Reg.RXFn_INJ_CFG_MODE.pg n) (w % 4)).setLive
      (Reg.RXFn_INJ_CFG_SRC.pg n) (w / 4 % 4)).setLive (Reg.RXFn_INJ_CFG_ISOLATE.pg n) (w / 16)).setSt
      (Reg.RXFn_STATUS_INJ_ACTIVE.pg n) (bit (w % 4 == 1)))

/-- Run 1 of the main path begins: CONTINUOUS injection, isolated, range 1 first (R479). -/
def startRun1 (n : Lane) (s : State) : State :=
  let s1 := takeInj n 1 1 { s with cal := { s.cal with stage := 2, range := s.range n, runAt := if s.cal.back = 1 then s.time + nsT 20000 else s.time } }
  s1.setSt (Reg.RXFn_STATUS_RANGE_CUR.pg n) 1

/-- The measurement of a lane is over: injection off, the range restored (R479). -/
def endRuns (n : Lane) (s : State) : State := (restoreInj n s).setSt (Reg.RXFn_STATUS_RANGE_CUR.pg n) s.cal.range

/-- A procedure ends (R478): its result, and the mode from which it was called. [DEDUCED: log 84] -/
def endProc (outcome cause : Nat) (s : State) : State :=
  let proc := s.st Reg.ALM_STATUS_PROC
  let s0 := if s.cal.squeeze then s.cal.lanes.foldl (fun s n => restoreInj n s) s else s
  let s1 := ((s0.setSt Reg.ALM_CAL_RESULT_OUTCOME outcome).setSt Reg.ALM_CAL_RESULT_CAUSE cause).setSt Reg.ALM_CAL_RESULT_PROC proc
  let s2 := (((s1.setSt Reg.ALM_STATUS_CAL_BUSY 0).setSt Reg.ALM_STATUS_PROC 0).setSt Reg.ALM_STATUS_LANE 0).raise 0x014 0
  let s3 := { s2 with cal := { s2.cal with lanes := [], todo := [], stage := 0, squeeze := false } }
  if s.mode = 4 then enterMode s.cal.back s3 else s3

/-- A procedure is ended before its time (R482): 1 ABORT, 2 DIP, 3 TIMEOUT, 4 LANE_STOP. -/
def stopProc (cause : Nat) (s : State) : State :=
  if !s.stOn Reg.ALM_STATUS_CAL_BUSY then s
  else
    let c := s.cal
    let s1 := match c.squeeze, c.todo with
      | false, n :: _ => if c.stage = 2 ∨ c.stage = 3 then endRuns n s else s
      | _, _ => s
    let held := [(0 : Lane), 1].filter fun n => (s.lanes.get n).withheld
    endProc 2 cause { s1 with cal := { s1.cal with resume := held } }

/-- A lane that a procedure names stops (R482). -/
def calLaneStop (n : Lane) (s : State) : State := if s.cal.lanes.contains n then stopProc 4 s else s

/-- The next lane of a main-path RANGE, or the procedure's end. -/
def nextLane (s : State) : State :=
  match s.cal.todo.drop 1 with
  | [] => endProc (bit s.cal.disagreed) 0 s
  | n :: r =>
    let s1 := ({ s with cal := { s.cal with todo := n :: r, stage := 0 } }).setSt Reg.ALM_STATUS_LANE n.val
    if s.cal.back = 3 then s1 else startRun1 n s1

/-- A procedure begins. -/
def beginProc (proc : Nat) (squeeze : Bool) (lanes : List Lane) (param step : Nat) (s : State) : State :=
  let c : Cal := { s.cal with
    squeeze := squeeze, lanes := lanes, todo := lanes, stage := 0, at_ := s.time, left := 0, back := s.mode, param := param, step := step
    windows := [], acc := [], disagreed := false, bath := [] }
  let s1 := (((s.setCal c).setSt Reg.ALM_STATUS_CAL_BUSY 1).setSt Reg.ALM_STATUS_PROC proc).setSt Reg.ALM_STATUS_LANE
    ((lanes.head?.map (·.val)).getD 0)
  let s2 := s1.setSt Reg.ALM_CAL_PROGRESS 0
  if proc = 6 ∧ step = 2 then s2 else s2.setSt Reg.ALM_STATUS_STEP1_HELD 0

/-- A main-path RANGE begins (R479). In CONFIG it times itself. -/
def beginMain (lanes : List Lane) (s : State) : State :=
  let s1 := enterMode 4 (beginProc 3 false lanes 0 0 s)
  match lanes with
  | n :: _ => if s.mode = 1 then startRun1 n s1 else s1
  | [] => s1

/-- The lanes of a LANES field. -/
def lanesOf (w : Nat) : List Lane := [(0 : Lane), 1].filter fun n => w / 2 ^ n.val % 2 == 1

/-- A lane may be calibrated on the main path: OFF in CONFIG, or RUNNING in RUN (R478). -/
def mainLane (s : State) (n : Lane) : Bool := (s.mode == 1 && s.laneState n == 0) || (s.mode == 3 && s.laneState n == 2)

/-- Why a CAL_RUN is refused (R478): 1 running, 2 mode or lane state, 3 PATH, 4 parameter; 0 where it is not. [DEDUCED: log 83] -/
def calRefusal (s : State) (proc path : Nat) (lanes : List Lane) (param : Bool) : Nat :=
  if s.stOn Reg.ALM_STATUS_CAL_BUSY then 1
  else if 1 < path ∨ (path = 0 ∧ proc ≠ 3) then 3
  else if path = 0 ∧ !(lanes.all (mainLane s) && (s.mode == 1 || s.mode == 3)) then 2
  else if path = 1 ∧ !(s.mode == 3 && lanes.all fun n => s.laneState n == 2 && (proc == 6 || usesSlow s.live n)) then 2
  else if !param then 4 else 0

/-- The answer to a CAL_RUN that is refused (R478). [DEDUCED: log 83] -/
def sayRefused (f : Option Func) (cause : Nat) : State → State := mbSay f 0 (leBytes 1 3 ++ leBytes 1 cause ++ leBytes 6 0)

/-- CAL_RUN (R478): started or refused, and answered. -/
def calRun (f : Option Func) (proc path : Nat) (lanes : List Lane) (param : Bool) (begin_ : State → State) (s : State) : State :=
  served f 0x20 (fun s =>
    match calRefusal s proc path lanes param with
    | 0 =>
      let body := leBytes 1 5 ++ leBytes 3 0 ++ leBytes 4 (Config.calDuration s.free).toNat
      begin_ (mbSay f 0 body { s with free := s.free + 1 })
    | c => sayRefused f c s) s

/-- CAL_ADC_ILV (R476). -/
def execCalAdcIlv (f : Option Func) (lanes : Fin 4) (path : Nat) (s : State) : Res :=
  let l := lanesOf lanes
  .next (calRun f 1 path l (!l.isEmpty) (beginProc 1 true l 0 0) s)

/-- CAL_IQ (R476). -/
def execCalIq (f : Option Func) (lanes : Fin 4) (path : Nat) (s : State) : Res :=
  let l := lanesOf lanes
  .next (calRun f 2 path l (!l.isEmpty) (beginProc 2 true l 0 0) s)

/-- A main-path RANGE by CAL_RUN (R478, R479). From CONFIG the region table takes effect first, and a table that breaks R353 refuses
the transition: the mode is not allowed. [DEDUCED: log 83] -/
def calMain (f : Option Func) (l : List Lane) (s : State) : State :=
  if s.mode ≠ 1 then beginMain l s
  else
    let r := leaveConfig (fun _ => false) s
    if r.1 then beginMain l r.2 else sayRefused f 2 (refuse 3 8 r.2)

/-- CAL_RANGE (R479 to R481): on the main path, or squeezed by DUSK injection. [DEDUCED: log 83] -/
def execCalRange (f : Option Func) (lanes : Fin 4) (path : Nat) (t : Time) (s : State) : Res :=
  let l := lanesOf lanes
  .next (calRun f 3 path l (!l.isEmpty)
    (fun s => if path = 0 then calMain f l s
      else l.foldl (fun s n => takeInj n 2 (s.lv (Reg.RXFn_INJ_CFG_ISOLATE.pg n)) s) (beginProc 3 true l 0 0 s))
    (advance t s))

/-- CAL_TDC (R476). -/
def execCalTdc (f : Option Func) (path : Nat) (s : State) : Res := .next (calRun f 4 path [] true (beginProc 4 true [] 0 0) s)

/-- CAL_AUX (R476). -/
def execCalAux (f : Option Func) (path : Nat) (r : Nat) (s : State) : Res :=
  .next (calRun f 5 path [] (decide (r < 8)) (beginProc 5 true [] r 0) s)

/-- The present temperature of a reference section in mK, from its auxiliary definition's latest result. [DEDUCED: log 85] -/
def bathTemp (s : State) (n : Lane) (j : Nat) : Int :=
  s.stS (Reg.AUX_RESr_VALUE.ix (s.lv ((Reg.DTS_Ln_REFj_AUX.ix n).ix2 j)))

/-- CAL_DTS_BATH (R484). -/
def execCalDtsBath (f : Option Func) (step : Nat) (lane : Lane) (j : Fin 2) (path : Nat) (s : State) : Res :=
  let ok := step = 1 ∨ (step = 2 ∧ s.stOn Reg.ALM_STATUS_STEP1_HELD = true ∧ 10000 ≤ (bathTemp s lane j - s.cal.held.2).natAbs)
  .next (calRun f 6 path [lane] (decide ok) (beginProc 6 true [lane] (lane.val + 2 * j.val) step) s)

/-- CAL_RUN2_START (R479). -/
def execCalRun2Start (t : Time) (s : State) : Res :=
  let s0 := advance t s
  .next (match s0.cal.todo with
    | n :: _ =>
      if s0.cal.stage = 2 then
        ({ s0 with cal := { s0.cal with stage := 3, runAt := s0.time } }.setSt (Reg.RXFn_STATUS_RANGE_CUR.pg n) 1).setSt Reg.ALM_CAL_PROGRESS 500
      else s0
    | [] => s0)

/-- The pairs of the items that the procedure sets are compared and applied or rejected (R477); whether they disagree. [DEDUCED: log 84] -/
def compareRuns (proc : Nat) (lanes : List Lane) (pairs : List CalPair) (g : CalFigures) (s : State) : State × Bool :=
  let mine := pairs.filter fun p => calSets s proc lanes s.cal.param p.item
  let s1 := setFigures proc lanes mine g s
  if mine.all (pairAgrees s proc) then (applyPairs mine s1, false) else (disagree s1, true)

/-- A step of the bath ends (R484). [DEDUCED: log 84, 85] -/
def bathDone (s : State) : State :=
  match s.cal.bath with
  | [(r1, _), (r2, t)] =>
    if s.lv (Reg.ALM_TOLp_VAL.ix 5) < (r1 - r2).natAbs then endProc 1 0 (disagree s)
    else
      let r := divRound (r1 + r2) 2
      if s.cal.step = 1 then
        endProc 4 0 ({ s with cal := { s.cal with held := (r, t) } }.setSt Reg.ALM_STATUS_STEP1_HELD 1)
      else
        let h := s.cal.held
        -- γ = (ln R̄₁ − ln R̄₂) / (1/T₂ − 1/T₁), ln in 2⁻²⁰
        let num := (h.1 - r) * h.2 * t
        let den := (h.2 - t) * 2 ^ 20
        let v := if 0 ≤ den then divRound num den.toNat else divRound (-num) (-den).toNat
        let gamma := satU 20 v
        endProc 0 0 (deviceCommit 0x030 (({ s with shadow := RegFile.set s.shadow Reg.DTS_GAMMA gamma }).touch 0x030))
  | _ => s

/-- The lanes of a squeezed RANGE have their integration (R480). -/
def squeezeComplete (s : State) : Bool :=
  s.cal.lanes.all fun n => (List.range 8).all fun i => decide (22500000 ≤ Amap.get s.cal.acc (8 * n.val + i) 0)

/-- CAL_DONE (R477 to R481, R484). -/
def execCalDone (pairs : List CalPair) (fig : CalFigures) (s : State) : Res :=
  let c := s.cal
  .next (match s.st Reg.ALM_STATUS_PROC, c.squeeze, c.todo with
    | 0, _, _ => s
    | 6, _, _ => bathDone s
    | 3, false, n :: _ =>
      if c.stage ≠ 3 then s
      else
        let r := compareRuns 3 [n] pairs fig (endRuns n s)
        let s1 := { r.1 with cal := { r.1.cal with stage := 4, disagreed := c.disagreed || r.2 } }.setSt Reg.ALM_CAL_PROGRESS 1000
        if c.back = 3 then s1 else nextLane s1
    | 3, true, _ =>
      if !squeezeComplete s then s
      else let r := compareRuns 3 c.lanes pairs fig s; endProc (bit r.2) 0 r.1
    | p, _, _ =>
      let r := compareRuns p c.lanes pairs fig s
      endProc (bit r.2) 0 (r.1.setSt Reg.ALM_CAL_PROGRESS 1000))

/-- What the window of lane `n`'s present frame integrates: its length less the 200 ns after the switch (R480); nothing in a window that R137
gives no injection. -/
def squeezeNs (s : State) (n : Lane) : Nat :=
  let w := duskWindow s n
  let ns := (tDiff w.2 w.1).toNat / duPerNs
  if ns < 1000 then 0 else ns - 200

/-- SQUEEZE_WINDOW (R480, R481): the window of lane `n`'s present frame, once, at its end; windows cycle through the ranges; run 2 begins when
run 1 has its 22.5 ms of each. [DEDUCED: log 84] -/
def execSqueezeWindow (n : Lane) (t : Time) (s0 : State) : Res :=
  let s := advance t s0
  let ns := squeezeNs s0 n
  let w := duskWindow s0 n
  .next (if !squeezing s0 n ∨ s0.laneState n ≠ 2 ∨ (s0.dasMode n = 1 ∧ !(s0.lanes.get n).withheld) ∨ ns = 0 ∨ !tBefore s0.time w.2 ∨ !s.reached w.2 then s
    else
      let c := s.cal
      let w := Amap.get c.windows n.val 0
      let got := fun (i : Nat) => Amap.get c.acc (8 * n.val + i) 0
      let run := if (List.range 4).all fun i => decide (22500000 ≤ got i) then 1 else 0
      let k := 4 * run + w % 4
      let c1 := { c with windows := Amap.put n.val (w + 1) c.windows, acc := Amap.put (8 * n.val + k) (got k + ns) c.acc }
      let sum := c1.acc.foldl (fun a e => a + min e.2 22500000) 0
      (s.setCal c1).setSt Reg.ALM_CAL_PROGRESS (min 1000 (sum * 1000 / (c.lanes.length * 8 * 22500000))))

/-- SQUEEZE_TIMEOUT (R482). -/
def execSqueezeTimeout (s : State) : Res :=
  .next (if s.st Reg.ALM_STATUS_PROC = 3 ∧ s.cal.squeeze = true then stopProc 3 s else s)

/-- CAL_ABORT (R482). -/
def execCalAbort (q : Requester) (s : State) : Res := .next (s.shadowWrite q 0x014 (stopProc 1))

/-- BG_CHECK (R483): a cycle that began at `began` ends at `t`. [DEDUCED: log 84] -/
def execBgCheck (began t : Time) (pairs : List CalPair) (fig : CalFigures) (s : State) : Res :=
  let s0 := advance t s
  .next (if s0.mode ≠ 3 ∨ !s0.on Reg.ALM_BG_CFG_EN ∨ s0.stOn Reg.ALM_STATUS_CAL_BUSY then s0
    else
      let lanes := [(0 : Lane), 1].filter fun n => s0.laneState n == 2 && usesSlow s0.live n
      let procOf := fun (p : CalPair) => if p.item < 0x400 then (if p.item % 0x200 < 0x030 then 1 else 2) else 4
      let mine := pairs.filter fun p => calSets s0 (procOf p) lanes 0 p.item
      let inForce := fun (p : CalPair) => almVal s0.alm.factory s0.alm.eff p.item
      let out := mine.filter fun p => !decide ((pairMean p - inForce p).natAbs ≤ calTol s0 (procOf p) p.item)
      let s1 := [1, 2, 4].foldl (fun s k => setFigures k lanes mine fig s) s0
      let agree := mine.all fun p => pairAgrees s0 (procOf p) p
      let s2 := if !agree then disagree s1 else if out.isEmpty then s1 else applyPairs out s1
      if !out.isEmpty then enterSuspect 2 s2
      else if s2.st Reg.SYS_SUPPLY_BELOW = 0 ∧ (s2.cal.railsBack.map fun r => !tBefore began r).getD true = true then leaveSuspect s2
      else s2)

/-- Launches of a lane resume after the main path, or an abort (R479, R482): a fresh dwell, and every pair restarts. [DEDUCED: log 84] -/
def resumeLane (n : Lane) (s : State) : State :=
  let s1 := { s with
    lanes := s.lanes.set n { s.lanes.get n with withheld := false }
    cal := { s.cal with resume := s.cal.resume.filter (· != n) } }
  ((s1.setRxf n { s1.rxf.get n with dwell := 64 }).setSt (Reg.RXFn_STATUS_ARC_DWELL.pg n) 1).setPhz n
    { s1.phz.get n with due := List.range 8 }

/-- What a lane's tick at `t` means to a calibration (R479, R481, R482); `frame` is the lane frame that it starts. -/
def calTick (n : Lane) (t : Time) (frame : Nat) (s : State) : State :=
  let c := s.cal
  let withhold := fun (b : Bool) (s : State) => { s with lanes := s.lanes.set n { s.lanes.get n with withheld := b } }
  if c.resume.contains n then resumeLane n s
  else if s.st Reg.ALM_STATUS_PROC ≠ 3 then (if (s.lanes.get n).withheld then withhold false s else s)
  else if c.squeeze then
    if c.lanes.contains n ∧ s.dasMode n = 1 ∧ 2 ≤ (slotsOf s.live n).length then withhold (frame % 4096 == 4095) s else s
  else if c.todo.head? ≠ some n ∨ c.back ≠ 3 then s
  else match c.stage with
    | 0 => if 20000 * duPerNs ≤ tDiff t c.at_ then withhold true { s with cal := { c with stage := 1 } } else s
    | 1 =>
      let s1 := startRun1 n s
      { s1 with cal := { s1.cal with left := (180000000 + s.lanePeriod n - 1) / s.lanePeriod n } }
    | k =>
      if c.left ≤ 1 ∧ k = 4 then nextLane (resumeLane n s) else { s with cal := { c with left := c.left - 1 } }

/-- The keys of a lane's requests in SYS_LANE_CTRL. -/
def restartBit (n : Lane) : Fld := if n = 0 then Reg.SYS_LANE_CTRL_RESTART_L0 else Reg.SYS_LANE_CTRL_RESTART_L1
def stopBit (n : Lane) : Fld := if n = 0 then Reg.SYS_LANE_CTRL_STOP_L0 else Reg.SYS_LANE_CTRL_STOP_L1

/-- A lane restart is pending or under way (R48). [DEDUCED: log 24] -/
def restartPending (s : State) : Bool :=
  [(0 : Lane), 1].any fun n => s.stOn (restartBit n) || (s.lanes.get n).drain == .restart || s.laneState n == 1

/-- A main-path RANGE by a write of SYS_MODE.DEV = 0x4 (R47, R478). -/
def modeCalibrate (s : State) : State :=
  let l := lanesOf (s.lv Reg.ALM_CAL_REQ_LANES)
  if !(s.mode == 1 || s.mode == 3) || l.isEmpty || !l.all (mainLane s) then refuse 1 0 s
  else if s.stOn Reg.ALM_STATUS_CAL_BUSY || restartPending s || s.merid.leaving.isSome then refuse 5 0 s
  else if s.mode = 1 then
    let r := leaveConfig (fun _ => false) s
    if r.1 then beginMain l (refuse 0 0 r.2) else refuse 3 8 r.2
  else beginMain l (refuse 0 0 s)

/-- MODE_CALIBRATE (R47, R478). -/
def execModeCalibrate (q : Requester) (t : Time) (s : State) : Res :=
  .next ((advance t s).shadowWrite q 0x010 fun s => modeCalibrate (s.setNow Reg.SYS_MODE_DEV 4))

end Sys2Proof.Machine
end

