-- ==== Sys2Proof/Machine/Modes.lean ====
section
/-!
DEFINITION. Device modes, lane restart and stop, and the broadcast apply (chapter 2, R36, R41 to R52).
-/

namespace Sys2Proof.Machine

/-! ### lanes -/

/-- A lane's state changes (R46). -/
def setLaneState (n : Lane) (v : Nat) (s : State) : State := s.setSt (laneStateF n) v

def setLane (n : Lane) (r : LaneRun) (s : State) : State := { s with lanes := s.lanes.set n r }

/-- The RESTART fields that take effect when lanes `ls` restart, and with `dev` when the device enters RUN (R7). -/
def restartField (dev : Bool) (ls : List Lane) (k : Nat) : Bool :=
  match fieldOfKey k with
  | some f => f.eff == .restart && restartsWith dev ls f
  | none => false

/-- They take effect, with BANK as its POLICY says (R200); CHIRP_RATE follows the slot tables of the lanes (R93). MEMCn_CFG and MEMCn_TRAIN, which also apply at the next training
(R369), are among the device-wide ones. [DESIGN CHOICE: log 115] -/
def takeRestart (dev : Bool) (ls : List Lane) (s : State) : State :=
  let take := fun (k : Nat) => restartField dev ls k || ls.any fun n => bankTaken s n k
  ls.foldl (fun s n => syncChirp n s) (State.when dev syncExcluded { s with live := copyFields take s.shadow s.live })

/-- The lane's blocks start with its RESTART fields (R51); its zones join the table that is evaluated once it starts (R264). [DEDUCED: log 23] -/
def startLane (n : Lane) (s : State) : State :=
  let s1 := startCapt n (startSlow n (startPhz n (startRange n (startShot n s))))
  let l := s1.shots.get n
  let s2 := { s1 with
    shots := s1.shots.set n { l with lastDark := none, traced := [] }
    tdc := { s1.tdc with launch := s1.tdc.launch.set n { (s1.tdc.launch.get n) with waits := [], valid := [] } } }
  startZone n ((setLaneState n 1 (setLane n {} s2)).setStI (if n = 0 then Reg.MERID_DUSK_L0 else Reg.MERID_DUSK_L1)
    (duskNs s2.live n (s2.lanePeriod n)))

/-- The products formed by a lane. -/
def laneProducts : List Nat := [0x01, 0x02, 0x03, 0x04, 0x05, 0x06, 0x08, 0x09, 0x0A, 0x0E]

/-- The lane's records close and its blocks stop (R50, R51), a trace capture with them (R164, R167). -/
def haltLane (n : Lane) (s : State) : State :=
  (closeLane n laneProducts (stopRaman n (stopZone n s))).setSt (Reg.SHOTn_STATUS_TRACE_ACTIVE.pg n) 0

/-- The lane is OFF. -/
def laneOff (n : Lane) (s : State) : State := setLaneState n 0 (setLane n {} (haltLane n s))

/-- A lane's requests clear. -/
def clearRequests (n : Lane) (s : State) : State :=
  let s1 := { s with tickQ := s.tickQ.filter fun (w : TickWrite) => w.key != (restartBit n).key && w.key != (stopBit n).key }
  (s1.setSt (restartBit n) 0).setSt (stopBit n) 0

/-- A request for a lane (R51, R52): outside RUN and CALIBRATE it is ignored, and a restart of a lane that drains or starts is. -/
def laneRequest (stop : Bool) (n : Lane) (s : State) : State :=
  let f := if stop then stopBit n else restartBit n
  let st := s.laneState n
  if (s.mode ≠ 3 ∧ s.mode ≠ 4) ∨ (!stop ∧ (st = 1 ∨ st = 3)) then s
  else
    let w : TickWrite := { at_ := s.time, key := f.key, value := 1 }
    { s with tickQ := s.tickQ ++ [w] }.setSt f 1

/-- RESTART_LANE (R51). -/
def execRestartLane (q : Requester) (t : Time) (n : Lane) (s : State) : Res :=
  .next ((advance t s).shadowWrite q 0x010 (laneRequest false n))

/-- STOP_LANE (R52). -/
def execStopLane (q : Requester) (t : Time) (n : Lane) (s : State) : Res :=
  .next ((advance t s).shadowWrite q 0x010 (laneRequest true n))

/-! ### entry to RUN and STANDBY (R47 to R49, R495) -/

/-- The lanes that a configuration runs. -/
def activeLanes (c : RegFile) : List Lane := [(0 : Lane), 1].filter fun n => cfgMode c n != 0

/-- The size of the mirror staging region falls short of 64 MB (R495). -/
def stagingShort (s : State) : Bool := decide ((Amap.get s.regionShadow 7 (0, 0)).2 < 64)

/-- The first failing region entry, on entry to RUN or STANDBY (R353, R495). -/
def entryRegion (s : State) (standby : Bool) : Option Nat :=
  let c := nextCfg s true [0, 1]
  (regionError s (regionNeed s c (activeLanes c))).or (if standby && stagingShort s then some 7 else none)

/-- Why entry to RUN, or to STANDBY, is refused (R47, R48, R495): code and detail. -/
def entryRefusal (s : State) (standby : Bool) : Option (Nat × Nat) :=
  let c := nextCfg s true [0, 1]
  let bad := [(0 : Lane), 1].find? (badMode c)
  let err := entryRegion s standby
  let ready := s.stOn Reg.TBASE_STATUS_PLL_LOCK && memReady s &&
    (!standby || (s.on Reg.TWIN_CFG_EN && s.stOn Reg.TWIN_STATUS_LINK_UP))
  if restartPending s || s.stOn Reg.ALM_STATUS_CAL_BUSY || s.merid.leaving.isSome then some (5, 0)
  else if !ready then some (4, 0)
  else if !s.stew.defaulted.isEmpty || s.stOn Reg.CFGI_STATUS_HDR_FAIL then some (2, 0)
  else if let some n := bad then some (7, n.val)
  else if let some b := budgetFail s c s.regionShadow err (activeLanes c) then some (3, b)
  else if RegFile.get c Reg.MERID_CFG_FOLLOW = 1 ∧ !s.stOn Reg.MERID_STATUS_IN_PRESENT then some (6, 0)
  else none

/-- The region table's verdict, and the table itself where the entry is accepted (R353). -/
def takeRegions (standby : Bool) (s : State) : State :=
  match entryRegion s standby with
  | some i => (s.setSt Reg.MEMCn_STATUS_REGION_ERR i).setSt Reg.MEMCn_STATUS_REGION_ERR_V 1
  | none => syncBufs { (s.setSt Reg.MEMCn_STATUS_REGION_ERR 0).setSt Reg.MEMCn_STATUS_REGION_ERR_V 0 with regions := s.regionShadow }

/-- The device enters RUN from `s.mode` (R49): RESTART fields take effect, the lanes start, the claim begins (R496). MERID_STATUS.RUNNING is set at
the acceptance, before the first tick. [DESIGN CHOICE: log 116] -/
def enterRun (s : State) : State :=
  let from_ := s.mode
  let s1 := takeRestart true [0, 1] (takeRegions false s)
  let m : Merid := { s1.merid with
    started := false, other := 0, applyLate := false, applyOther := false, inTick := none, inMarker := false, outTick := none, leaving := none }
  let s2 := { s1 with merid := m, raman := { s1.raman with ticks := 0, tick := none } }
  let s3 := (activeLanes s2.live).foldl (fun s n => startLane n s) s2
  let s4 := ((((s3.setSt Reg.SYS_MODE_STATUS_RUN_SINCE_RESET 1).setSt Reg.MERID_STATUS_RUNNING 1).setSt Reg.MERID_STATUS_IN_LOST 0).setSt
    Reg.MERID_STATUS_SYNC_ERR 0).setSt Reg.TWIN_STATUS_ROLE (if s3.on Reg.TWIN_CFG_EN then 2 else 0)
  enterMode 3 (refuse 0 0 { s4 with twin := { s4.twin with claim := 1, cameFrom := from_, runAt := s4.time, claimAt := s4.time, relinquish := false } })

/-- A refused entry. [DEDUCED: log 87] -/
def refuseEntry (standby : Bool) (r : Nat × Nat) (s : State) : State :=
  refuse r.1 r.2 (if r = (3, 8) then
    match entryRegion s standby with
    | some i => (s.setSt Reg.MEMCn_STATUS_REGION_ERR i).setSt Reg.MEMCn_STATUS_REGION_ERR_V 1
    | none => (s.setSt Reg.MEMCn_STATUS_REGION_ERR 0).setSt Reg.MEMCn_STATUS_REGION_ERR_V 0
  else s)

/-- The device leaves RUN for a mode (R50, R498): pending lane requests are cancelled. -/
def beginLeave (m : Nat) (s : State) : State :=
  [(0 : Lane), 1].foldl (fun s n => clearRequests n s) { s with merid := { s.merid with leaving := some m } }

/-- ACT_OUT is driven to a level, and the gate function follows (R496, R109). -/
def driveActOut (v : Bool) (s : State) : State :=
  if s.stOn Reg.LDRV_GATE_STATUS_ACT_OUT = v then s else (gateChange s.time (setBall .actOut v) s).emit (.actOut v)

/-- All lanes are OFF: the ticks stop, ACT_OUT is released and the mode changes (R50). -/
def finishLeave (s : State) : State :=
  match s.merid.leaving with
  | none => s
  | some m =>
    if s.laneState 0 ≠ 0 ∨ s.laneState 1 ≠ 0 then s
    else
      let s1 := { s with
        merid := { s.merid with leaving := none, started := false, applyLate := false, applyOther := false }
        twin := { s.twin with claim := 0, takeover := none } }
      let s2 := (s1.setSt Reg.MERID_STATUS_RUNNING 0).setSt Reg.TWIN_STATUS_ROLE (if m = 2 then 1 else 0)
      enterMode m (driveActOut false s2)

/-- MODE_CONFIG (R47, R50). -/
def execModeConfig (q : Requester) (t : Time) (s : State) : Res :=
  .next ((advance t s).shadowWrite q 0x010 fun s0 =>
    let s := s0.setNow Reg.SYS_MODE_DEV 1
    match s.mode with
    | 3 => if s.merid.leaving.isSome then refuse 5 0 s else finishLeave (beginLeave 1 (refuse 0 0 s))
    | 2 => enterMode 1 ((refuse 0 0 s).setSt Reg.TWIN_STATUS_ROLE 0)
    | _ => refuse 1 0 s)

/-- MODE_STANDBY (R495). -/
def execModeStandby (q : Requester) (t : Time) (s : State) : Res :=
  .next ((advance t s).shadowWrite q 0x010 fun s0 =>
    let s := s0.setNow Reg.SYS_MODE_DEV 2
    if s.mode ≠ 1 then refuse 1 0 s
    else match entryRefusal s true with
      | some r => refuseEntry true r s
      | none =>
        let s1 := (refuse 0 0 (takeRegions true s)).setSt Reg.TWIN_STATUS_ROLE 1
        enterMode 2 { s1 with twin := { s1.twin with pass := 0, ran := 0, injFail := 0, stood := true, relinquish := false, failed := none } })

/-! ### broadcast apply (R36) -/

/-- The source count against which a write made now is judged (R523). [DEDUCED: log 21] -/
def judgeCount (s : State) : Nat :=
  let next := s.merid.lastTick + nsT (s.lanePeriod s.srcLane)
  if tDiff next s.time ≤ 200 * duPerNs then (s.tickCount + 1) % 2 ^ 40 else s.tickCount

/-- HOLD or the apply tick has been written: while ticks run the apply tick is judged. [DEDUCED: log 21] -/
def judgeApply (s : State) : State :=
  let late := s.on Reg.MERID_APPLY_CTRL_HOLD && s.ticksRun && s.merid.started && !tickAhead s.applyTick (judgeCount s)
  { s with merid := { s.merid with applyLate := late, applyAt := s.time } }

/-- MERID_STATUS.APPLY_PENDING: held commits await the apply tick. [DEDUCED: log 21] -/
def syncApply (s : State) : State :=
  s.setSt Reg.MERID_STATUS_APPLY_PENDING (bit (s.on Reg.MERID_APPLY_CTRL_HOLD && !s.commits.isEmpty))

/-- A write of MERID_APPLY_CTRL.HOLD (R36): pending commits read HELD from its setting on. -/
def holdWrite (hold : Bool) (s : State) : State :=
  let s1 := s.setNow Reg.MERID_APPLY_CTRL_HOLD (bit hold)
  let s2 := if hold then s1.commits.foldl (fun s (c : Commit) => s.setSt (commitHeld c.page) 1) s1 else s1
  syncApply (judgeApply s2)

/-- APPLY_HOLD_WRITE (R36). -/
def execApplyHoldWrite (q : Requester) (t : Time) (hold : Bool) (s : State) : Res :=
  .next ((advance t s).shadowWrite q 0x011 (holdWrite hold))

/-- The apply tick from its LO word and the requester's staged HI (R36, R548). -/
def applyTickWrite (q : Requester) (lo : Nat) (s : State) : State :=
  let a := regAddr 0x011 0x05C
  let hi := match s.staged q a with
    | some w => w.toNat % 256
    | none => s.lv Reg.MERID_APPLY_TICK_HI
  judgeApply (((s.setNow Reg.MERID_APPLY_TICK_LO lo).setNow Reg.MERID_APPLY_TICK_HI hi).unstage q a)

/-- APPLY_TICK_WRITE (R36). -/
def execApplyTickWrite (q : Requester) (t : Time) (lo : Word) (s : State) : Res :=
  .next ((advance t s).shadowWrite q 0x011 (applyTickWrite q lo.toNat))

/-! ### shared ticks (R41 to R43) -/

/-- A MERID_HIGH write awaits its tick (R44). -/
def highPending (s : State) : Option Nat :=
  ((s.tickQ.filter fun (w : TickWrite) => w.key == Reg.MERID_TICK_HIGH_HIGH.key).getLast?).map fun w => w.value.toNat

/-- The device takes its source ticks from MERID_IN (R42). -/
def State.follows (s : State) : Bool := s.on Reg.MERID_CFG_FOLLOW && s.mode != 5

/-- Where the next source tick is expected (R25, R42, R49): where an edge has placed it, or one period after the last one. The first tick of a
device that does not follow falls where MERID_OUT has announced it, or at the converter-clock edge from `t` on; a follower has none before its
first edge. [DEDUCED: log 117] -/
def tickExpected (s : State) (t : Time) : Option Time :=
  match s.merid.inTick with
  | some p => some p
  | none =>
    if s.merid.started then some (s.merid.lastTick + nsT (s.lanePeriod s.srcLane))
    else if s.follows then none
    else some (s.merid.outTick.getD (clockCeil (if tBefore t s.time then s.time else t)))

/-- Where the next source tick falls: a follower that has no edge for it ticks of itself once it has lost MERID_IN (R42, R43). [DEDUCED: log 117] -/
def tickDue (s : State) (t : Time) : Option Time :=
  if s.follows && s.merid.started && s.merid.inTick.isNone && !s.stOn Reg.MERID_STATUS_IN_LOST then none else tickExpected s t

/-- MERID_OUT_PULSE (R41): one pulse for each source tick, 1,000 ns before it, and 24 ns wide before a marker tick. -/
def execMeridOutPulse (t : Time) (s : State) : Res :=
  let s0 := advance t s
  let low := if !s0.merid.started || (s0.merid.inTick.isSome && s0.merid.inMarker) then 0 else (s0.tickCount + 1) % 4096
  .next (match tickExpected s0 (t + nsT 1000) with
    | some d =>
      if s0.ticksRun && s0.on Reg.MERID_CFG_OUT_EN && s0.merid.outTick != some d then
        { s0 with merid := { s0.merid with outTick := some d } }.emit (.meridOut (d - nsT 1000) (low == 0))
      else s0
    | none => s0)

/-- The smallest dusk gap of a running lane in device units (R29, R43): in RATE each slot's own gap is D of the slot spacing. -/
def leastDusk (s : State) : Int :=
  let gaps := ([(0 : Lane), 1].filter fun n => s.laneState n == 2).map fun n => duskNs s.live n (s.lanePeriod n) * duPerNs
  gaps.foldl min (10 ^ 12)

/-- MERID_IN_EDGE (R42, R43, R75): a used edge places the next tick, at the nearest edge of the converter clock. [DEDUCED: log 117] -/
def execMeridInEdge (t : Time) (widthNs : Nat) (s : State) : Res :=
  let s0 := stampSource 11 t (advance t s)
  let s1 := { s0 with merid := { s0.merid with inLast := some t } }.setSt Reg.MERID_STATUS_IN_PRESENT 1
  let m := s1.merid
  let place := clockNear (t + nsT (1000 - s1.lv Reg.MERID_IN_TRIM_TRIM_NS))
  let use := fun (s : State) =>
    ({ s with merid := { s.merid with inTick := some place, inMarker := decide (16 ≤ widthNs) } }.setSt Reg.MERID_STATUS_IN_LOST 0).setSt
      Reg.MERID_STATUS_SYNC_ERR 0
  .next (if !s1.ticksRun || !s1.follows then s1
    else if !m.started then use s1
    else
      let off := (tDiff place (m.lastTick + nsT (s1.lanePeriod s1.srcLane))).natAbs
      let lost := s1.stOn Reg.MERID_STATUS_IN_LOST
      if 1000 * duPerNs < off ∨ (lost = true ∧ leastDusk s1 < off) then
        ((s1.bump Reg.MERID_SYNC_ERRS).setSt Reg.MERID_STATUS_SYNC_ERR 1).raise 0x011 2
      else use s1)

/-- IN_LOST (R43): no edge within T_M + 1 µs of the last one. -/
def execInLost (t : Time) (s : State) : Res :=
  let s0 := advance t s
  let late := match s0.merid.inLast with
    | some e => decide (((s0.lanePeriod s0.srcLane + 1000) * duPerNs : Nat) ≤ tDiff t e)
    | none => true
  .next (if !late then s0
    else
      let s1 := s0.setSt Reg.MERID_STATUS_IN_PRESENT 0
      if s1.ticksRun && s1.merid.started && s1.follows && !s1.stOn Reg.MERID_STATUS_IN_LOST then
        ((s1.setSt Reg.MERID_STATUS_IN_LOST 1).setSt Reg.MERID_STATUS_SYNC_ERR 1).raise 0x011 1
      else s1)

end Sys2Proof.Machine
end

