-- ==== Sys2Proof/Machine/B50.lean ====
section
/-!
DEFINITION. B50 compatibility mode (chapter 21) and its ring (R426 to R431). Internally lane L0 runs it (R534).
-/

namespace Sys2Proof.Machine

def State.setB50 (x : B50) (s : State) : State := { s with b50 := x }

/-- A write of the window (R543): page 0x000 is there in B50 mode alone. -/
def b50Write (q : Requester) (k : State → State) (s : State) : State := s.busWrite q 0 fun s => if s.mode = 5 then k s else s

/-! ### drives (R533) -/

/-- The live fields of the light drive that the window stands for, with their values. -/
def b50DriveFields (s : State) : List (Fld × Nat) :=
  let off := fun (f : Fld) (l : List Nat) => l.map fun i => (f.ix i, 0)
  [(Reg.LDRV_LDn_CFG_EN.ix 0, s.lv Reg.B50_LD_EN), (Reg.LDRV_LDn_SET.ix 0, s.lv Reg.B50_LD_SET), (Reg.LDRV_LDn_LIMIT.ix 0, s.lv Reg.B50_LD_LIMIT),
   (Reg.LDRV_PCm_CFG_EN.ix 0, s.lv Reg.B50_PUMP_EN), (Reg.LDRV_PCm_SET.ix 0, s.lv Reg.B50_PUMP_SET),
   (Reg.LDRV_PCm_LIMIT.ix 0, s.lv Reg.B50_PUMP_LIMIT), (Reg.LDRV_SETn.ix 0, s.lv Reg.B50_TEC_SET)] ++
  off Reg.LDRV_LDn_CFG_EN [1] ++ off Reg.LDRV_LDn_CFG_MODE [0, 1] ++ off Reg.LDRV_PCm_CFG_EN [1, 2, 3] ++
  off Reg.LDRV_PCm_CFG_MODE [0, 1, 2, 3] ++ off Reg.LDRV_SETn [1] ++ off Reg.LDRV_WLw_CFG_EN [0, 1]

/-- The drives follow the window: LD0, PC0 and SET0 in MODE 0, every other output off; a pump enabled anew ramps (R103). [DEDUCED: log 95] -/
def b50Drive (s : State) : State :=
  let was := s.on (Reg.LDRV_PCm_CFG_EN.ix 0)
  let s1 := (b50DriveFields s).foldl (fun s e => s.setLive e.1 e.2) s
  syncDrive (if s1.on (Reg.LDRV_PCm_CFG_EN.ix 0) then
    (if was then s1 else if s1.gateOpen && !s1.stOn Reg.SYS_SUPPLY_HOLDING && !pumpFaulty s1 0 then rampPump 0 s1 else s1)
  else s1.setSt Reg.LDRV_GATE_STATUS_RAMPING (s1.st Reg.LDRV_GATE_STATUS_RAMPING &&& 14))

/-! ### entry (R527, R528) -/

/-- Every window register at its reset value. -/
def b50ResetWindow (s : State) : State :=
  let keep := fun (k : Nat) => decide (k < 131072)
  b50Drive (syncEmit (s.b50Irq false fun s => { s with
    shadow := Amap.drop keep s.shadow, live := Amap.drop keep s.live, status := Amap.drop keep s.status
    tickQ := s.tickQ.filter fun (w : TickWrite) => !keep w.key }))

/-- The region table of R528, in MB. [DEDUCED: log 98] -/
def b50Regions : Amap (Nat × Nat) := [(4, (0, 1024)), (5, (1024, 2))]

/-- The device enters B50 mode (R528). Native streams and subscribers end. [DEDUCED: log 97] -/
def enterB50 (s : State) : State :=
  let s1 := enterMode 5 { s with
    regionShadow := b50Regions, regions := b50Regions, b50 := {}
    strm := { s.strm with streams := [], subs := [] }
    cmp := { s.cmp with ready := [], slots := s.cmp.slots.map fun (e : Nat × Ctx) =>
      (e.1, { quota := e.2.quota, pred := e.2.pred, auto := e.2.auto, pass := e.2.pass, resync := e.2.resync }) } }
  b50ResetWindow ((syncSubs s1).setSt Reg.STRM_STREAMS 0)

/-- MODE_B50 (R47, R527): no RUN since reset; record memory must hold the table of R528. [DEDUCED: log 98] -/
def execModeB50 (q : Requester) (t : Time) (s : State) : Res :=
  .next ((advance t s).shadowWrite q 0x010 fun s0 =>
    let s := s0.setNow Reg.SYS_MODE_DEV 5
    if s.mode ≠ 1 ∨ s.stOn Reg.SYS_MODE_STATUS_RUN_SINCE_RESET = true then refuse 1 0 s
    else if s.stOn Reg.ALM_STATUS_CAL_BUSY then refuse 5 0 s
    else
      let r := leaveConfig (fun _ => false) { s with regionShadow := b50Regions }
      if r.1 then enterB50 (refuse 0 0 r.2) else refuse 3 8 { r.2 with regionShadow := s.regionShadow })

/-! ### starting and stopping (R534, R535) -/

/-- W_h in kHz (R540); an undefined code has none. -/
def b50HalfWidth (s : State) : Option Nat := ([12500, 25000, 50000] : List Nat)[s.sh Reg.B50_RX_BW]?

/-- t_end of R535 in ns, from values as written or as in force. -/
def b50End (g : Fld → Nat) : Nat :=
  4 * (g Reg.B50_TAU0 + (g Reg.B50_POINTS + g Reg.B50_GAUGE + 1) * g Reg.B50_SPACING) + g Reg.B50_PULSE + 1000

/-- The first condition of R535 that fails. [DEDUCED: log 87, 95] -/
def b50Refusal (s : State) : Option Nat :=
  let g := s.sh
  let p := g Reg.B50_POINTS
  let span := (p + g Reg.B50_GAUGE + 1) * g Reg.B50_SPACING
  let band := match b50HalfWidth s with
    | some w => decide (15000 + w ≤ g Reg.B50_IF ∧ g Reg.B50_IF + w ≤ 250000)
    | none => false
  let nref := g Reg.B50_REF_POINTS
  if g Reg.B50_PERIOD < b50End g then some 1
  else if !band then some 2
  else if 32768 < p ∨ 5000000000 < span * 40838 then some 3
  else if !(s.stOn Reg.TBASE_STATUS_PLL_LOCK && memReady s) then some 4
  else if g Reg.B50_CTRL_REF_EN = 1 ∧ !(g Reg.B50_GAUGE + 1 ≤ nref && nref * g Reg.B50_SPACING ≤ g Reg.B50_TAU0) then some 5
  else none

/-- The window's RESTART fields take effect at a start (R534). [DEDUCED: log 95] -/
def b50TakeRestart (s : State) : State :=
  let take := fun (k : Nat) => decide (k < 131072) && (match fieldOfKey k with | some f => f.eff == .restart | none => false)
  { s with live := copyFields take s.shadow s.live }

/-- The stream of B50_FRAME and its consumer, the ring of channel 0 (R434, R538), are bound. [DEDUCED: log 97] -/
def b50Bind (s : State) : State :=
  if s.strm.streams.any fun x => x.sid == 1 then s
  else
    let sel : Selection := ⟨0x10, 0, 0, 0, 0, 0⟩
    let x : Sub := { st := 2, path := .mailbox 0, chan := 0, sels := [{ sid := 1, wait := false, started := true }] }
    let s1 := s.setCtx 0 { bound := true, sid := 1, pass := true, quota := (s.ctx 0).quota }
    { s1 with strm := { s1.strm with streams := [{ sid := 1, slot := 0, sel := sel }], subs := [(0, x)] } }

/-- A start is accepted: the lane becomes STARTING and the claim begins (R49, R534). -/
def b50Begin (s : State) : State :=
  let s1 := b50Bind (b50TakeRestart s)
  let m : Merid := { s1.merid with
    started := false, other := 0, applyLate := false, applyOther := false, inTick := none, inMarker := false, outTick := none, leaving := none }
  let s2 := { s1 with
    merid := m, twin := { s1.twin with claim := 1, cameFrom := 5, runAt := s1.time, claimAt := s1.time, takeover := none }
    shots := s1.shots.set 0 { nextId := (s1.shots.get 0).nextId }, rxf := s1.rxf.set 0 (freshRxf (s1.rxf.get 0))
    b50 := { idx := s1.b50.idx, err := s1.b50.err } }
  let s3 := (s2.setSt (Reg.RXFn_STATUS_RANGE_CUR.pg 0) (s2.lv Reg.B50_RX_RANGE)).setSt Reg.B50_FRAMES 0
  setLaneState 0 1 (setLane 0 {} ((s3.setSt Reg.B50_STATUS_REJECT 0).setSt Reg.MERID_STATUS_RUNNING 1))

/-- A start (R535). [DEDUCED: log 95] -/
def b50Start (s : State) : State :=
  match b50Refusal s with
  | some c => ((s.setNow Reg.B50_CTRL_RUN 0).setSt Reg.B50_STATUS_REJECT c).b50Raise 7
  | none => b50Begin s

/-- B50_RUN (R534). -/
def execB50Run (q : Requester) (t : Time) (s : State) : Res :=
  .next (b50Write q (fun s0 =>
    let s := s0.setNow Reg.B50_CTRL_RUN 1
    if s.laneState 0 = 0 then b50Start s
    else if s.laneState 0 = 3 ∨ s.b50.stop = true then s.setB50 { s.b50 with again := true } else s) (advance t s))

/-- The lane stops as under R50, at its next tick. -/
def b50Halt (s : State) : State := if s.laneState 0 = 0 then s else s.setB50 { s.b50 with stop := true, again := false }

/-- B50_STOP (R534). -/
def execB50Stop (q : Requester) (t : Time) (s : State) : Res :=
  .next (b50Write q (fun s => b50Halt (s.setNow Reg.B50_CTRL_RUN 0)) (advance t s))

/-! ### records (R537, R538) -/

/-- A record is stored in the stream's chain; one that finds no room is dropped (R434, R538). -/
def b50Store (r : Rec) (s : State) : State :=
  let c := s.ctx 0
  let bytes := plainRecord { r with sid := 1 } s.b50.seq
  let n := bytes.length / bufData + 2
  let s1 := (s.setCtx 0 { c with quota := max c.quota n, nextSeq := c.nextSeq + 1 }).setB50 { s.b50 with seq := (s.b50.seq + 1) % 2 ^ 32 }
  let l := linkTo 0 (c.fill + bytes.length) n s1
  if l.2 then
    let s2 := writeChain 0 n c.fill bytes l.1
    completeRec 0 { seq := c.nextSeq, start := c.fill, opens := true, no := s.cmp.takes, done := s.cmp.dones, bytes := bytes }
      { s2 with cmp := { s2.cmp with dones := s2.cmp.dones + 1 } }
  else countDrops 0 1 true (l.1.setSub 0 ((l.1.sub 0).updSel 0 fun y => { y with gap := true, drops := y.drops + 1 }))

/-- The open record closes as it stands. -/
def b50Close (s : State) : State :=
  match s.b50.rec_ with
  | none => s
  | some r => b50Store { r with flags := r.flags ||| flagsOver s r.time r.till } (s.setB50 { s.b50 with rec_ := none })

/-- A frame of phases joins the record being formed, which closes at B50_REC_FRAMES frames. -/
def b50Frame (x : Shot) (flags : Nat) (phases : List Nat) (s : State) : State :=
  let r0 : Rec := { product := 0x10, width := 1, time := x.tick, pointCount := s.lv Reg.B50_POINTS }
  let r := s.b50.rec_.getD r0
  let r1 := { r with
    body := r.body ++ phases.flatMap fun v => leBytes 2 v
    frameCount := r.frameCount + 1, flags := r.flags ||| flags, till := x.at_ + nsT (s.lv Reg.B50_PERIOD) }
  let s1 := (s.setB50 { s.b50 with rec_ := some r1 }).bump Reg.B50_FRAMES
  if s.lv Reg.B50_REC_FRAMES ≤ r1.frameCount then b50Close s1 else s1

/-! ### a shot (R536) -/

/-- The configuration under which the phase engine serves B50: gauge length G, every other field at its reset value. -/
def b50Cfg (s : State) : RegFile := RegFile.set [] (Reg.PHZn_GAUGE_G.pg 0) (s.lv Reg.B50_GAUGE)

/-- The point values of a shot, from point −N_ref on. [DEDUCED: log 96] -/
def b50Values (s : State) (x : Shot) (nref : Nat) (codes : List Int) : List (Int × Int) :=
  let sp := s.lv Reg.B50_SPACING
  let j : Int := sp * 512
  let dl : Int := if s.on Reg.B50_CTRL_JIT_EN then max (-j) (min j (x.jit.getD 0)) else 0
  let d : Int := s.lv Reg.B50_TAU0 * 512 + dl
  let whole := floorDiv d 512
  let frac := (d - whole * 512).toNat
  -- f_IF in kHz: phase 0 at the command instant, then every fourth sample
  let mixed := codes.zipIdx.map fun e =>
    let cs := cosSinTurn (-((s.lv Reg.B50_IF * e.2 : Nat) : Int)) 1000000
    cDiv (16 * e.1 * cs.1, 16 * e.1 * cs.2) (2 ^ 76)
  let xs := lowPass (Config.b50Half (s.lv Reg.B50_RX_BW)) (Config.b50Tap (s.lv Reg.B50_RX_BW)) 4 mixed
  let ys := if frac = 0 then xs else Config.fracDelay frac 512 xs
  (List.range (nref + s.lv Reg.B50_POINTS + s.lv Reg.B50_GAUGE)).map fun (i : Nat) =>
    let m : Int := whole + ((i : Int) - nref) * sp
    if m < 0 then (0, 0) else ys.getD m.toNat (0, 0)

/-- The delivered phase of a point. [DEDUCED: log 96] -/
def b50Phase (w : PhzPair) : Nat := w.phi / 256 % 65536

/-- A lit shot: its phases, how many points slipped and how many restarted, and the engine after it. [DEDUCED: log 96] -/
def b50Unwrap (s : State) (x : Shot) (codes : List Int) : List Nat × Nat × Nat × B50 :=
  let c := b50Cfg s
  let b := s.b50
  let nref := if s.on Reg.B50_CTRL_REF_EN then s.lv Reg.B50_REF_POINTS else 0
  let gl := s.lv Reg.B50_GAUGE
  let g : GaugeShot := { shot := x, nref := nref, vals := b50Values s x nref codes }
  let due := b.due || x.lightBack
  let rs := if nref = 0 then (b.refs, (0 : Int), false) else refStep c 0 0 g (if due then [] else b.refs)
  let acc := if nref = 0 then 0 else ux 40 ((b.acc : Int) + rs.2.1)
  let ctx : ShotCtx := {
    cfg := c, lane := 0, slot := 0, rate := false, racc := acc, gain := 0, wide := true, prev := if b.valid then some 0 else none
    align := none, track := true, settle := false, weak := rs.2.2 }
  let r := (List.range (s.lv Reg.B50_POINTS)).foldl (fun (a : Amap PhzPair × List Nat × Nat × Nat) p =>
    let gg := gaugeOf (g.vals.getD (nref + p) (0, 0)) (g.vals.getD (nref + p + gl) (0, 0))
    let w := (phzPoint ctx a.1 p none due none false gg.1 gg.2).1
    (Amap.put p w a.1, a.2.1 ++ [b50Phase w], a.2.2.1 + w.qual / 2 ^ 28 % 2, a.2.2.2 + bit w.restarted)) (b.pairs, [], 0, 0)
  (r.2.1, r.2.2.1, r.2.2.2, { b with pairs := r.1, valid := true, acc := acc, refs := rs.1, due := false, lastRange := some x.range })

/-- B50_SHOT (R536, R537): the oldest shot, from the L0_XI codes. [DEDUCED: log 96] -/
def execB50Shot (codes : List Int) (s : State) : Res :=
  .next (if s.mode ≠ 5 then s
    else match oldestShot s 0 0 with
    | none => s
    | some x =>
      let s0 := takePulse 0 x s
      let first := (s0.rxf.get 0).ovlTick != some x.tick
      let ovl := ((codes.take (s.lv Reg.B50_PERIOD)).filter fun v => v = -2048 ∨ v = 2047).length
      let s1 := ((countOverload 0 0 (s.lv Reg.B50_PERIOD) x.tick [codes] s0).bumpBy Reg.B50_OVL_SAMPLES ovl).when (ovl != 0 && first)
        (State.b50Raise 4)
      if x.dark || x.hole then
        let ph := (List.range (s.lv Reg.B50_POINTS)).map fun p => b50Phase (phzPair s.b50.pairs 0 p)
        b50Frame x 8 ph (s1.setB50 { s1.b50 with due := s1.b50.due || x.dark })
      else
        let u := b50Unwrap s x codes
        let seam := !x.switches.isEmpty || (match s.b50.lastRange with | some r => r != x.range | none => false)
        let s2 := ((s1.setB50 u.2.2.2).bumpBy Reg.B50_SLIPS u.2.1).when (u.2.1 != 0) (State.b50Raise 6)
        let s3 := ((s2.bumpBy (Reg.PHZn_SLIPS.pg 0) u.2.1).bumpBy (Reg.PHZn_RESTARTS.pg 0) u.2.2.1).raiseIf (u.2.1 != 0) 0x02A 0
        b50Frame x (bit seam * 4 + bit (u.2.1 != 0) * 0x200) u.1 s3)

/-! ### the lane's ticks -/

/-- The lane is OFF: the ticks stop and ACT_OUT is released (R50); a start that waits is made (R534). -/
def b50Off (s : State) : State :=
  let s1 := b50Close (setLaneState 0 0 (setLane 0 {} s))
  let s2 := { s1 with
    merid := { s1.merid with started := false }, twin := { s1.twin with claim := 0 }, b50 := { s1.b50 with stop := false, again := false } }
  let s3 := driveActOut false (s2.setSt Reg.MERID_STATUS_RUNNING 0)
  if s.b50.again then b50Start s3 else s3

/-- The lane drains (R50). -/
def b50Drain (s : State) : State := setLaneState 0 3 (s.setB50 { s.b50 with stop := false })

/-- What the lane's tick does in B50 mode. -/
def b50Step (s : State) : State :=
  match s.laneState 0 with
  | 0 => s
  | 1 => if s.b50.stop then b50Drain s else setLaneState 0 2 (setLane 0 { s.lanes.get 0 with frame := 0 } s)
  | 2 => if s.b50.stop then b50Drain s else s
  | _ => b50Off s

/-- The lane's frame begins (R29, R540): the range due is switched; a shot still in flight 400 ns before has met the switch. -/
def b50TickFrame (t : Time) (c : Nat) (s : State) : State :=
  let s1 := setLane 0 { s.lanes.get 0 with lastTick := t, lastCount := c, launched := [] } s
  if s1.laneState 0 ≠ 2 then s1
  else
    let due := s1.lv Reg.B50_RX_RANGE
    let l := s1.shots.get 0
    let at_ := t - nsT 400
    let hit := fun (x : Shot) => due != s1.range 0 && decide (tDiff at_ x.at_ < (b50End s1.lv * duPerNs : Nat))
    let s2 := { s1 with shots := s1.shots.set 0 { l with
      shots := l.shots.map fun x => if hit x then { x with switches := [(at_, due)] } else x } }
    b50Drive (tickRange 0 t due s2)

/-! ### the ring (R426 to R431, R538) -/

/-- Host address of the descriptor in use. -/
def b50DescAt (s : State) : Nat := s.lv Reg.B50_RING_LO + 2 ^ 32 * s.lv Reg.B50_RING_HI + 16 * s.b50.idx

/-- B50_DMA_STATUS.STATE is DMACH00_STATUS.STATE. -/
def b50ChanState (v : Nat) (s : State) : State := (setChanState 0 v s).setSt Reg.B50_DMA_STATUS_STATE v

/-- The descriptor in use is read. -/
def b50Fetch (s : State) : State :=
  (setWaits 0 false false false (s.setChan 0 { s.chan 0 with desc := none, off := 0, fetch := true })).emit (.hostRead 0 (b50DescAt s) 16)

/-- Its read completes (R425, R427): one that the device does not own is waited for. [DEDUCED: log 97] -/
def b50Fetched (c : Completion) (s : State) : State :=
  let fail := fun (e : Nat) =>
    b50ChanState 3 ((setWaits 0 false false false (s.setChan 0 { s.chan 0 with fetch := false })).setSt (Reg.DMACHn_STATUS_ERR.pg 0) e)
  match c with
  | .failed => fail 1
  | .poisoned => fail 2
  | .ok l =>
    let u := fun (o n : Nat) => leNat ((l.drop o).take n)
    let x := s.chan 0
    if u 0xC 4 / 2 ^ 31 = 0 then setWaits 0 false true false (s.setChan 0 { x with fetch := false })
    else setWaits 0 false false true (s.setChan 0 { x with fetch := false, desc := some ⟨u 0 8, u 8 4 % 2 ^ 24, u 8 4, 0⟩, off := 0 })

/-- Held completions are released (R430, R541). -/
def b50Release (s : State) : State := (releaseHeld 0 s).b50Raise 0

/-- STATUS of the descriptor in use: OWN cleared, ERR, ABORT, bytes done (R428). -/
def b50Status (err abort : Bool) (done : Nat) (s : State) : State :=
  s.emit (.hostWrite 0 (b50DescAt s + 12) (leBytes 4 (bit err * 2 ^ 30 + bit abort * 2 ^ 29 + done)) false false)

/-- The descriptor in use completes (R427, R428, R430), and the next one is read. [DEDUCED: log 97] -/
def b50Complete (d : Desc) (err : Bool) (s : State) : State :=
  let x := s.chan 0
  let s1 := b50Status err false x.off s
  let s2 := s1.setSt Reg.B50_DMA_STATUS_INDEX (s.st Reg.B50_DMA_STATUS_INDEX + 1)
  let s3 := (s2.bump (Reg.DMACHn_HELD.pg 0)).setChan 0 { x with heldAt := some (x.heldAt.getD s.time) }
  let s4 := if d.ctl / 2 ^ 24 % 2 = 1 ∨ modCount s3 0 ≤ s3.st (Reg.DMACHn_HELD.pg 0) then b50Release s3 else s3
  b50Fetch (s4.setB50 { s4.b50 with idx := if d.ctl / 2 ^ 25 % 2 = 1 then 0 else s4.b50.idx + 1, err := false })

/-- One record goes into the buffer in use, or ends it (R427, R429). -/
def b50Move (d : Desc) (k : Nat) (r : ChainRec) (lost : Bool) (s : State) : State :=
  let off := (s.chan 0).off
  let n := r.bytes.length
  if off + n ≤ d.len then
    let bad := lost || recPoisoned s 0 r
    let s1 := beginRec 0 k s
    let s2 := hostData 0 (d.addr + off) (carried s1 0 k r) (fun o m => lost || bytesPoisoned s 0 (r.start + o) m) (s.on Reg.DMA_CFG_RO_EN) s1
    let s3 := delivered 0 k (s2.setChan 0 { s2.chan 0 with off := off + n })
    setWaits 0 false false false (s3.setB50 { s3.b50 with err := s3.b50.err || bad })
  else if off = 0 then b50Complete d true (dropWaiting 0 k (fun q => q == r.seq) s)
  else b50Complete d s.b50.err s

/-- The B50 ring writes its next record. [DEDUCED: log 97] -/
def b50RingWrite (lost : Bool) (s : State) : State :=
  if s.chanState 0 ≠ 1 ∨ s.asleep 0 then s
  else match (s.chan 0).desc, nextRec s 0 with
    | some d, some (k, _, r) => b50Move d k r lost s
    | some _, none => setWaits 0 false false true s
    | none, _ => s

/-- DMA_RECORD_WRITE (R416, R427). [DESIGN CHOICE: log 76] -/
def execDmaRecordWrite (ch : Chan) (t : Time) (s : State) (e : Sram := ⟨0, false⟩) : Res :=
  if s.mode = 5 then
    let s1 := sramMet e (advance t s)
    .next (if ch.val = 0 then b50RingWrite e.lost s1 else s1)
  else nativeRecordWrite ch t e s

/-- DESC_FETCH (R424, R427). [DESIGN CHOICE: log 76, 107] -/
def execDescFetch (ch : Chan) (c : Completion) (s : State) : Res :=
  if s.mode = 5 then .next (if ch.val = 0 ∧ s.chanState 0 = 1 ∧ (s.chan 0).fetch = true then b50Fetched c s else s)
  else nativeDescFetch ch c s

/-- COMPLETION_TIMEOUT (R425). [DESIGN CHOICE: log 76] -/
def execCompletionTimeout (ch : Chan) (s : State) : Res :=
  if s.mode = 5 then .next (if ch.val = 0 ∧ s.chanState 0 = 1 ∧ (s.chan 0).fetch = true then b50Fetched .failed s else s)
  else nativeTimeout ch s

/-- MOD_TIMEOUT (R430). [DESIGN CHOICE: log 76] -/
def execModTimeout (ch : Chan) (s : State) : Res :=
  if s.mode = 5 then .next (if ch.val = 0 ∧ s.st (Reg.DMACHn_HELD.pg 0) ≠ 0 ∧ modTime s 0 ≠ 0 then b50Release s else s)
  else nativeRelease ch s

/-- The ring waits for an owned descriptor. -/
def b50Waits (s : State) : Bool := s.mode == 5 && s.chanState 0 == 1 && (s.chan 0).desc.isNone && !(s.chan 0).fetch

/-- B50_DESC_POLL (R427). -/
def execB50DescPoll (c : Completion) (s : State) : Res := .next (if b50Waits s then b50Fetched c (b50Fetch s) else s)

/-- B50_DOORBELL (R427). [DEDUCED: log 105] -/
def execB50Doorbell (q : Requester) (c : Completion) (s : State) : Res :=
  .next (b50Write q (fun s => if b50Waits s then b50Fetched c (b50Fetch s) else s) s)

/-- B50_DMA_EN (R538). -/
def execB50DmaEn (q : Requester) (s : State) : Res :=
  .next (b50Write q (fun s =>
    if s.chanState 0 ≠ 0 then s
    else
      let s1 := ((s.setNow Reg.B50_DMA_CTRL_EN 1).setSt Reg.B50_DMA_STATUS_INDEX 0).setSt (Reg.DMACHn_STATUS_ERR.pg 0) 0
      b50Fetch (b50ChanState 1 ((releaseHeld 0 s1).setB50 { s1.b50 with idx := 0, err := false }))) s)

/-- The abort's status, and STOPPED (R431). [DEDUCED: log 97] -/
def b50AbortFinish (s : State) : State :=
  let x := s.chan 0
  let s1 := if s.chanState 0 ≠ 3 ∧ x.desc.isSome = true then b50Status s.b50.err true x.off s else s
  let s2 := (releaseHeld 0 s1).b50Irq false fun s => s.setSt Reg.B50_IRQ_STATUS (s.st Reg.B50_IRQ_STATUS ||| 3)
  setWaits 0 false false false (b50ChanState 0 ((s2.setNow Reg.B50_DMA_CTRL_EN 0).setChan 0 {}))

/-- B50_DMA_ABORT (R431, R538): a ring that waits, or is halted, stops at once; in D3hot its status write waits for D0. -/
def execB50DmaAbort (q : Requester) (s : State) : Res :=
  .next (b50Write q (fun s =>
    match s.chanState 0 with
    | 1 =>
      if (s.chan 0).desc.isNone then b50AbortFinish s
      else if (nextRec s 0).isSome then b50ChanState 2 s
      else if s.asleep 0 then b50ChanState 2 (s.setChan 0 { s.chan 0 with abortWb := true }) else b50AbortFinish s
    | 3 => b50AbortFinish s
    | _ => s) s)

/-- ABORT_DONE (R431). [DESIGN CHOICE: log 76] -/
def execAbortDone (ch : Chan) (s : State) : Res :=
  .next (if s.chanState ch.val ≠ 2 then s
    else if s.mode = 5 then
      (if ch.val ≠ 0 then s else if s.asleep 0 then s.setChan 0 { s.chan 0 with abortWb := true } else b50AbortFinish s)
    else abortEnd ch.val s)

/-! ### the return to D0 (R432, R433, R569) -/

/-- What a function held while it slept goes out: the status writes of aborts, then its messages (R431, R432). -/
def wakeFunction (f : Nat) (s : State) : State :=
  let fin := fun (s : State) (ch : Nat) => if !(s.chan ch).abortWb then s else if s.mode = 5 then b50AbortFinish s else abortFinish ch s
  let s1 := [2 * f, 2 * f + 1].foldl fin s
  let l := s1.pcie.asleep.filter fun e => e.1 == f
  l.foldl (fun s e => if s.mode = 5 then s.sendMsi else signal e.1 e.2 s) { s1 with pcie := { s1.pcie with asleep := s1.pcie.asleep.filter fun e => e.1 != f } }

/-- D0_RETURN (R432). -/
def execD0Return (f : Func) (s : State) : Res :=
  let s1 := { s with pcie := { s.pcie with d3 := s.pcie.d3.filter (· != f.val) } }
  .next (if s1.pcie.l2 then s1 else wakeFunction f.val s1)

/-- PCIE_LINK_UP (R569): training completes or changes rate or width. After L2 every function is in D0 again (R433). -/
def execPcieLinkUp (speed width : Nat) (s : State) : Res :=
  let new := s.st Reg.DMA_STATUS_SPEED != speed % 8 || s.st Reg.DMA_STATUS_WIDTH != width % 16
  let s1 := ((((s.setSt Reg.DMA_STATUS_LINK_UP 1).setSt Reg.DMA_STATUS_SPEED speed).setSt Reg.DMA_STATUS_WIDTH width).setSt
    Reg.DMA_STATUS_LSTATE 0).raiseIf new 0x098 4
  .next (if s.pcie.l2 then
    (List.range 32).foldl (fun s f => wakeFunction f s) { s1 with pcie := { s1.pcie with l2 := false, d3 := [] } }
  else s1)

/-! ### other commands (R539, R540) -/

/-- B50_SOFT_RESET (R540): ignored unless the lane is stopped. The ring stops with it. -/
def execB50SoftReset (q : Requester) (s : State) : Res :=
  .next (b50Write q (fun s =>
    if s.laneState 0 ≠ 0 then s
    else b50ResetWindow (setWaits 0 false false false (setChanState 0 0 ((releaseHeld 0 s).setChan 0 {})))) s)

/-- B50_IRQ_CLEAR (R5, R539). -/
def execB50IrqClear (q : Requester) (bits sets : Word) (s : State) : Res :=
  .next (b50Write q (State.b50Irq true (State.w1c Reg.B50_IRQ_STATUS bits.toNat sets.toNat)) s)

end Sys2Proof.Machine
end

