-- ==== Sys2Proof/Machine/Tick.lean ====
section
/-!
DEFINITION. The meridian tick (chapter 2, R25 to R36, R44, R50 to R52).
-/

namespace Sys2Proof.Machine

/-! ### what a tick governs (R26, R523) -/

/-- The lane of a per-lane page. -/
def pageLane (p : Nat) : Option Lane :=
  if [0x01A, 0x020, 0x028, 0x02A, 0x02C].contains p then some 0
  else if [0x01B, 0x021, 0x029, 0x02B, 0x02D].contains p then some 1 else none

/-- The lane whose ticks govern a page: its own while it is not OFF, else the source lane. [DEDUCED: log 19] -/
def governor (s : State) (p : Nat) : Lane :=
  match pageLane p with
  | some n => if s.laneState n = 0 then s.srcLane else n
  | none => s.srcLane

/-- The page of a field's key. [DEDUCED: log 20] -/
def pageOfKey (k : Nat) : Nat := k / 131072

/-- Something done to a page at `a` precedes the sampling edge of the tick at `t` (R523). [DEDUCED: log 20] -/
def precedes (t : Time) (p : Nat) (a : Time) : Bool :=
  decide (((if p = 0x020 ∨ p = 0x021 then 1000 else 200) * duPerNs : Nat) < tDiff t a)

/-- A lane's request in SYS_LANE_CTRL that this tick of the lane takes (R51, R52). -/
def requested (s : State) (t : Time) (f : Fld) : Bool := s.tickQ.any fun w => w.key == f.key && precedes t 0x010 w.at_

/-- The key of a lane request or of MERID_TICK_HIGH: it is no value to be copied. -/
def isRequestKey (k : Nat) : Bool :=
  [(restartBit 0).key, (restartBit 1).key, (stopBit 0).key, (stopBit 1).key, Reg.MERID_TICK_HIGH_HIGH.key].contains k

/-- The TICK writes that ticks of `lanes` at `t` govern take effect (R7, R8). [DEDUCED: log 19, 20] -/
def takeTicks (lanes : List Lane) (t : Time) (s : State) : State :=
  let now := fun (w : TickWrite) =>
    !isRequestKey w.key && lanes.contains (governor s (pageOfKey w.key)) && precedes t (pageOfKey w.key) w.at_
  let s1 := { s with tickQ := s.tickQ.filter fun w => !now w }
  (s.tickQ.filter now).foldl (fun s w => { s with live := Amap.put w.key w.value s.live }) s1

/-! ### the count (R27, R42, R44) -/

/-- The MERID_TICK_HIGH write that this tick takes. [DEDUCED: log 20] -/
def highNow (s : State) (t : Time) : Option Nat :=
  ((s.tickQ.filter fun w => w.key == Reg.MERID_TICK_HIGH_HIGH.key && precedes t 0x011 w.at_).getLast?).map fun w => w.value.toNat

/-- The count that the tick at `t` carries. -/
def countAt (s : State) (t : Time) : Nat :=
  let c0 := if s.merid.started then (s.tickCount + 1) % 2 ^ 40 else 0
  let c1 := match highNow s t with
    | some v => v % 2 ^ 28 * 4096 + c0 % 4096
    | none => c0
  if s.merid.inTick.isSome && s.merid.inMarker then c1 / 4096 * 4096 else c1

/-! ### commits (R33 to R36) -/

/-- At this tick the held commits apply (R36), and whether they apply late. [DEDUCED: log 21] -/
def applyVerdict (s : State) (t : Time) (c : Nat) : Bool × Bool :=
  let d := (s.applyTick + 2 ^ 40 - c) % 2 ^ 40
  let late := if s.merid.started then s.merid.applyLate else !decide (d ≤ 2 ^ 39 - 1)
  let hold := s.on Reg.MERID_APPLY_CTRL_HOLD && (!s.merid.started || precedes t 0x011 s.merid.applyAt)
  (hold && (late || d == 0), late)

/-- The commits that ticks of `lanes` at `t` apply; `open_` says that commits are not held. [DEDUCED: log 22] -/
def dueCommits (s : State) (lanes : List Lane) (t : Time) (open_ : Bool) : List Commit :=
  s.commits.filter fun c =>
    let g := governor s c.page
    lanes.contains g && precedes t c.page c.at_ && (open_ || (g != s.srcLane && s.merid.applyOther))

/-- A commit whose shadow words have changed is STALE (R33, R34). [DEDUCED: log 22] -/
def staleCommit (page : Nat) (s : State) : State :=
  ({ s with commits := s.commits.filter fun (x : Commit) => x.page != page }.setSt (commitState page) 4).setSt (commitHeld page) 0

/-- HOLD clears at the apply tick (R36). [DEDUCED: log 21] -/
def releaseHold (late other : Bool) (s : State) : State :=
  let s1 := { s.setNow Reg.MERID_APPLY_CTRL_HOLD 0 with merid := { s.merid with applyLate := false, applyOther := !other } }
  (s1.raise 0x011 3).raiseIf late 0x011 4

/-! ### lanes (R46, R50 to R52, R509) -/

/-- A drained lane, or one that was OFF, takes its RESTART fields and is checked with the whole device (R51). [DEDUCED: log 25] -/
def restartCheck (n : Lane) (s0 : State) : State :=
  let s := takeRestart false [n] s0
  let c := nextCfg s false [n]
  let others := [(0 : Lane), 1].filter fun m => (m == n && cfgMode c m != 0) || (m != n && s.laneState m != 0)
  if badMode c n then laneOff n (refuse 7 n.val s)
  else match budgetFail s c s.regions none others with
    | some b => laneOff n (refuse 3 b s)
    | none => if cfgMode c n = 0 then laneOff n s else startLane n s

/-- The lane drains (R50, R51); its open averaging period is discarded (R227). [DEDUCED: log 24] -/
def drainLane (n : Lane) (why : Drain) (s : State) : State :=
  stopRaman n (setLaneState n 3 (setLane n { s.lanes.get n with drain := why } (clearRequests n s)))

/-- The marking of a takeover ends just before now (R509). -/
def endMark (n : Lane) (s : State) : State :=
  { s with causes := s.causes.map fun c => if c.flag = 16 + n.val ∧ c.till.isNone then { c with till := some (s.time - 1) } else c }

/-- A STARTING lane runs (R46): where commits have applied at this tick (`fresh`; `old` is the configuration before them), its
blocks start with them, and a constellation change among them marks the first frames (R182). [DEDUCED: log 23] -/
def runLane (n : Lane) (fresh : Bool) (old : RegFile) (s : State) : State :=
  let mark := (s.lanes.get n).mark
  let s1 := if fresh then startLane n s else s
  let s2 := setLaneState n 2 (setLane n { s1.lanes.get n with mark := mark, frame := 0 } s1)
  let s3 := if fresh then constChange n 0 old s2.live s2 else s2
  if mark = 0 then s3 else causeOn (16 + n.val) s3

/-- What a lane's tick at `t` does to its state. `fresh` says that commits have applied at this tick, `old` what was in force
before them. [DEDUCED: log 23] -/
def laneStep (n : Lane) (t : Time) (fresh : Bool) (old : RegFile) (s : State) : State :=
  let stop := requested s t (stopBit n)
  let again := requested s t (restartBit n)
  let leave := s.merid.leaving.isSome
  match s.laneState n with
  | 0 => if stop then clearRequests n s else if again then restartCheck n (clearRequests n s) else s
  | 1 =>
    if leave then drainLane n .config s
    else if stop then laneOff n (clearRequests n s) else runLane n fresh old s
  | 2 =>
    if leave then drainLane n .config (calLaneStop n s)
    else if stop then drainLane n .stop (calLaneStop n s)
    else if again then drainLane n .restart (calLaneStop n s)
    else
      let r := s.lanes.get n
      if r.mark = 0 then s
      else
        let s1 := setLane n { r with mark := r.mark - 1 } s
        if r.mark = 1 then endMark n s1 else s1
  | _ =>
    let s1 := if (s.lanes.get n).drained then s else endMark n (haltLane n s)
    if leave ∨ stop = true ∨ (s.lanes.get n).drain ≠ .restart then laneOff n (clearRequests n s1)
    else restartCheck n (setLane n {} s1)

/-- A lane's frame begins (R25): the blocks see the tick. -/
def laneFrame (n : Lane) (t : Time) (c due : Nat) (s : State) : State :=
  let s1 := setLane n { s.lanes.get n with lastTick := t, lastCount := c, launched := [] } s
  if s1.laneState n ≠ 2 then s1
  else
    let f := (s1.lanes.get n).frame
    let s2 := tickPhz n f (tickRange n t due s1)
    let s3 := if injContinuous s2 n then s2 else s2.setSt (Reg.RXFn_STATUS_INJ_ACTIVE.pg n) 0
    calTick n t f (syncInj n t s3)

/-- A lane that runs on counts its frames. -/
def countFrame (n : Lane) (s : State) : State :=
  if s.laneState n = 2 then setLane n { s.lanes.get n with frame := (s.lanes.get n).frame + 1 } s else s

/-! ### the tick -/

/-- A takeover reaches its first tick (R508). [DEDUCED: log 89] -/
def takeoverTick (t : Time) (s : State) : State :=
  match s.twin.takeover with
  | some (cause, from_) =>
    if s.twin.claim ≠ 3 then s
    else
      let us := (tDiff t from_).toNat / (1000 * duPerNs)
      ((({ s with twin := { s.twin with takeover := none } }.bump Reg.TWIN_TAKEOVERS).setSt Reg.TWIN_LAST_TAKEOVER_CAUSE cause).setSt
        Reg.TWIN_LAST_TAKEOVER_DURATION us).raise 0x0B0 2
  | none => s

/-- The source tick at `t`; it is stamped for the lanes that tick (R75). [DEDUCED: log 23] -/
def sourceTick (t : Time) (s : State) : State :=
  let src := s.srcLane
  let oth : Lane := if src = 0 then 1 else 0
  let both := s.merid.other == 0
  let lanes := if both then [src, oth] else [src]
  let c := countAt s t
  let due := fun (n : Lane) => dueRange s n t
  let d := (due src, due oth)
  let v := applyVerdict s t c
  -- the count and the other lane's next tick
  let s1 := (s.setSt2 Reg.MERID_TICK_COUNT_LO Reg.MERID_TICK_COUNT_HI c)
  let drop := fun (w : TickWrite) => w.key == Reg.MERID_TICK_HIGH_HIGH.key && precedes t 0x011 w.at_
  let s2 := { s1 with
    tickQ := s1.tickQ.filter fun w => !drop w
    merid := { s1.merid with
      started := true, lastTick := t, inTick := none, inMarker := false, outTick := none, applyLate := v.2
      other := if both then s.lv Reg.MERID_DIV_N - 1 else s.merid.other - 1 } }
  -- commits and TICK writes together (R35)
  let com := dueCommits s2 lanes t (!s2.on Reg.MERID_APPLY_CTRL_HOLD || v.1)
  let pages := (com.filter fun x => !x.stale).map (·.page)
  let s3 := (com.filter (·.stale)).foldl (fun s x => staleCommit x.page s) (syncInjs t (followInj s2 (takeTicks lanes t s2)))
  let s4 := lanes.foldl (fun s n => countFrame n s) s3
  let s5 := applyPages t pages s4
  let s6 := if both then { s5 with merid := { s5.merid with applyOther := false } } else s5
  let s7 := if v.1 then releaseHold v.2 both s6 else s6
  -- lanes
  if s.mode = 5 then stampSource 12 t (b50TickFrame t c (b50Step (syncApply s7)))
  else
    let s8 := lanes.foldl (fun s n => laneStep n t (!pages.isEmpty) s4.live s) (syncApply s7)
    let s9 := lanes.foldl (fun s n => stampSource (12 + n.val) t (laneFrame n t c (if n = src then d.1 else d.2) s)) s8
    finishLeave (takeoverTick t (tickRaman t s9))

/-- MERIDIAN_TICK (R25, R27, R42, R49): the next source tick falls where it is due; `t` is the instant of a first one, and a follower that has
neither an edge nor lost MERID_IN has none. -/
def execMeridianTick (t : Time) (s : State) : Res :=
  .next (if s.ticksRun then
    match tickDue s t with
    | some d => sourceTick d (advance d s)
    | none => advance t s
  else advance t s)

/-- LANE_DRAIN_END (R50, R51): one lane period after draining began the lane is OFF, or waits for its tick to start again. [DEDUCED: log 24] -/
def execLaneDrainEnd (n : Lane) (t : Time) (s : State) : Res :=
  let s0 := advance t s
  let r := s0.lanes.get n
  .next (if s0.laneState n ≠ 3 ∨ tDiff t (r.lastTick + nsT (s0.lanePeriod n)) < 0 then s0
    else if s0.mode = 5 then b50Off s0
    else if r.drain = .restart ∧ s0.merid.leaving = none then
      if r.drained then s0 else setLane n { r with drained := true } (endMark n (haltLane n s0))
    else finishLeave (laneOff n (clearRequests n (endMark n s0))))

end Sys2Proof.Machine
end

