-- ==== Sys2Proof/Machine/Twin.lean ====
section
/-!
DEFINITION. Twin operation (chapter 19): the claim, heartbeats, takeover, nightwatch. The mirror stands in Mirror.lean.
-/

namespace Sys2Proof.Machine

def State.setTwin (x : Twin) (s : State) : State := { s with twin := x }

/-- TWIN_STATUS.ROLE follows the claim where the unit is one of a pair. [DEDUCED: log 25] -/
def setRole (v : Nat) (s : State) : State := if s.on Reg.TWIN_CFG_EN then s.setSt Reg.TWIN_STATUS_ROLE v else s

/-- The device leaves RUN at once, or CALIBRATE once its procedure has been ended (R50, R482). [DEDUCED: log 90] -/
def quitRun (m : Nat) (s : State) : State :=
  if s.mode = 5 then b50Halt s else if s.merid.leaving.isSome then s else finishLeave (beginLeave m (if s.mode = 4 then stopProc 1 s else s))

/-! ### the claim (R496 to R498) -/

/-- `us` microseconds have passed since `a`. -/
def elapsed (us : Nat) (a : Time) (s : State) : Bool := decide (((us * 1000 * duPerNs : Nat) : Int) ≤ tDiff s.time a)

/-- CLAIM_ASSERT (R496): PEER_ACT_IN has been low for 20 µs. -/
def execClaimAssert (t : Time) (s : State) : Res :=
  let s0 := advance t s
  .next (if s0.twin.claim = 1 ∧ s0.stOn Reg.LDRV_GATE_STATUS_PEER_ACT_IN = false ∧ elapsed 20 s0.twin.claimAt s0 = true then
    driveActOut true { s0 with twin := { s0.twin with claim := 2, claimAt := s0.time } }
  else s0)

/-- The claim completes; after a takeover the unit takes its peer's addresses (R496, R510). -/
def claimComplete (s : State) : State :=
  let take := s.twin.takeover.isSome && s.on Reg.TWIN_CFG_ADDR_TAKE
  syncEmit (setRole 3 { s with twin := { s.twin with
    claim := 3, adopted := if take then s.twin.addrs else s.twin.adopted, announces := if take then 3 else s.twin.announces } })

/-- CLAIM_HOLD_END (R496): ACT_OUT has been held for 20 µs. [DEDUCED: log 90] -/
def execClaimHoldEnd (t : Time) (s : State) : Res :=
  let s0 := advance t s
  .next (if s0.twin.claim ≠ 2 ∨ elapsed 20 s0.twin.claimAt s0 = false then s0
    else if s0.stOn Reg.LDRV_GATE_STATUS_PEER_ACT_IN then driveActOut false { s0 with twin := { s0.twin with claim := 1, claimAt := s0.time } }
    else claimComplete s0)

/-- PEER_ACT_IN rises (R109). -/
def peerRises (t : Time) (s : State) : State := gateChange t (setBall .peerActIn false) s

/-- BACKOFF (R497): side B gives way. -/
def execBackoff (t : Time) (s : State) : Res :=
  let s0 := advance t s
  .next (if s0.twin.claim = 2 ∧ s0.stOn Reg.TWIN_STATUS_SIDE = true then
    let s1 := peerRises t { s0 with twin := { s0.twin with claim := 1, claimAt := s0.time } }
    ((driveActOut false s1).bump Reg.TWIN_BACKOFFS).raise 0x0B0 4
  else s0)

/-- TAKEOVER_FAIL (R498): the claim has not completed in time, and the device returns to the mode it came from. [DEDUCED: log 89, 90] -/
def execTakeoverFail (t : Time) (s : State) : Res :=
  let s0 := advance t s
  .next (if (s0.twin.claim = 1 ∨ s0.twin.claim = 2) ∧ elapsed (s0.lv Reg.TWIN_CLAIM_WAIT) s0.twin.runAt s0 = true then
    let s1 := { s0 with twin := { s0.twin with
      claim := 0, failed := s0.twin.takeover.map (·.1), failedAt := s0.time, takeover := none } }
    quitRun s0.twin.cameFrom (((driveActOut false s1).bump Reg.TWIN_TAKEOVER_FAILS).raise 0x0B0 3)
  else s0)

/-- PEER_CLAIM (R498): ACT_OUT stays asserted and the gate closes. -/
def execPeerClaim (t : Time) (s : State) : Res :=
  let s0 := advance t s
  .next (if s0.twin.claim = 3 then (peerRises t s0).raise 0x0B0 5 else s0)

/-! ### entry to RUN and takeover (R49, R501, R508, R509) -/

/-- A stream of the mirrored subscriber table is bound: it keeps its STREAM_ID, and its first record carries GAP and
TWIN_TAKEOVER with SEQ = LAST_SEQ + 2¹⁶ (R509), and is coded with RESET = 1 (R332). Where no slot is free it is not bound. [DEDUCED: log 88] -/
def bindMirrored (t : Time) (e : Selection × Nat) (s : State) : State × Option SubSel :=
  let last := (Amap.get s.twin.lastSeqs e.2 0).toNat
  let seq := (last + 2 ^ 16) % 2 ^ 32
  let due := fun (c : Ctx) => { c with gapPending := true, taken := true, resetPending := true }
  match s.strm.streams.find? fun y => y.sel = e.1 with
  | some y => (s.setCtx y.slot (due (s.ctx y.slot)), some { sid := y.sid })
  | none =>
    if (freeSlots s).isEmpty then (s, none)
    else
      let b := bindStream t e.1 s
      let want := if s.strm.streams.any fun y => y.sid == e.2 then b.2 else e.2
      let slot := ((b.1.stream b.2).map (·.slot)).getD 0
      let s1 := b.1.updStream b.2 fun y => { y with sid := want }
      (s1.setCtx slot { due (s1.ctx slot) with sid := want, nextSeq := seq }, some { sid := want })

/-- The selections of a mirrored entry. [DEDUCED: log 89] -/
def bindAll (t : Time) : List (Selection × Nat) → State → State × List SubSel
  | [], s => (s, [])
  | e :: r, s =>
    let b := bindMirrored t e s
    let rest := bindAll t r b.1
    (rest.1, b.2.toList ++ rest.2)

/-- A mirrored Ethernet entry becomes ACTIVE under its token, with what is left of its lease (R508, R510). [DEDUCED: log 88] -/
def adoptEntry (t : Time) (e : MirrorEntry) (s : State) : State :=
  let i := e.ctl.token.toNat % 2 ^ 16
  let age := (tDiff t (s.twin.entriesAt.getD t)).toNat
  let left := e.leaseS * duPerS - age
  let s1 := if (s.sub i).st = 0 then s else freeEntry i s
  let b := bindAll t (e.body.sels.zip e.sids) s1
  let x : Sub := {
    gen := e.ctl.token.toNat / 2 ^ 16, st := 2, path := e.ctl.path, granted := e.leaseS, expiry := t + BitVec.ofNat 64 left
    xid := some e.ctl.xid, body := e.body, sels := b.2 }
  syncSubs (b.1.setSub i x)

/-- The zone cores that hold mirrored images start (R508). [DEDUCED: log 89] -/
def startMirrored (s : State) : State :=
  (List.finRange 64).foldl (fun s (n : Core) => if s.twin.images / 2 ^ n.val % 2 = 1 then startCore n s else s) s

/-- The lane frames of a takeover that are marked (R509). -/
def markLanes (s : State) : State :=
  [(0 : Lane), 1].foldl (fun s (n : Lane) =>
    if s.laneState n = 1 then setLane n { s.lanes.get n with mark := s.lv Reg.TWIN_MARK_FRAMES } s else s) s

/-- A takeover starts (R508): 0 heartbeat, 1 relinquish, 2 command. [DEDUCED: log 89] -/
def startTakeover (cause : Nat) (s : State) : State :=
  let s1 := s.twin.entries.foldl (fun s e => adoptEntry s.time e s) (startMirrored (stopNightwatch (setRole 2 s)))
  match entryRefusal s1 false with
  | some r => syncNw none (setRole 1 (refuseEntry false r s1))
  | none =>
    let s2 := markLanes (enterRun s1)
    { s2.setSt Reg.ZONE_EVENT_SEQ ((s2.twin.peerSeq.toNat + 2 ^ 30) % 2 ^ 32) with
      twin := { s2.twin with takeover := some (cause, s.time), failed := none } }

/-- MODE_RUN (R47 to R49, R501). -/
def execModeRun (q : Requester) (t : Time) (s : State) : Res :=
  .next ((advance t s).shadowWrite q 0x010 fun s0 =>
    let s := s0.setNow Reg.SYS_MODE_DEV 3
    match s.mode with
    | 1 =>
      match entryRefusal s false with
      | some r => refuseEntry false r s
      | none => enterRun s
    | 2 => startTakeover 2 (refuse 0 0 s)
    | _ => refuse 1 0 s)

/-- The peer has been declared lost (R500). -/
def peerGone (s : State) : Bool := s.twin.lastBeat.isSome && !s.stOn Reg.TWIN_STATUS_PEER_PRESENT

/-- TAKEOVER_TRIGGER (R501): the peer is lost and AUTO is set, or its last heartbeat carried RELINQUISH. A command triggers by its
own row. [DEDUCED: log 89] -/
def execTakeoverTrigger (cause : Fin 3) (t : Time) (s : State) : Res :=
  let s0 := advance t s
  let go := (cause.val == 0 && peerGone s0 && s0.on Reg.TWIN_CFG_AUTO) || (cause.val == 1 && s0.twin.peerRelinquish)
  .next (if s0.mode = 2 ∧ go then startTakeover cause s0 else s0)

/-- TAKEOVER_RETRY (R501): 1 s after a failed takeover, while the peer stays lost. -/
def execTakeoverRetry (t : Time) (s : State) : Res :=
  let s0 := advance t s
  .next (match s0.twin.failed with
    | some c => if s0.mode = 2 ∧ peerGone s0 = true ∧ elapsed 1000000 s0.twin.failedAt s0 = true then startTakeover c s0 else s0
    | none => s0)

/-- ADDR_ANNOUNCE (R510): one of three announcements of the addresses taken. -/
def execAddrAnnounce (t : Time) (s : State) : Res :=
  let s0 := advance t s
  .next (if s0.twin.announces = 0 then s0
    else
      let s1 := { s0 with twin := { s0.twin with announces := s0.twin.announces - 1 } }
      s1.twin.adopted.foldl (fun s (e : Nat × (Nat × Word × Nat)) => queueStew (Fin.ofNat 2 e.1) (.announce e.2.1 e.2.2.1 e.2.2.2) s) s1)

/-! ### heartbeats (R499, R500, R504) -/

/-- Own heartbeats carry ALIVE = 1. [DEDUCED: log 90] -/
def twinIsAlive (t : Time) (s : State) : Bool :=
  match s.twin.aliveAt with
  | some a => decide (tDiff t a ≤ 4000000 * duPerNs)
  | none => false

/-- HEARTBEAT_SEND (R499). -/
def execHeartbeatSend (t : Time) (s : State) : Res :=
  let s0 := advance t s
  let alive := twinIsAlive t s0
  let m := mappedUnits s0 t
  let hb : Heartbeat := {
    role := s0.st Reg.TWIN_STATUS_ROLE, health := BitVec.ofNat 32 (s0.st Reg.TWIN_HEALTH), mapSec := m / duPerS, mapSubs := m % duPerS
    eventSeq := BitVec.ofNat 32 (s0.st Reg.ZONE_EVENT_SEQ), alive := alive, relinquish := s0.twin.relinquish }
  .next (if s0.on Reg.TWIN_CFG_EN then
    let s1 := { s0.setSt Reg.TWIN_STATUS_ALIVE (bit alive) with
      twin := { s0.twin with dead := if alive then 0 else s0.twin.dead + 1 } }
    if s1.stOn Reg.TWIN_STATUS_LINK_UP then s1.emit (.heartbeat hb) else s1
  else s0)

/-- The health words of one side go into the HEALTH stream (R455, R507). [DEDUCED: log 93] -/
def healthEntry (side : Nat) (w : Nat) (s : State) : State :=
  if s.stOn Reg.SYS_STEWARD_LOAD_SHEDDING && w / 2 ^ 24 % 4 != 0 then s
  else
    let c := if s.ticksRun then s.tickCount else Amap.get s.twin.healthTick side s.tickCount
    let ticks := (c + 2 ^ 40 - Amap.get s.twin.healthTick side c) % 2 ^ 40
    let s0 := { s with twin := { s.twin with healthTick := Amap.put side c s.twin.healthTick } }
    (s0.streamsOf 0x0D fun _ => true).foldl
      (fun s x =>
        let r0 : Rec := { product := 0x0D, width := 3, time := s.time, firstPoint := BitVec.ofNat 32 side }
        let s1 := growOpen x side r0 (fun r => { r with
          body := r.body ++ leBytes 4 w, pointCount := r.pointCount + 1, till := s.time
          frameCount := if r.pointCount = 0 then 0 else r.frameCount + ticks }) s
        match openRec s1 x.sid side with
        | some r => if min x.sel.frames 16 ≤ r.pointCount then closeOpen x.sid side s1 else s1
        | none => s1)
      s0

/-- The standby steers its mapped time to the heartbeat's, corrected by the link delay it has measured (R504): the remaining
adjustment becomes the difference. [DESIGN CHOICE: log 91] -/
def timeFollow (t : Time) (hb : Heartbeat) (s : State) : State :=
  let here : Int := mappedUnits s t
  let peer : Int := (hb.mapSec * duPerS + hb.mapSubs + (Config.twinDelay s.free).toNat : Nat)
  adjWrite (BitVec.ofInt 32 (satS 32 (peer - here) - s.stS Reg.TBASE_ADJ_LEFT)) { s with free := s.free + 1 }

/-- HEARTBEAT_RECEIVE (R499 to R501, R504, R507). -/
def execHeartbeatReceive (t : Time) (hb : Option Heartbeat) (s : State) : Res :=
  let s0 := advance t s
  .next (if !s0.on Reg.TWIN_CFG_EN then s0
    else match hb with
    | none => s0.bump Reg.TWIN_HB_MISSED
    | some h =>
      if !h.alive then s0.bump Reg.TWIN_HB_MISSED
      else
        let s1 := s0.raiseIf (peerGone s0) 0x0B0 1
        let fresh := s1.st Reg.TWIN_PEER_HEALTH != h.health.toNat
        let s2 := { (s1.setSt Reg.TWIN_STATUS_PEER_PRESENT 1).setSt Reg.TWIN_PEER_HEALTH h.health.toNat with
          twin := { s1.twin with lastBeat := some t, peerRelinquish := h.relinquish, peerSeq := h.eventSeq } }
        let s3 := if fresh && h.role == 1 && s2.st Reg.TWIN_STATUS_ROLE == 3
          then healthEntry (1 - s2.st Reg.TWIN_STATUS_SIDE) h.health.toNat s2 else s2
        if s3.mode = 2 ∧ s3.on Reg.TWIN_CFG_TIME_FOLLOW = true then timeFollow t h s3 else s3)

/-- TWIN_ALIVE (R499). -/
def execTwinAlive (q : Requester) (t : Time) (s : State) : Res :=
  .next ((advance t s).shadowWrite q 0x0B0 fun s => { s with twin := { s.twin with aliveAt := some s.time } })

/-- PEER_LOST (R500): no valid heartbeat within N ms of the last one. -/
def execPeerLost (t : Time) (s : State) : Res :=
  let s0 := advance t s
  .next (match s0.twin.lastBeat with
    | some a =>
      if s0.stOn Reg.TWIN_STATUS_PEER_PRESENT = true ∧ ((s0.lv Reg.TWIN_HB_N * 1000000 * duPerNs : Nat) : Int) ≤ tDiff t a then
        (s0.setSt Reg.TWIN_STATUS_PEER_PRESENT 0).raise 0x0B0 0
      else s0
    | none => s0)

/-- SELF_DEMOTE (R500): N heartbeats in a row have carried ALIVE = 0. [DEDUCED: log 90] -/
def execSelfDemote (t : Time) (s : State) : Res :=
  let s0 := advance t s
  .next (if s0.st Reg.TWIN_STATUS_ROLE = 3 ∧ s0.ticksRun = true ∧ s0.lv Reg.TWIN_HB_N ≤ s0.twin.dead then
    quitRun 1 ((driveActOut false s0).raise 0x0B0 9)
  else s0)

/-! ### the link (R495, R513, R551) -/

/-- TWIN_LINK_UP (R495). -/
def execTwinLinkUp (s : State) : Res := .next (s.setSt Reg.TWIN_STATUS_LINK_UP 1)

/-- TWIN_LINK_DOWN (R513, R551). -/
def execTwinLinkDown (s : State) : Res :=
  .next (if s.stOn Reg.TWIN_STATUS_LINK_UP then
    clearRequesters (fun r => r == .twin) ((s.setSt Reg.TWIN_STATUS_LINK_UP 0).raise 0x0B0 6)
  else s)

/-! ### mailbox command TWIN (R508, R511) -/

/-- The reply to a TWIN command. -/
def twinSay (f : Option Func) (refused : Bool) (s : State) : State :=
  mbSay f 0 (leBytes 1 (bit refused) ++ leBytes 1 (s.st Reg.TWIN_STATUS_ROLE) ++ leBytes 2 0 ++ leBytes 4 (s.st Reg.TWIN_HEALTH) ++
    leBytes 4 (s.st Reg.TWIN_PEER_HEALTH)) s

/-- TWIN_STATUS_OP (R511). -/
def execTwinStatusOp (f : Option Func) (s : State) : Res := .next (served f 0x40 (twinSay f false) s)

/-- HANDOVER (R508): accepted on the active unit only. [DEDUCED: log 90] -/
def execHandover (f : Option Func) (t : Time) (s : State) : Res :=
  .next (served f 0x40 (fun s =>
    if s.mode = 3 ∧ s.st Reg.TWIN_STATUS_ROLE = 3 ∧ s.merid.leaving = none then
      twinSay f false (quitRun 1 { s with twin := { s.twin with relinquish := true } })
    else twinSay f true s) (advance t s))

/-- TAKEOVER (R501): accepted on the standby only. -/
def execTakeover (f : Option Func) (t : Time) (s : State) : Res :=
  .next (served f 0x40 (fun s => if s.mode = 2 then twinSay f false (startTakeover 2 s) else twinSay f true s) (advance t s))

/-! ### nightwatch and health (R505, R506) -/

/-- NW_TEST (R505): a run of an enabled test ends. [DEDUCED: log 92] -/
def execNwTest (i : Fin 6) (pass : Bool) (chain : Fin 8) (s : State) : Res :=
  .next (if s.mode ≠ 2 ∨ s.lv Reg.TWIN_NW_TESTS / 2 ^ i.val % 2 = 0 then s
    else
      let put := fun (v : Nat) (k : Nat) (b : Bool) => if b then v ||| 2 ^ k else v &&& (0xFF ^^^ 2 ^ k)
      let s1 := { s with twin := { s.twin with
        pass := put s.twin.pass i pass, ran := put s.twin.ran i true
        injFail := if i = 0 then put s.twin.injFail chain !pass else s.twin.injFail } }
      let s2 := if i = 0 then syncNw (some ((chain.val + 1) % 8)) s1 else s1
      if pass then s2 else (s2.bump Reg.TWIN_NW_FAILS).raise 0x0B0 8)

/-- The health word (R506). [DEDUCED: log 93] -/
def healthOf (s : State) : Nat :=
  let tests := s.lv Reg.TWIN_NW_TESTS
  s.twin.pass % 64 + 2 ^ 6 * s.st Reg.TWIN_STATUS_IN_STEP + 2 ^ 7 * s.st Reg.TWIN_STATUS_LINK_UP + 2 ^ 8 * s.st Reg.TBASE_STATUS_REF_PRESENT +
    2 ^ 9 * s.st Reg.TBASE_STATUS_PLL_LOCK + 2 ^ 10 * bit (!s.stOn Reg.ALM_STATUS_CAL_STATE) + 2 ^ 11 * bit (!s.twin.below) +
    2 ^ 12 * s.st Reg.TWIN_STATUS_ROLE + 2 ^ 15 * bit (s.twin.stood && s.twin.ran &&& tests == tests) + 2 ^ 16 * (s.twin.injFail % 256) +
    2 ^ 24 * (s.twin.seconds % 256)

/-- HEALTH_WORD (R506, R507). [DEDUCED: log 93] -/
def execHealthWord (t : Time) (s : State) : Res :=
  let s0 := advance t s
  let w := healthOf s0
  let s1 := { s0.setSt Reg.TWIN_HEALTH w with twin := { s0.twin with
    seconds := s0.twin.seconds + 1, below := s0.st Reg.SYS_SUPPLY_BELOW != 0 } }
  .next (healthEntry (s1.st Reg.TWIN_STATUS_SIDE) w s1)

end Sys2Proof.Machine
end

