-- ==== Sys2Proof/Machine/Windows.lean ====
section
/-!
DEFINITION. The indexed array windows at 0xC00 to 0xFFF of the pages (R549), and what each page's window words read and do
(R77, R214, R282, R283, R315, R343, R353, R367, R370, R403, R436, R460, R468, R486, R490).
-/

namespace Sys2Proof.Machine

/-! ### indices -/

/-- The bits of the window index that are writable. -/
def indexMask (page off : Nat) : Nat :=
  if 0x0C0 ≤ page ∧ page < 0x100 then (if page % 2 = 1 ∧ off = 0xC00 then 0x1FF else 0)
  else if page = 0x088 ∧ off = 0xC00 then 7
  else (wordFields page off).foldl (fun m f => if f.ty = .rw then m + (2 ^ f.width - 1) * 2 ^ f.lo else m) 0

/-- The index of ZONE after a data access (R283): WORD advances and carries into ENTRY. -/
def zoneNext (i : Nat) : Nat :=
  let n := (i % 4096 * 16 + i / 4096 % 16 + 1) % 65536
  n / 16 + n % 16 * 4096 + i / 65536 % 2 * 65536

/-- The index of a page after an access to the data word at `off` (R549). -/
def nextIndex (page off : Nat) (write : Bool) (i : Nat) : Nat :=
  match page with
  | 0x014 => if off = 0xC08 then (i + 1) % 4096 else i
  | 0x028 | 0x029 => if off = 0xC04 ∧ write then i / 65536 % 8 * 65536 + (i + 1) % 32768 else i
  | 0x02C | 0x02D => if off = 0xC04 ∧ write then i / 512 % 2 * 512 + (i + 1) % 512 else i
  | 0x038 => if off = 0xC04 then zoneNext i else i
  | 0x090 => if off = 0xC04 then i / 65536 % 2 * 65536 + (i / 256 % 16 + 1) % 16 * 256 + i % 256 else i
  | _ =>
    if 0x040 ≤ page ∧ page < 0x080 then (if off = 0xC04 then zcNextIndex i else i)
    else if page = 0x0A8 ∨ (0x0C0 ≤ page ∧ page < 0x100) then
      (if off = 0xC04 then i / 256 % 2 * 256 + (i + 1) % 256 else i)
    else i

/-- The mailbox that a page's window holds (R460). -/
def pageMbox (page : Nat) : Option (Option Func) :=
  if page = 0x0A8 then some none
  else if 0x0C1 ≤ page ∧ page < 0x100 ∧ page % 2 = 1 then some (some (Fin.ofNat 32 ((page - 0x0C0) / 2))) else none

/-! ### reads -/

/-- A number's `w` bits from bit `lo` of a word on. -/
def at_ (lo v : Nat) : Nat := 2 ^ lo * v

/-- A context slot's words (R343). -/
def ctxWord (s : State) (c off : Nat) : Nat :=
  let x := s.ctx c
  match off with
  | 0xC04 => (if x.bound then x.sid else 0) + at_ 16 x.pred + at_ 19 (bit x.auto) + at_ 20 (bit x.pass) + at_ 21 (bit x.bound) + at_ 24 x.resync
  | 0xC08 => x.quota
  | 0xC10 => ctxState s c + at_ 3 (bit (x.bound && histKept x.r x.w (codeBytes x.width))) + at_ 8 (ctxEngine s c)
  | 0xC14 => x.lastSeq
  | 0xC18 => x.bufs.length
  | _ => 0

/-- The words of a subscriber entry (R403). The address stands in words 2 to 5 as its 16 bytes, byte 0 in word 2 [7:0]. [DEDUCED: log 71] -/
def subWord (s : State) (i k : Nat) : Nat :=
  let x := s.sub i
  let sum := fun (f : SubSel → Nat) => x.sels.foldl (fun a y => a + f y) 0
  let addr := match x.path with | .eth _ a _ => flowAddr x.body a | .mailbox _ => 0
  if x.st = 0 then 0
  else match k with
    | 0 => tokenOf s i
    | 1 => x.st + at_ 2 (pathCode x.path) + at_ 8 (match x.path with | .mailbox f => f.val | _ => 0) + at_ 16 (x.sels.length % 32)
    | 2 | 3 | 4 | 5 => leNat (((beBytes 16 addr).drop (4 * (k - 2))).take 4)
    | 6 => x.body.dataPort % 65536
    | 7 => leaseLeft s s.time i
    | 8 => sum (·.sent)
    | 9 => sum (·.drops)
    | _ => 0

/-- A word of a light-drive loop (R117). -/
def loopWord (l : Loop) (off : Nat) : Nat :=
  match off with
  | 0xC04 => l.kp | 0xC08 => l.ki | 0xC0C => l.lo | 0xC10 => l.hi | 0xC14 => l.satMs | _ => 0

/-- ICU_SRC_STATE (R468). -/
def srcState (s : State) (i : Nat) : Nat :=
  bit (srcPending s i) + 2 * bit (claimer s i).isSome + 4 * bit (srcAsserted s i) + 8 * bit (Amap.find i s.icu.stranded).isSome +
    at_ 8 (srcAt s i)

/-- The window word at `off` of a page under index `i`, without what its read does; `q` reads. -/
def winWord (s : State) (q : Requester) (page off i : Nat) : Nat :=
  let held := fun (v : Nat) => ((s.snapOf q (regAddr page off)).map (·.toNat)).getD v
  match page with
  | 0x011 => let u := Amap.get s.budget i (0, 0); if off = 0xC04 then u.1 else if off = 0xC08 then u.2 else 0
  | 0x013 => if off = 0xC08 ∨ off = 0xC0C then held 0 else 0
  | 0x014 =>
    if off = 0xC04 then (Amap.get s.alm.factory i 0).toNat
    else if off = 0xC08 then (Amap.get s.alm.user i 0).toNat
    else if off = 0xC0C then (if i < 0x500 then ux 32 (almVal s.alm.factory s.alm.eff i) else 0) else 0
  | 0x015 =>
    if off = 0xC04 then (List.range 32).foldl (fun a b => a + 2 ^ b * bit (Amap.get s.stew.defaulted (32 * i + b) false)) 0 else 0
  | 0x018 => loopWord (s.loop i) off
  | 0x028 | 0x029 =>
    if off = 0xC04 ∧ i % 32768 < 20000 then
      (Amap.get (s.shotp.get (Fin.ofNat 2 (page - 0x028))).mfUser (i / 65536 % 8 * 32768 + i % 32768) 0).toNat else 0
  | 0x02A | 0x02B =>
    let p := s.phz.get (Fin.ofNat 2 (page - 0x02A))
    (match off with
    | 0xC04 => Amap.get p.acc i 0 % 2 ^ 32
    | 0xC08 => held (Amap.get p.acc i 0 / 2 ^ 32)
    | 0xC0C => ux 24 (Amap.get p.rho i 0)
    | _ => 0)
  | 0x02C | 0x02D =>
    let n : Lane := Fin.ofNat 2 (page - 0x02C)
    let x := s.slow.get n
    (match off with
    | 0xC04 => ux 16 (coefOf x (i / 512 % 2) (i % 512))
    | 0xC08 => coefSum x (i / 512 % 2) (s.lv (Reg.SLOWn_FIR_CFG_TAPS.pg n)) % 2 ^ 18
    | _ => 0)
  | 0x038 =>
    if off = 0xC04 then
      (Amap.get s.zone.shadow (i / 65536 % 2 * 65536 + (if i / 65536 % 2 = 1 then i % 256 else i % 4096) * 16 + i / 4096 % 16) 0).toNat else 0
  | 0x039 =>
    let g := s.seg i
    (match off with
    | 0xC04 => g.st + at_ 4 g.hold + at_ 16 g.zone
    | 0xC08 => segId i g
    | _ => 0)
  | 0x080 => ctxWord s i off
  | 0x088 | 0x089 =>
    let e := Amap.get s.regionShadow (i % 8) (0, 0)
    if off = 0xC14 then Amap.get (s.memc.get (Fin.ofNat 2 (page - 0x088))).unitCe (s.winIndex q (0x1000 + page)) 0
    else if page = 0x088 ∧ off = 0xC04 then e.1
    else if page = 0x088 ∧ off = 0xC08 then e.2 else 0
  | 0x090 => if off = 0xC04 ∧ i / 65536 % 2 = 0 then subWord s (i % 256) (i / 256 % 16) else 0
  | 0x0A0 => if off = 0xC04 then srcCfg s i else if off = 0xC08 then srcState s i else 0
  | _ =>
    if 0x040 ≤ page ∧ page < 0x080 then
      let v := zcWindow s (page - 0x040) (i / 65536 % 4) (i % 8192)
      if off = 0xC04 then v % 2 ^ 32 else if off = 0xC08 then held (v / 2 ^ 32) else 0
    else match pageMbox page with
      | some f =>
        let m := s.mb (mbKey f)
        (match off with
        | 0xC04 => (Amap.get (if i / 256 % 2 = 0 then m.req else m.rep) (i % 256) 0).toNat
        | 0xC0C => bit m.busy + 2 * bit m.done + at_ 16 m.rejects
        | _ => 0)
      | none => 0

/-- A read of a data word: the answer, then what the read does: it takes snapshots, clears RC words, and advances the index. -/
def winRead (q : Requester) (page off : Nat) (s : State) : State :=
  let i := s.winIndex q page
  let v := winWord s q page off i
  let s1 := (s.answer v).setWinIndex q page (nextIndex page off false i)
  match page with
  | 0x011 =>
    if off = 0xC08 then { s1 with budget := Amap.put i ((Amap.get s.budget i (0, 0)).1, 0) s1.budget } else s1
  | 0x02A | 0x02B =>
    if off = 0xC04 then s1.takeSnap q (regAddr page 0xC08) (Amap.get (s.phz.get (Fin.ofNat 2 (page - 0x02A))).acc i 0 / 2 ^ 32) else s1
  | 0x088 | 0x089 =>
    let ch : Fin 2 := Fin.ofNat 2 (page - 0x088)
    let c := s1.memc.get ch
    if off = 0xC14 then s1.setMemc ch { c with unitCe := Amap.del c.unitCe (s.winIndex q (0x1000 + page)) } else s1
  | _ =>
    if 0x040 ≤ page ∧ page < 0x080 ∧ off = 0xC04 then
      zcHostRead (page - 0x040) (i / 65536 % 4) (i % 8192)
        (s1.takeSnap q (regAddr page 0xC08) (zcWindow s (page - 0x040) (i / 65536 % 4) (i % 8192) / 2 ^ 32))
    else s1

/-! ### writes -/

/-- The state that a command's outcome leaves, or the one before where it has none. -/
def outcome (r : Res) (s : State) : State := match r with | .next x => x | _ => s

/-- A key word (R403): word 7 loads the key, a write under WORD 15 clears it. [DEDUCED: log 72] -/
def keyWrite (k word : Nat) (w : Word) (s : State) : State :=
  if word = 15 then { s with strm := { s.strm with keys := Amap.del s.strm.keys k } }
  else if 7 < word then s
  else
    let ws := Amap.put (k * 8 + word) w s.strm.keyWords
    let key := (List.range 8).flatMap fun j => leBytes 4 (Amap.get ws (k * 8 + j) 0).toNat
    { s with strm := { s.strm with keyWords := ws, keys := if word = 7 then Amap.put k key s.strm.keys else s.strm.keys } }

/-- A write of a loop's word (R117). -/
def loopWrite (i off w : Nat) (s : State) : State :=
  let l := s.loop i
  let v := w % 65536
  s.setLoop i (match off with
    | 0xC04 => { l with kp := v } | 0xC08 => { l with ki := v } | 0xC0C => { l with lo := v }
    | 0xC10 => { l with hi := v } | 0xC14 => { l with satMs := v } | _ => l)

/-- A write of a mailbox's data word (R460). -/
def mboxWrite (f : Option Func) (i : Nat) (w : Word) (s : State) : State :=
  let k := mbKey f
  let m := s.mb k
  if i / 256 % 2 = 1 ∨ m.busy = true then mbReject k s else s.setMb k { m with req := Amap.put (i % 256) w m.req }

/-- A write of the data word at `off`, whose index does not advance by the write's own row. -/
def winData (q : Requester) (page off : Nat) (w : Word) (s : State) : State :=
  let i := s.winIndex q page
  let v := w.toNat
  match page with
  | 0x015 =>
    let left := Amap.drop (fun p => decide (p / 32 = i) && v / 2 ^ (p % 32) % 2 == 1) s.stew.defaulted
    if off = 0xC04 then { s with stew := { s.stew with defaulted := left } } else s
  | 0x018 => loopWrite i off v s
  | 0x080 =>
    if off = 0xC04 then outcome (execCtxCfgWrite q w s) s
    else if off = 0xC08 then s.setCtx i { s.ctx i with quota := v % 65536 }
    else if off = 0xC0C then outcome (execCtxReset q w s) s else s
  | 0x088 =>
    if off = 0xC04 then outcome (execRegionWrite q false w s) s
    else if off = 0xC08 then outcome (execRegionWrite q true w s) s else s
  | 0x090 => if off = 0xC04 ∧ i / 65536 % 2 = 1 then keyWrite (i % 4) (i / 256 % 16) w s else s
  | 0x0A0 => if off = 0xC04 then outcome (execSrcCfgWrite q w s) s else s
  | _ =>
    match pageMbox page with
    | some f =>
      if off = 0xC04 then mboxWrite f i w s
      else if off = 0xC08 ∧ v % 2 = 1 then (if (s.mb (mbKey f)).busy then mbReject (mbKey f) s else mbTake f s) else s
    | none => if 0x040 ≤ page ∧ page < 0x080 ∧ off = 0xC08 then s.stageWord q (regAddr page 0xC08) (BitVec.ofNat 32 (v % 256)) else s

/-- A write of the window word at `off` (R549): the index, or a data word, whose index advances as the page states. -/
def winWrite (q : Requester) (page off : Nat) (w : Word) (s : State) : State :=
  if off = 0xC00 then s.setWinIndex q page (w.toNat &&& indexMask page off)
  else if off = 0xC10 ∧ (page = 0x088 ∨ page = 0x089) then s.setWinIndex q (0x1000 + page) (w.toNat % 64)
  else if off = 0xC04 ∧ (page = 0x028 ∨ page = 0x029) then outcome (execMfDataWrite q (Fin.ofNat 2 (page - 0x028)) w s) s
  else if off = 0xC04 ∧ (page = 0x02C ∨ page = 0x02D) then outcome (execCoefWrite q (Fin.ofNat 2 (page - 0x02C)) w s) s
  else if off = 0xC04 ∧ page = 0x038 then outcome (execZoneDataWrite q w s) s
  else if off = 0xC08 ∧ page = 0x014 then outcome (execAlmUserWrite q w s) s
  else if off = 0xC04 ∧ 0x040 ≤ page ∧ page < 0x080 then zcMemWriteOp q (page - 0x040) w s
  else (winData q page off w s).setWinIndex q page (nextIndex page off true (s.winIndex q page))

/-- WINDOW_ACCESS (R549). -/
def execWindowAccess (q : Requester) (page off : Nat) (w : Option Word) (s : State) : Res :=
  .next (if off < 0xC00 ∨ 0x1000 ≤ off ∨ off % 4 ≠ 0 then s
    else match w with
      | some v => s.busWrite q page (winWrite q page off v)
      | none =>
        if off = 0xC00 then s.busRead q page fun s => s.answer (s.winIndex q page)
        else if off = 0xC10 ∧ (page = 0x088 ∨ page = 0x089) then s.busRead q page fun s => s.answer (s.winIndex q (0x1000 + page))
        else if off = 0xC04 ∧ page = 0x013 then outcome (execQdataPop q s s.time) s
        else s.busRead q page (winRead q page off))

end Sys2Proof.Machine
end

