-- ==== Sys2Proof/Machine/Pages.lean ====
section
/-!
DEFINITION. The common part of the register pages (chapter 22): what a register reads (R544, R546, R548, R550, R576), interrupt
status and RC counters (R5, R518), 40-bit pairs (R548), and the block state that a page soft reset resets (R551, R552).
-/

namespace Sys2Proof.Machine

/-! ### the page index (R550) -/

/-- TYPE, number of pages and INSTANCE of a present page. -/
def pageKind (p : Nat) : Option (Nat × Nat × Nat) :=
  let rows : List (Nat × Nat × Nat) :=
    [(0x010, 1, 0x01), (0x011, 1, 0x02), (0x012, 1, 0x03), (0x013, 1, 0x04), (0x014, 1, 0x05), (0x015, 1, 0x06), (0x018, 1, 0x07),
     (0x01A, 2, 0x08), (0x020, 2, 0x09), (0x022, 1, 0x0A), (0x028, 2, 0x0B), (0x02A, 2, 0x0C), (0x02C, 2, 0x0D), (0x030, 1, 0x0E),
     (0x031, 1, 0x0F), (0x038, 1, 0x10), (0x039, 1, 0x11)] ++
    [(0x040, 64, 0x12), (0x080, 1, 0x13), (0x081, 1, 0x14), (0x088, 2, 0x15), (0x090, 1, 0x16), (0x091, 2, 0x17), (0x093, 1, 0x18),
     (0x098, 1, 0x19), (0x0A0, 1, 0x1A), (0x0A8, 1, 0x1B), (0x0B0, 1, 0x1C), (0x0C0, 64, 0x1D), (0x200, 66, 0x1E)]
  (rows.find? fun r => decide (r.1 ≤ p ∧ p < r.1 + r.2.1)).map fun r => (r.2.2, r.2.1, p - r.1)

/-- ENABLE is writable (R544): ZC, DCMP and ETH. -/
def gateable (p : Nat) : Bool := decide (0x040 ≤ p ∧ p < 0x080) || p == 0x081 || p == 0x091 || p == 0x092

/-- PAGE_CAPS (R544). -/
def pageCaps (p : Nat) : Nat :=
  let l := Reg.pageFields p
  ((pageKind p).map (·.2.1)).getD 0 % 256 + at_ 8 (bit (l.any fun f => f.eff == .commit && decide (f.off < 0x800))) +
    at_ 9 (bit ((l.any fun f => decide (0xC00 ≤ f.off)) || (pageMbox p).isSome)) + at_ 10 (bit (p == 0x014 || p == 0x038)) +
    at_ 11 (bit (gateable p))

/-- The clock of a lane's block runs for the lane (R24, R576): the flags say which lane modes use it. [DEDUCED: log 101] -/
def laneClock (s : State) (n : Lane) (thermal trace b50 : Bool) : Bool :=
  if s.mode = 5 then b50 && n == 0 && s.laneState 0 != 0
  else
    let m := s.laneMode n
    s.laneState n != 0 && (if m = 5 then thermal else if m = 7 then trace else m != 0)

/-- A running calibration procedure of `procs` names the lane (R476). [DEDUCED: log 101] -/
def calUses (s : State) (n : Lane) (procs : List Nat) : Bool :=
  s.stOn Reg.ALM_STATUS_CAL_BUSY && procs.contains (s.st Reg.ALM_STATUS_PROC) && s.cal.lanes.contains n

/-- A standby unit runs nightwatch test `i` (R505). [DEDUCED: log 101] -/
def nwUses (s : State) (i : Nat) : Bool := s.mode == 2 && s.lv Reg.TWIN_NW_TESTS / 2 ^ i % 2 == 1

/-- The clock of a SLOW block runs. [DEDUCED: log 101] -/
def slowClock (s : State) (n : Lane) : Bool := laneClock s n false false false || nwUses s 1

/-- PAGE_STATUS.CLOCKED (R576). [DEDUCED: log 101] -/
def pageClocked (s : State) (p : Nat) : Bool :=
  let n : Lane := Fin.ofNat 2 p
  let raman := [(0 : Lane), 1].any fun n => s.laneState n != 0 && (s.laneMode n == 5 || s.laneMode n == 6)
  let bath := s.stOn Reg.ALM_STATUS_CAL_BUSY && s.st Reg.ALM_STATUS_PROC == 6
  s.mode != 0 && (match p with
  | 0x01A | 0x01B => laneClock s n false true true || nwUses s 4
  | 0x020 | 0x021 => laneClock s n false true true || calUses s n [1, 2, 3] || (nwUses s 0 && nwInjects s n)
  | 0x028 | 0x029 | 0x02A | 0x02B => laneClock s n false false true || nwUses s 1
  | 0x02C | 0x02D => slowClock s n
  | 0x022 => raman || bath
  | 0x030 => raman || bath || nwUses s 1
  | 0x038 | 0x039 => slowClock s 0 || slowClock s 1
  | 0x080 => !s.strm.streams.isEmpty || nwUses s 1
  | 0x081 => s.on (pageEnable p) && (s.st (Reg.DCMP_Ee_STATUS_STATE.ix 0) == 1 || s.st (Reg.DCMP_Ee_STATUS_STATE.ix 1) == 1)
  | 0x031 => s.auxState != 0 || (s.stOn Reg.ALM_STATUS_CAL_BUSY && s.st Reg.ALM_STATUS_PROC == 5)
  | _ => s.on (pageEnable p))

/-! ### reads -/

/-- TWIN_MIRROR_AGE in ms (R512): the age of the oldest periodic item. -/
def mirrorAge (s : State) : Nat :=
  let ages := (s.twin.calAt.toList ++ s.twin.entriesAt.toList ++ s.twin.ctxAt.map (·.2)).map fun a =>
    (max 0 (tDiff s.time a)).toNat / (1000000 * duPerNs)
  min 65535 (ages.foldl max 0)

/-- A word of register fields: an RW field reads what was written, or with VIEW_LIVE what is in force (R546); WO fields read 0. [DESIGN CHOICE: log 9; DEDUCED: log 99] -/
def fieldsWord (s : State) (view : Bool) (p off : Nat) : Nat :=
  (wordFields p off).foldl (fun a f =>
    a + at_ f.lo (match f.ty with
      | .rw => if view then s.lv f else s.sh f
      | .wo => 0
      | _ => s.st f)) 0

/-- Nanoseconds since the present run of a main-path RANGE began. -/
def runNs (s : State) : Nat := (max 0 (tDiff s.time s.cal.runAt)).toNat / duPerNs

/-- The range of a lane: ranges 1, 0, 2 and 3 for 22.5 ms each in a run of a main-path RANGE (R479), and in turn in the windows of a squeezed one
(R480); else the range in force. -/
def rangeNow (s : State) (n : Lane) : Nat :=
  let at_ := fun (k : Nat) => [1, 0, 2, 3].getD k 1
  let w := duskWindow s n
  if s.st Reg.ALM_STATUS_PROC = 3 ∧ s.cal.squeeze = false ∧ s.cal.todo.head? = some n ∧ (s.cal.stage = 2 ∨ s.cal.stage = 3) then
    at_ (min 3 (runNs s / 22500000))
  else if squeezing s n ∧ s.laneState n = 2 ∧ !(s.dasMode n = 1 ∧ !(s.lanes.get n).withheld) ∧ !tBefore s.time w.1 ∧ tBefore s.time w.2 then
    at_ (Amap.get s.cal.windows n.val 0 % 4)
  else s.range n

/-- ALM_CAL_PROGRESS (R491): of a main-path RANGE the share of its runs that is over, of all its lanes. -/
def calProgress (s : State) : Nat :=
  let l := s.cal.lanes.length
  if s.st Reg.ALM_STATUS_PROC = 3 ∧ s.cal.squeeze = false ∧ l ≠ 0 then
    let part := min 500 (runNs s * 1000 / 180000000)
    let lane := match s.cal.stage with | 2 => part | 3 => 500 + part | 4 => 1000 | _ => 0
    (1000 * (l - s.cal.todo.length) + lane) / l
  else s.st Reg.ALM_CAL_PROGRESS

/-- A channel awaits the host bytes of a COPY (R423). -/
def copyReads (s : State) : Bool := s.pcie.chans.any fun e =>
  s.chanState e.1 == 1 && s.lv (Reg.DMACHn_CFG_MODE.pg e.1) == 3 && s.on (Reg.DMACHn_CFG_DIR.pg e.1) && !e.2.fetch &&
    (e.2.desc.map fun d => decide (e.2.off < d.len)).getD false

/-- A register that no field of State holds as it reads: its value follows from the state as it stands. [DESIGN CHOICE: log 9; DEDUCED: log 100] -/
def computedWord (s : State) (p off : Nat) : Option Nat :=
  if 0x040 ≤ p ∧ p < 0x080 then
    let c := s.core (p - 0x040)
    (match off with
    | 0x804 => some (if s.coreState (p - 0x040) = 1 ∨ s.coreState (p - 0x040) = 2 then 0 else c.reg 63)
    | 0x810 => some (c.cycles % 2 ^ 32) | 0x814 => some (c.cycles / 2 ^ 32 % 256) | 0x818 => some c.evq.length | _ => none)
  else if 0x200 ≤ p ∧ p < 0x242 then
    let t := p - 0x200
    let st := (s.tgt t).stack
    (match off with
    | 0x058 => some ((s.tgt t).edges &&& 0xFFF0)
    | 0x800 => some (((icuBest s t).map (·.1)).getD 0x3FF)
    | 0x808 => some (privPending s t)
    | 0x80C => some (st.length + at_ 8 ((st.head?.map (·.2)).getD 0) + at_ 12 ((st.head?.map (·.1)).getD 0x3FF))
    | 0x810 => some (bit (icuOnline s t) + 2 * bit (icuRequest s t)) | _ => none)
  else if 0x0C0 ≤ p ∧ p < 0x100 ∧ off = 0x800 ∧ s.mode ≠ 5 then some (fieldsWord s false p off + at_ 4 (bit (noData s (p - 0x0C0))))
  else
    let m := mappedUnits s s.time
    (match p, off with
    | 0x012, 0x800 => some (s.time.toNat % 2 ^ 32) | 0x012, 0x804 => some (s.time.toNat / 2 ^ 32)
    | 0x012, 0x808 => some (m % duPerS % 2 ^ 32) | 0x012, 0x80C => some (m % duPerS / 2 ^ 32)
    | 0x012, 0x810 => some (m / duPerS % 2 ^ 32) | 0x012, 0x814 => some (m / duPerS / 2 ^ 32 % 65536)
    | 0x014, 0x808 => some (calProgress s)
    | 0x015, 0x804 => some (s.stew.defaulted.length % 1024)
    | 0x080, 0x804 => some (cmpLoad s)
    | 0x080, 0x810 => some (slotCount s)
    | 0x088, 0x830 | 0x088, 0x834 | 0x089, 0x830 | 0x089, 0x834 | 0x098, 0x814 => some (Config.measured (regAddr p off) s.free).toNat
    | 0x098, 0x804 => some (if copyReads s then (Config.measured (regAddr p off) s.free).toNat % 257
      else (s.pcie.chans.filter fun e => e.2.fetch).length)
    | 0x018, 0x828 | 0x018, 0x82C | 0x018, 0x830 | 0x018, 0x834 => some (pumpCode s ((off - 0x828) / 4))
    | 0x022, 0x800 => some (bit (apdRamping s 0) + 2 * bit (apdRamping s 1) + at_ 2 (s.st Reg.TSF_STATUS_APD_LIMITED))
    | 0x020, 0x800 | 0x021, 0x800 =>
      let n : Lane := Fin.ofNat 2 p
      some (fieldsWord s false p off - s.range n + rangeNow s n - (if s.stOn (Reg.RXFn_STATUS_INJ_ACTIVE.pg n) && !injActive s n then 16 else 0))
    | 0x0B0, 0x824 => some (mirrorAge s)
    | _, _ => none)

/-- A header register (R544). [DESIGN CHOICE: log 9] -/
def headerWord (s : State) (q : Requester) (p off : Nat) : Nat :=
  let k := (pageKind p).getD (0, 0, 0)
  let en := if gateable p then s.lv (pageEnable p) else 1
  match off with
  | 0x000 => k.1 + at_ 8 k.2.2 + at_ 16 1 + at_ 24 0xB0
  | 0x004 => pageCaps p
  | 0x008 => en + at_ 2 (bit (s.req.viewLive.contains (q, p)))
  | 0x00C => en + at_ 1 (bit (pageClocked s p)) + at_ 2 (s.st (pageResetRejected p))
  | 0x010 => s.st (irqStatus p)
  | 0x014 => s.lv (irqEnable p)
  | 0x01C => s.st (commitState p) + at_ 3 (s.st (commitHeld p)) + at_ 16 (s.st (commitApplyTick p))
  | 0x020 => pageCheck s p
  | _ => 0

/-- The B50 window (R540). [DESIGN CHOICE: log 9] -/
def b50Word (s : State) (off : Nat) : Nat :=
  match off with
  | 0x008 => s.laneState 0 + at_ 4 (s.st Reg.B50_STATUS_REJECT) + at_ 8 (s.st Reg.B50_STATUS_EMIT) + at_ 9 (s.st Reg.TBASE_STATUS_REF_LOST)
  | 0x0B4 => s.time.toNat % 2 ^ 32
  | 0x0B8 => s.time.toNat / 2 ^ 32
  | _ => fieldsWord s false 0 off

/-- What a read of a register answers, its effects aside (R4, R6, R546, R548, R550). [DESIGN CHOICE: log 9] -/
def readWord (s : State) (q : Requester) (p off : Nat) : Nat :=
  if off % 4 ≠ 0 ∨ 0x1000 ≤ off then 0
  else match s.snapOf q (regAddr p off) with
    | some v => v.toNat
    | none =>
      if p = 0 then (if s.mode = 5 then b50Word s off else 0)
      else if !pagePresent p then 0
      else if off < 0x040 then headerWord s q p off
      else if 0xC00 ≤ off then winWord s q p off (s.winIndex q p)
      else (computedWord s p off).getD (fieldsWord s (s.req.viewLive.contains (q, p)) p off)

/-- PAIR_LO_READ (R548): a read of a LO word snapshots its HI word. -/
def execPairLoRead (q : Requester) (page off : Nat) (s : State) : Res :=
  .next (s.busRead q page fun s =>
    if 0xC00 ≤ off ∧ page ≠ 0 then outcome (execWindowAccess q page off none s) s
    else
      let hi := readWord { s with req := { s.req with snap := [] } } q page (off + 4)
      (s.takeSnap q (regAddr page (off + 4)) hi).answer (readWord s q page off))

/-! ### interrupt status and counters -/

/-- IRQ_STATUS_CLEAR (R4, R5, R448). -/
def execIrqStatusClear (q : Requester) (page : Nat) (bits sets : Word) (s : State) : Res :=
  .next (s.busWrite q page fun s => if pagePresent page && page != 0 then s.w1c (irqStatus page) bits.toNat sets.toNat else s)

/-- RC_READ (R5, R518): the answer leaves out the events not yet in the sample, and they stay for the next read. SYS_SUPPLY_MIN
reloads with the rail's present value, which `missed` gives (R574). [DEDUCED: log 100] -/
def execRcRead (q : Requester) (page off : Nat) (missed : Nat) (s : State) : Res :=
  .next (if 0xC00 ≤ off ∧ page ≠ 0 then outcome (execWindowAccess q page off none s) s
    else s.busRead q page fun s =>
      match (wordFields page off).find? fun f => f.ty == .rc with
      | none => s.answer (readWord s q page off)
      | some f =>
        let v := s.st f
        if page = 0x010 ∧ 0x820 ≤ off ∧ off < 0x82C then (s.answer v).setSt f missed
        else
          let m := min v missed
          (s.answer (v - m)).setSt f m)

/-! ### pairs (R548) -/

/-- PAIR_HI_WRITE: bits [39:32] are staged for the requester; the HI word of a steward timer is staged whole (R312, R469). -/
def execPairHiWrite (q : Requester) (page off : Nat) (w : Word) (s : State) : Res :=
  let byte := (page == 0x011 && off == 0x05C) || (decide (0x040 ≤ page ∧ page < 0x080) && off == 0xC08)
  let timer := (page == 0x200 || page == 0x201) && off == 0x060
  .next (if byte then
      let k := fun (s : State) => s.stageWord q (regAddr page off) (BitVec.ofNat 32 (w.toNat % 256))
      s.busWrite q page k
    else if timer then s.busWrite q page fun s => s.stageWord q (regAddr page off) w
    else s)

/-- The LO word of a steward timer commits the pair with the requester's staged HI, or keeps bits [63:32] (R312, R457). -/
def timerLoWrite (q : Requester) (c : Fin 2) (lo : Nat) (s : State) : State :=
  let a := regAddr (0x200 + c) 0x060
  let hi := ((s.staged q a).map (·.toNat)).getD (s.lv (Reg.ICUTt_TIMER_HI.pg c))
  stewTimerCommit c (hi * 2 ^ 32 + lo) (((s.setNow (Reg.ICUTt_TIMER_HI.pg c) hi).setNow (Reg.ICUTt_TIMER_LO.pg c) lo).unstage q a)

/-- PAIR_LO_WRITE. -/
def execPairLoWrite (q : Requester) (t : Time) (page off : Nat) (w : Word) (s : State) : Res :=
  let s0 := advance t s
  .next (if page = 0x011 ∧ off = 0x058 then s0.shadowWrite q page (applyTickWrite q w.toNat)
    else if (page = 0x200 ∨ page = 0x201) ∧ off = 0x05C then s0.shadowWrite q page (timerLoWrite q (Fin.ofNat 2 page) w.toNat)
    else if 0x040 ≤ page ∧ page < 0x080 ∧ off = 0xC04 then s0.busWrite q page (zcMemWriteOp q (page - 0x040) w)
    else s0)

end Sys2Proof.Machine
end

