-- ==== Sys2Proof/Machine/Mirror.lean ====
section
/-!
DEFINITION. The twin mirror (R502, R503, R511): what the active unit sends, and what the standby does with it.
-/

namespace Sys2Proof.Machine

/-! ### emission holds (R563, R571) -/

/-- Emission is held off for a dip under LIGHT_HOLD, or else for the temperature. [DEDUCED: log 94] -/
def holdFor (dip : Bool) (t : Time) (s : State) : State :=
  holdLight t { s with holds := if dip then ⟨true, s.holds.snd⟩ else ⟨s.holds.fst, true⟩ }

/-- One of the two causes ends; the hold ends with the last. [DEDUCED: log 94] -/
def endHold (dip : Bool) (s : State) : State :=
  let s1 := { s with holds := if dip then ⟨false, s.holds.snd⟩ else ⟨s.holds.fst, false⟩ }
  if s1.holds.fst || s1.holds.snd then s1 else releaseLight s1

/-! ### NOW fields -/

/-- The pins that the device drives follow GPIO_DIR and GPIO_OUT (R470); an edge that this makes at a pin is a row GPIO_EDGE. -/
def driveGpio (old s : State) : State :=
  let pins := fun (x : State) => (x.lv Reg.MGMT_GPIO_DIR, x.lv Reg.MGMT_GPIO_DIR &&& x.lv Reg.MGMT_GPIO_OUT)
  if pins s = pins old then s else s.emit (.gpio (pins s).1 (pins s).2)

/-- No pin is driven: the pins in reset. -/
def gpioOff (s : State) : State := if s.lv Reg.MGMT_GPIO_DIR = 0 then s else s.emit (.gpio 0 0)

/-- The pumps whose enable has changed: one enabled with the gate open ramps (R103), one disabled does not. -/
def pumpEffects (old s : State) : State :=
  (List.range 4).foldl (fun s m =>
    let f := Reg.LDRV_PCm_CFG_EN.ix m
    let r := s.st Reg.LDRV_GATE_STATUS_RAMPING
    if s.on f && !old.on f then (if s.gateOpen && !s.stOn Reg.SYS_SUPPLY_HOLDING && !pumpFaulty s m then rampPump m s else s)
    else if old.on f && !s.on f then s.setSt Reg.LDRV_GATE_STATUS_RAMPING (r &&& (15 ^^^ 2 ^ m)) else s) s

/-- Sources, or EN of the converter, have changed (R242, R249, R252). -/
def auxEffects (old s : State) : State :=
  let moved := fun (i : Nat) => [Reg.AUX_SRCs_CODE, Reg.AUX_SRCs_HI, Reg.AUX_SRCs_LO].any fun f => s.lv (f.ix i) != old.lv (f.ix i)
  let s1 := (List.range 4).foldl (fun x i => if moved i then startSettle i x else x) s
  if s.on Reg.AUX_CFG_EN == old.on Reg.AUX_CFG_EN then s1
  else
    let w := s.lv Reg.AUX_CFG_EN + at_ 1 (s.lv Reg.AUX_CFG_SCAN_EN) + at_ 8 (s.lv Reg.AUX_CFG_REV_DWELL)
    auxCfg (BitVec.ofNat 32 w) (s1.setLive Reg.AUX_CFG_EN (old.lv Reg.AUX_CFG_EN))

/-- The effects of a page's NOW fields beyond their values, after a write that found them as in `old`. -/
def nowEffects (old : State) (page : Nat) (s : State) : State :=
  match page with
  | 0x010 => if s.on Reg.SYS_SUPPLY_LIGHT_HOLD && s.stOn Reg.SYS_SUPPLY_DIP then holdFor true s.time s else s
  | 0x011 => syncApply s
  | 0x012 => if s.on Reg.TBASE_CFG_FORCE_HOLD && !old.on Reg.TBASE_CFG_FORCE_HOLD && s.timeRuns then declareRefLoss s else s
  | 0x018 => syncDrive (pumpEffects old s)
  | 0x020 => syncServo 0 (syncInj 0 s.time (followInj old s))
  | 0x021 => syncServo 1 (syncInj 1 s.time (followInj old s))
  | 0x022 => applyApd s.time 1 (applyApd s.time 0 s)
  | 0x031 => auxEffects old s
  | 0x0B0 => syncNw none s
  | 0x091 | 0x092 => ethEffects old (Fin.ofNat 2 (page - 0x091)) s
  | 0x093 => ptpEffects old s
  | 0x0A8 => driveGpio old s
  | _ => s

/-! ### what is sent (R502) -/

/-- The window content of a page, as window writes in order (R502). Zone-core memories, keys, almanac items and mailboxes have items of
their own or none. -/
def windowWrites (s : State) (p : Nat) : List (Nat × Word) :=
  let w := fun (i v : Nat) => [(0xC00, BitVec.ofNat 32 i), (0xC04, BitVec.ofNat 32 v)]
  match p with
  | 0x018 => s.loops.flatMap fun e => (0xC00, BitVec.ofNat 32 e.1) ::
      [0xC04, 0xC08, 0xC0C, 0xC10, 0xC14].map fun o => (o, BitVec.ofNat 32 (loopWord e.2 o))
  | 0x028 | 0x029 => (s.shotp.get (Fin.ofNat 2 p)).mfUser.flatMap fun e => w (e.1 / 32768 * 65536 + e.1 % 32768) e.2.toNat
  | 0x02C | 0x02D => (s.slow.get (Fin.ofNat 2 p)).coef.flatMap fun e => w e.1 e.2
  | 0x038 => s.zone.shadow.flatMap fun e => w (e.1 / 65536 * 65536 + e.1 % 65536 / 16 + e.1 % 16 * 4096) e.2.toNat
  | 0x080 => s.cmp.slots.flatMap fun e => w e.1 (ctxWord s e.1 0xC04) ++ [(0xC08, BitVec.ofNat 32 e.2.quota)]
  | 0x0A0 => s.icu.cfg.flatMap fun e => w e.1 e.2
  | _ => []

/-- The offsets that commit state leaves out (R502): SYS mode registers, TWIN, MEMC, port addresses. -/
def unmirrored (p off : Nat) : Bool :=
  p == 0x0B0 || p == 0x088 || p == 0x089 || (p == 0x010 && decide (0x040 ≤ off ∧ off ≤ 0x04C)) ||
    ((p == 0x091 || p == 0x092) && decide (0x048 ≤ off ∧ off ≤ 0x070))

/-- The shadow words of a page. -/
def mirrorWords (s : State) (p : Nat) : List (Nat × Word) :=
  ((shadowWords s p).filter fun e => !unmirrored p e.1).map fun (e : Nat × Nat) => (e.1, BitVec.ofNat 32 e.2)

/-- The loaded keys (R403). -/
def keyList (s : State) : List (Nat × List Byte) := s.strm.keys

/-- The Ethernet entries in force. -/
def mirrorEntries (s : State) (t : Time) : List MirrorEntry :=
  s.strm.subs.filterMap fun (e : Nat × Sub) =>
    match e.2.path with
    | .mailbox _ => none
    | .eth .. =>
      if e.2.st = 1 ∨ e.2.st = 2 then
        let m : MirrorEntry := {
          ctl := { path := e.2.path, token := BitVec.ofNat 32 (tokenOf s e.1), xid := e.2.xid.getD 0, auth := none }
          body := e.2.body, leaseS := leaseLeft s t e.1, sids := e.2.sels.map (·.sid) }
        some m
      else none

/-- A port's addresses: the MAC, the IPv4 and the IPv6 address. [DEDUCED: log 71] -/
def portAddrs (s : State) (p : Fin 2) : Nat × Word × Nat :=
  let f := fun (x : Fld) => s.lv (x.pg p)
  (f Reg.ETHn_MAC_LO + 2 ^ 32 * f Reg.ETHn_MAC_HI, BitVec.ofNat 32 (f Reg.ETHn_IPV4_ADDR),
    (List.range 4).foldl (fun a i => a + 2 ^ (32 * i) * s.lv ((Reg.ETHn_IPV6_ADDRi.pg p).ix i)) 0)

/-- The item that a command names, with its content taken from the state; an image is content of its own. [DEDUCED: log 88] -/
def mirrorItem (s : State) (t : Time) (item : MirrorItem) : MirrorItem :=
  match item with
  | .calibration _ => .calibration s.alm.user
  | .commitState p _ _ => .commitState p (mirrorWords s p) (windowWrites s p)
  | .subscribers _ _ => .subscribers (mirrorEntries s t) (keyList s)
  | .codecContext c _ _ _ => .codecContext c (s.ctx c).sid (BitVec.ofNat 32 (s.ctx c).lastSeq) ((ctxHeader (s.ctx c)).take 64)
  | .zcImage m i => .zcImage m i
  | .addresses p _ _ _ => let a := portAddrs s p; .addresses p a.1 a.2.1 a.2.2

/-! ### in step (R503) -/

/-- Within `ns` of an instant. -/
def within (t : Time) (ns : Nat) (a : Option Time) : Bool :=
  match a with | some x => decide (tDiff t x ≤ (ns * duPerNs : Nat)) | none => false

/-- No periodic item is older than twice its period, and every message is acknowledged, as far as the unit can tell. [DEDUCED: log 88] -/
def inStep (s : State) (t : Time) : Bool :=
  within t 20000000000 s.twin.calAt && within t 2000000000 s.twin.entriesAt && within t 2000000 s.twin.lastBeat &&
    s.twin.ctxAt.all (fun e => within t (128 * s.sh Reg.MERID_PERIOD_PERIOD_NS) (some e.2)) && !s.twin.unacked.any fun e => e.2.2.1

/-- TWIN_STATUS.IN_STEP after a message. [DEDUCED: log 88] -/
def syncStep (t : Time) (s : State) : State := if inStep s t then s.setSt Reg.TWIN_STATUS_IN_STEP 1 else s

/-! ### sending -/

/-- When the periodic items were last sent or received. -/
def stampItem (t : Time) (item : MirrorItem) (s : State) : State :=
  let w := s.twin
  s.setTwin (match item with
    | .calibration _ => { w with calAt := some t }
    | .subscribers _ _ => { w with entriesAt := some t }
    | .codecContext _ sid _ _ => { w with ctxAt := Amap.put sid t w.ctxAt }
    | .zcImage m i => if w.sent.contains (m, i) then w else { w with sent := w.sent ++ [(m, i)] }
    | _ => w)

/-- A mirror message goes out under the next number; those sent more than 1 ms ago and not missed are acknowledged. [DEDUCED: log 88] -/
def sendItem (t : Time) (item0 : MirrorItem) (s : State) : State :=
  let item := mirrorItem s t item0
  let n := s.twin.nextSeq
  let old := s.twin.unacked.filter fun (e : Nat × Time × Bool × MirrorItem) => decide (tDiff t e.2.1 < (1000000 * duPerNs : Nat))
  stampItem t item ((s.setTwin { s.twin with nextSeq := n + 1, unacked := Amap.put n (t, false, item) old }).emit (.mirror n item))

/-- MIRROR_SEND (R502): by the active unit. -/
def execMirrorSend (t : Time) (item : MirrorItem) (s : State) : Res :=
  let s0 := advance t s
  .next (if s0.st Reg.TWIN_STATUS_ROLE = 3 ∧ s0.stOn Reg.TWIN_STATUS_LINK_UP = true then syncStep t (sendItem t item s0) else s0)

/-- MIRROR_RESEND (R503). -/
def execMirrorResend (t : Time) (seq : Nat) (s : State) : Res :=
  let s0 := advance t s
  .next (match Amap.find seq s0.twin.unacked with
    | some (_, _, item) =>
      ((s0.setTwin { s0.twin with unacked := Amap.put seq (t, true, item) s0.twin.unacked }).bump Reg.TWIN_MIRROR_RESENDS).emit (.mirror seq item)
    | none => s0)

/-- OUT_OF_STEP (R503). -/
def execOutOfStep (s : State) : Res :=
  .next (if s.stOn Reg.TWIN_STATUS_IN_STEP then (s.setSt Reg.TWIN_STATUS_IN_STEP 0).raise 0x0B0 7 else s)

/-- The pages whose commit state is mirrored. -/
def mirroredPages : List Nat :=
  [0x010, 0x011, 0x012, 0x013, 0x014, 0x018, 0x01A, 0x01B, 0x020, 0x021, 0x022, 0x028, 0x029, 0x02A, 0x02B, 0x02C, 0x02D, 0x030, 0x031,
   0x038, 0x039] ++ (List.range 64).map (0x040 + ·) ++ [0x080, 0x081, 0x090, 0x091, 0x092, 0x093, 0x098, 0x0A0, 0x0A8] ++
  (List.range 64).map (0x0C0 + ·) ++ (List.range 66).map (0x200 + ·)

/-- Every mirror item (R511). [DEDUCED: log 88] -/
def everyItem (s : State) : List MirrorItem :=
  [.calibration []] ++ mirroredPages.map (fun p => .commitState p [] []) ++ [.subscribers [] []] ++
  (s.cmp.slots.filter fun (e : Nat × Ctx) => e.2.bound).map (fun e => .codecContext e.1 0 0 []) ++
  s.twin.sent.map (fun e => .zcImage e.1 e.2) ++ [.addresses 0 0 0 0, .addresses 1 0 0 0]

/-- RESYNC (R511): the active unit resends every mirror item; refused elsewhere. -/
def execResync (f : Option Func) (t : Time) (s : State) : Res :=
  .next (served f 0x40 (fun s =>
    if s.st Reg.TWIN_STATUS_ROLE ≠ 3 then twinSay f true s
    else twinSay f false (syncStep t ((everyItem s).foldl (fun s i => sendItem t i s) s))) (advance t s))

/-! ### receiving -/

/-- The shadow words of a page are written, and every field of NOW or TICK effect takes its value at once (R502). [DEDUCED: log 19] -/
def mirrorShadow (p : Nat) (words : List (Nat × Word)) (s : State) : State :=
  ((shadowFields p).filter fun f => !unmirrored p f.off).foldl (fun s f =>
    let v := fieldBits f (((words.find? fun e => e.1 == f.off).map (·.2.toNat)).getD 0)
    if f.eff = .now ∨ f.eff = .tick then s.setNow f v else { s with shadow := RegFile.set s.shadow f v }) s

/-- The windows that a commit-state message writes anew are emptied first. -/
def clearWindow (p : Nat) (s : State) : State :=
  match p with
  | 0x028 | 0x029 => let n : Lane := Fin.ofNat 2 p; s.setShotp n { s.shotp.get n with mfUser := [] }
  | 0x02C | 0x02D => let n : Lane := Fin.ofNat 2 p; s.setSlow n { s.slow.get n with coef := [] }
  | 0x038 => { s with zone := { s.zone with shadow := [] } }
  | _ => s

/-- Window writes in order, by a steward core whose own index they leave alone. -/
def windowBurst (p : Nat) (ws : List (Nat × Word)) (s : State) : State :=
  let i := s.winIndex .s0 p
  (ws.foldl (fun s e => winWrite .s0 p e.1 e.2 s) s).setWinIndex .s0 p i

/-- Commit state of a page arrives: it is written and committed at once (R502). -/
def takeCommitState (p : Nat) (words ws : List (Nat × Word)) (s : State) : State :=
  if p = 0x0B0 ∨ p = 0x088 ∨ p = 0x089 ∨ p = 0x015 ∨ p = 0 ∨ !pagePresent p then s
  else applyPages s.time [p] (windowBurst p ws (clearWindow p (nowEffects s p (mirrorShadow p words s))))

/-- MIRROR_RECEIVE (R502): by the standby. [DEDUCED: log 88] -/
def execMirrorReceive (t : Time) (_seq : Nat) (item : MirrorItem) (s : State) : Res :=
  let s0 := advance t s
  .next (if s0.mode ≠ 2 then s0
    else
      let w := s0.twin
      let s1 := match item with
        | .calibration u =>
          let user := (u.filter fun (e : Nat × Word) => almUserItem e.1 && e.2 != 0).foldl (fun (m : Amap Word) e => Amap.put e.1 e.2 m) []
          applyPages t [0x014] { s0 with alm := { s0.alm with user := user } }
        | .commitState p words ws => takeCommitState p words ws s0
        | .subscribers es keys =>
          let sids := es.flatMap (·.sids)
          { s0 with
            strm := { s0.strm with keys := keys.foldl (fun (m : Amap (List Byte)) e => Amap.put e.1 e.2 m) [] }
            twin := { w with
              entries := es
              ctxAt := w.ctxAt.filter fun (e : Nat × Time) => sids.contains e.1
              lastSeqs := w.lastSeqs.filter fun (e : Nat × Word) => sids.contains e.1 } }
        | .codecContext _ sid last _ => s0.setTwin { w with lastSeqs := Amap.put sid last w.lastSeqs }
        | .zcImage m img =>
          let named := (List.range 64).filter fun n => m.toNat / 2 ^ n % 2 == 1
          let s2 := named.foldl (fun (x : State) n => (loadImage n img x).1) s0
          s2.setTwin { s2.twin with images := s2.twin.images ||| m.toNat }
        | .addresses p mac v4 v6 => s0.setTwin { w with addrs := Amap.put p.val (mac, v4, v6) w.addrs }
      let s2 := match item with
        | .zcImage .. => s1
        | _ => stampItem t item s1
      syncStep t s2)

end Sys2Proof.Machine
end

