-- ==== Sys2Proof/Machine/Resets.lean ====
section
/-!
DEFINITION. Resets of register pages (R551, R552), and what a change of NOW fields means to the blocks.
-/

namespace Sys2Proof.Machine

/-! ### a page at its reset values (R551) -/

/-- Status that follows pins, links, clocks and trained memory, which a reset of a page or a soft reset does not touch. -/
def standing : List Fld :=
  [Reg.TBASE_STATUS_REF_PRESENT, Reg.TBASE_STATUS_REF_LOST, Reg.TBASE_STATUS_HOLDOVER, Reg.TBASE_STATUS_SLEWING, Reg.TBASE_STATUS_PLL_LOCK,
   Reg.TBASE_STATUS_XTAL_CAL, Reg.TDC_STATUS_DL_LOCK, Reg.LDRV_GATE_STATUS_EMIT_EN, Reg.LDRV_GATE_STATUS_ACT_OUT,
   Reg.LDRV_GATE_STATUS_PEER_ACT_IN, Reg.LDRV_GATE_STATUS_GATE, Reg.DMA_STATUS_SPEED, Reg.DMA_STATUS_WIDTH, Reg.DMA_STATUS_LINK_UP,
   Reg.DMA_STATUS_LSTATE, Reg.DMA_STATUS_WAKE, Reg.DMA_STATUS_L2_KEEP, Reg.TWIN_STATUS_SIDE, Reg.TWIN_STATUS_LINK_UP, Reg.MGMT_GPIO_IN,
   Reg.CMP_BUF_TOTAL, Reg.CMP_BUF_FREE, Reg.CMP_STATUS_ENGINE] ++
  [(0 : Nat), 1].flatMap fun n =>
    ([Reg.MEMCn_STATUS_TRAINED, Reg.MEMCn_STATUS_READY, Reg.MEMCn_STATUS_EXCLUDED, Reg.MEMCn_STATUS_TRAIN_FAIL, Reg.MEMCn_STATUS_FAIL_LANE,
      Reg.MEMCn_CAPACITY].map fun f => f.pg n) ++
    (List.range 9).flatMap fun l => [(Reg.MEMCn_EYE_l_RD.pg n).ix l, (Reg.MEMCn_EYE_l_WR.pg n).ix l]

/-- MEMCn_CFG and MEMCn_TRAIN as of the last training (R369). -/
def trainedCfg : List Fld :=
  [(0 : Nat), 1].flatMap fun n =>
    [Reg.MEMCn_CFG_PRESENT, Reg.MEMCn_CFG_WIDTH, Reg.MEMCn_CFG_RANKS, Reg.MEMCn_CFG_DENSITY, Reg.MEMCn_CFG_RDIMM, Reg.MEMCn_CFG_MIRROR,
     Reg.MEMCn_CFG_SPEED, Reg.MEMCn_CFG_ORDER, Reg.MEMCn_TRAIN_EYE_MIN].map fun f => f.pg n

/-- The keys of fields. -/
def keysOf (l : List Fld) : List Nat := l.map (·.key)

/-- The fields of a page at reset values, those that stand apart; its commits, TICK writes and per-requester state are gone. -/
def dropPage (p : Nat) (s : State) : State :=
  let mine := fun (keep : List Nat) (k : Nat) => k / 131072 == p && !keep.contains k
  clearHeld (fun _ r => r == p) { s with
    shadow := Amap.drop (mine []) s.shadow
    live := Amap.drop (mine (keysOf trainedCfg)) s.live
    status := Amap.drop (mine (keysOf standing)) s.status
    tickQ := s.tickQ.filter fun (w : TickWrite) => w.key / 131072 != p
    commits := s.commits.filter fun (c : Commit) => c.page != p }

/-- A context slot's settings at reset; its binding and coding state stand. -/
def ctxDefaults (c : Ctx) : Ctx := { c with pred := 4, auto := true, pass := false, resync := 0, quota := 64 }

/-- A memory channel after a reset that keeps training and contents (R551). -/
def memcDefaults (c : MemChan) : MemChan := { c with unitCe := [], failed := [] }

/-- What a reset keeps of the time base: whether REFCLK stands declared lost, and a PPS_OUT pulse in progress. -/
def keptTime (s : State) : TBase :=
  { refDown := s.tbase.refDown, ppsRise := s.tbase.ppsRise, ppsWidth := s.tbase.ppsWidth, ppsHigh := s.tbase.ppsHigh }

/-- What a page soft reset does to the block behind a page. [DEDUCED: log 103] -/
def resetBlock (p : Nat) (s : State) : State :=
  let n : Fin 2 := Fin.ofNat 2 p
  match p with
  | 0x011 => { s with merid := {} }
  | 0x012 => { s with tbase := keptTime s }
  | 0x013 => { s with tdc := {} }
  | 0x014 => leaveSuspect { stopProc 1 s with alm := { factory := s.alm.factory } }
  | 0x015 => { s with stew := { s.stew with defaulted := [] } }
  | 0x018 => { s with loops := [], drive := { s.drive with ramps := [], mpd := [] } }
  | 0x01A | 0x01B => { s with shots := s.shots.set n {} }
  | 0x020 | 0x021 => { s with rxf := s.rxf.set n (freshRxf (s.rxf.get n)) }
  | 0x028 | 0x029 => s.setShotp n {}
  | 0x02A | 0x02B => s.setPhz n {}
  | 0x02C | 0x02D => s.setSlow n {}
  | 0x030 => { s with raman := { s.raman with lanes := ⟨{}, {}⟩ } }
  | 0x031 => { s with aux := {} }
  | 0x038 => { s with zone := {} }
  | 0x039 => { s with capt := {} }
  | 0x080 => { s with cmp := { s.cmp with slots := s.cmp.slots.map fun (e : Nat × Ctx) => (e.1, ctxDefaults e.2) } }
  | 0x081 => { s with cmp := { s.cmp with abort := ⟨false, false⟩ } }
  | 0x088 => { s.setMemc 0 (memcDefaults s.memc.fst) with regionShadow := [] }
  | 0x089 => s.setMemc 1 (memcDefaults s.memc.snd)
  | 0x090 =>
    let s1 := s.strm.subs.foldl (fun s (e : Nat × Sub) => freeEntry e.1 s) s
    { s1 with strm := { s1.strm with replies := [], keys := [], keyWords := [] } }
  | 0x091 | 0x092 =>
    let port : Fin 2 := Fin.ofNat 2 (p - 0x091)
    let s1 := driveTxdis port true (if linked s port then dropLink port s else s)
    { s1 with strm := { s1.strm with ports := s1.strm.ports.set port {} } }
  | 0x0A0 => { s with icu := { targets := s.icu.targets } }
  | 0x0B0 => syncInjs s.time (followInj s (s.setTwin { stood := s.twin.stood }))
  | _ =>
    if 0x040 ≤ p ∧ p < 0x080 then resetCore (p - 0x040) s
    else if 0x0C0 ≤ p ∧ p < 0x100 then
      let s1 := { s with pcie := { s.pcie with chans := Amap.del s.pcie.chans (p - 0x0C0) } }
      match pageMbox p with
      | some f => { s1 with mbox := Amap.del s1.mbox (mbKey f) }
      | none => s1
    else s

/-- Status that is computed from the block follows the reset. -/
def resyncBlock (old : State) (p : Nat) (s : State) : State :=
  match p with
  | 0x011 => syncApply s
  | 0x018 | 0x01A | 0x01B => syncDrive (syncEmit s)
  | 0x020 => syncInj 0 s.time s
  | 0x021 => syncInj 1 s.time s
  | 0x022 => nowEffects old p s
  | 0x031 => auxMode s
  | 0x090 => (syncSubs s).setSt Reg.STRM_STREAMS s.strm.streams.length
  | 0x091 | 0x092 | 0x093 => syncGroups s
  | _ => s

/-- The page at its reset values. [DEDUCED: log 103] -/
def resetPage (p : Nat) (s : State) : State := resyncBlock s p (dropPage p (resetBlock p s))

/-! ### page soft reset (R552) -/

/-- The page's block is idle. -/
def pageIdle (s : State) (p : Nat) : Bool :=
  if 0x040 ≤ p ∧ p < 0x080 then true
  else if 0x0C0 ≤ p ∧ p < 0x100 then s.chanState (p - 0x0C0) == 0
  else if p = 0x081 then s.st (Reg.DCMP_Ee_STATUS_STATE.ix 0) != 1 && s.st (Reg.DCMP_Ee_STATUS_STATE.ix 1) != 1
  else if 0x200 ≤ p ∨ p = 0x0A8 then false
  else match pageLane p with
    | some n => s.laneState n == 0
    | none => s.mode == 1

/-- A page soft reset: the page is reset, or the request is ignored and RESET_REJECTED is set. [DEDUCED: log 103] -/
def pageReset (p : Nat) (s : State) : State :=
  if !pagePresent p then s else if pageIdle s p then resetPage p s else s.setSt (pageResetRejected p) 1

/-! ### resets of the device (R551) -/

/-- What no reset touches: flash and one-time-programmable memory; the levels of pins; and the model's own fields. [DEDUCED: log 102] -/
def kept (s : State) : State :=
  let b := fun (f : Fld) (x : State) => x.setSt f (s.st f)
  b Reg.LDRV_GATE_STATUS_EMIT_EN (b Reg.LDRV_GATE_STATUS_PEER_ACT_IN (b Reg.MGMT_GPIO_IN
    { flash := s.flash, alm := { factory := s.alm.factory }, out := s.out, pending := s.pending, free := s.free }))

/-- The device after POR_N, RESET_N or a supply reset: every page at reset values, mode RESET, ACT_OUT released. [DEDUCED: log 102] -/
def hardReset (s : State) : State := kept (gpioOff (txOff (driveActOut false s)))

/-- The SYS fields that a SYS soft reset keeps: supplies, temperature, straps, and the start-up steps that it does not rerun. [DEDUCED: log 102] -/
def softKept : List Fld :=
  [Reg.SYS_SUPPLY_DIP, Reg.SYS_SUPPLY_HOLDING, Reg.SYS_SUPPLY_BELOW, Reg.SYS_THERM_STATUS_TRIP, Reg.SYS_STRAPS_SIDE, Reg.SYS_STRAPS_COMPAT,
   Reg.SYS_STRAPS_BOOT_SEL, Reg.SYS_START_TRAIN_OK, Reg.SYS_START_REF_AT_START, Reg.SYS_STEWARD_LOAD_S0_UP, Reg.SYS_STEWARD_LOAD_S1_UP,
   Reg.MGMT_FW_VERSION, Reg.MGMT_FW_SVN, Reg.MGMT_BOOT_STATUS_SLOT, Reg.MGMT_BOOT_STATUS_FALLBACK, Reg.MGMT_BOOT_STATUS_FAIL_A,
   Reg.MGMT_BOOT_STATUS_FAIL_B, Reg.MGMT_BOOT_STATUS_RESIDENT, Reg.MGMT_BOOT_STATUS_COPY_FAIL] ++ (List.range 4).map Reg.SYS_TEMPk.ix

/-- The device after a SYS soft reset, before start-up resumes: the lanes stop at once, ACT_OUT is released, and the pages are at
reset values; device time, clocks, training, memory and links stand. [DEDUCED: log 102] -/
def softReset (s : State) : State :=
  let s0 := gpioOff (txOff (driveActOut false s))
  let k := keysOf (softKept ++ (standing.filter fun f => f.page != 0x080))
  let s1 := kept s0
  let s2 := { s1 with
    time := s.time, tbase := keptTime s
    live := Amap.drop (fun x => !(keysOf trainedCfg).contains x) s0.live
    status := Amap.drop (fun x => !k.contains x) s0.status
    causes := s.causes.filter fun (c : Cause) => c.till.isNone && (c.flag == 0 || c.flag == 1)
    rxf := ⟨freshRxf s.rxf.fst, freshRxf s.rxf.snd⟩
    holds := s.holds, drive := { lasers := s.drive.lasers }, mem := s.mem, poison := s.poison, memc := ⟨memcDefaults s.memc.fst, memcDefaults s.memc.snd⟩
    stew := { header := s.stew.header }
    pcie := { unmasked := s.pcie.unmasked, d3 := s.pcie.d3, l2 := s.pcie.l2 }
    cal := { railsBack := s.cal.railsBack } }
  syncDrive (syncEmit (syncInjs s.time (s2.setSt Reg.SYS_RESET_CAUSE_CAUSE 4)))

end Sys2Proof.Machine
end

