-- ==== Sys2Proof/Machine/Power.lean ====
section
/-!
DEFINITION. Resets by pin and supply, start-up, dips and temperature (chapter 23, R560 to R575; R463 to R466, R487 to R489).
-/

namespace Sys2Proof.Machine

/-! ### resets (R551, R560, R561) -/

/-- The straps sampled at a reset's release (R565). -/
def setStraps (side compat : Nat) (boot : Nat) (s : State) : State :=
  (((s.setSt Reg.SYS_STRAPS_SIDE side).setSt Reg.TWIN_STATUS_SIDE side).setSt Reg.SYS_STRAPS_COMPAT compat).setSt Reg.SYS_STRAPS_BOOT_SEL boot

/-- POR. [DEDUCED: log 102] -/
def execPor (x : Straps) (s : State) : Res :=
  .next (setStraps (bit x.side) (bit x.compat) x.bootSel ((hardReset s).setSt Reg.SYS_RESET_CAUSE_CAUSE 1))

/-- RESET_N: the side is as it was sampled at POR_N (R494). [DEDUCED: log 102] -/
def execResetN (x : Straps) (s : State) : Res :=
  .next (setStraps (s.st Reg.SYS_STRAPS_SIDE) (bit x.compat) x.bootSel ((hardReset s).setSt Reg.SYS_RESET_CAUSE_CAUSE 2))

/-- The number of a rail (R574). -/
def railNo (r : Rail) : Nat := match r with | .core => 0 | .ddr => 1 | .ahi => 2

/-- SUPPLY_RESET (R561): as POR_N held low; the strap balls are as they were. [DEDUCED: log 102] -/
def execSupplyReset (r : Rail) (s : State) : Res :=
  .next (setStraps (s.st Reg.SYS_STRAPS_SIDE) (s.st Reg.SYS_STRAPS_COMPAT) (s.st Reg.SYS_STRAPS_BOOT_SEL)
    (((hardReset s).setSt Reg.SYS_RESET_CAUSE_CAUSE 3).setSt Reg.SYS_RESET_CAUSE_RAIL (railNo r)))

/-! ### step 1: firmware (R463 to R466) -/

/-- The firmware runs: S0 and S1 start in the resident section. -/
def bootFrom (img : List Byte) (slot fallback : Nat) (s : State) : State :=
  let s1 := { s with stew := { s.stew with header := img.take 256 } }
  ((((((s1.setSt Reg.MGMT_BOOT_STATUS_SLOT slot).setSt Reg.MGMT_BOOT_STATUS_FALLBACK fallback).setSt Reg.MGMT_FW_VERSION
    (imgNum img 0x0C 4)).setSt Reg.MGMT_FW_SVN s.flash.svn).setSt Reg.SYS_STEWARD_LOAD_S0_UP 1).setSt Reg.SYS_STEWARD_LOAD_S1_UP 1)

/-- The VERIFY code of a slot that failed. -/
def failCode (slot : Fin 2) : Fld := if slot = 0 then Reg.MGMT_BOOT_STATUS_FAIL_A else Reg.MGMT_BOOT_STATUS_FAIL_B

/-- The boot ROM tries both flash slots, the preferred one first. -/
def bootFlash (s : State) : State × Bool :=
  let p : Fin 2 := (preferredSlot s.flash).getD 0
  let o : Fin 2 := 1 - p
  let a := fwVerify s.flash (s.flash.slots.get p)
  if a = 0 then (bootFrom (s.flash.slots.get p) p.val 0 s, true)
  else
    let b := fwVerify s.flash (s.flash.slots.get o)
    let s1 := s.setSt (failCode p) a
    if b = 0 then (bootFrom (s.flash.slots.get o) o.val 1 s1, true)
    else ((s1.setSt (failCode o) b).emit (.uart (if p = 0 then a else b) (if p = 0 then b else a)), false)

/-- Step 1, and whether firmware runs. With BOOT_SEL = 3 the device stays in the boot ROM. [DESIGN CHOICE: log 6] -/
def bootStep (s0 : State) : State × Bool :=
  let s := s0.setSt Reg.SYS_START_STEP 1
  match s.st Reg.SYS_STRAPS_BOOT_SEL with
  | 3 => (s0, false)
  | 2 => if fwVerify s.flash s.stew.uart = 0 then (bootFrom s.stew.uart 0 0 s, true) else (s, false)
  | _ => bootFlash s

/-! ### step 2: the configuration image (R487 to R489) -/

/-- `n` bytes of flash, erased bytes after its content. [DESIGN CHOICE: log 6] -/
def flashBytes (l : List Byte) (n : Nat) : List Byte := l.take n ++ List.replicate (n - l.length) 0xFF

/-- The shadow words of a record, which go live at once. The fields of a training wait for it (R369); a count set ahead waits for
its tick (R44); the epoch and a steward's timer take their pairs. -/
def imageWords (p : Nat) (rec_ : List Byte) (s : State) : State :=
  let word := fun (f : Fld) => fieldBits f (imgNum rec_ (8 + (f.off - 0x040)) 4)
  let s1 := (shadowFields p).foldl (fun s f =>
    if (p = 0x088 ∨ p = 0x089) ∧ f.eff = .restart then { s with shadow := RegFile.set s.shadow f (word f) } else s.setNow f (word f)) s
  if p = 0x011 then
    let high := s1.lv Reg.MERID_TICK_HIGH_HIGH
    let t : TickWrite := { at_ := s.time, key := Reg.MERID_TICK_HIGH_HIGH.key, value := BitVec.ofNat 32 high }
    syncApply (if high = 0 then s1 else { s1 with tickQ := s1.tickQ ++ [t] })
  else if p = 0x012 then
    let lo := BitVec.ofNat 32 (s1.lv Reg.TBASE_EPOCH_SUBS_LO)
    nowEffects s p (if stagedSubs s1 lo ≤ 127999999999 then { s1 with tbase := { s1.tbase with sec := stagedSec s1, subs := stagedSubs s1 lo } } else s1)
  else if p = 0x200 ∨ p = 0x201 then
    let v := s1.lv (Reg.ICUTt_TIMER_LO.pg (p - 0x200)) + 2 ^ 32 * s1.lv (Reg.ICUTt_TIMER_HI.pg (p - 0x200))
    if v = 0 then s1 else stewTimerCommit (Fin.ofNat 2 p) v s1
  else nowEffects s p s1

/-- The window writes of a record. [DEDUCED: log 104] -/
def imageWrites (rec_ : List Byte) (n : Nat) : List (Nat × Word) :=
  (List.range n).map fun i => (imgNum rec_ (0x7C8 + 8 * i) 2, BitVec.ofNat 32 (imgNum rec_ (0x7CC + 8 * i) 4))

/-- A page record (R488). What the page reports of the start-up itself, such as the straps (R565), stands. [DEDUCED: log 104] -/
def loadRecord (rec_ : List Byte) (s : State) : State :=
  let p := imgNum rec_ 0 2
  if !pagePresent p || (shadowFields p).isEmpty then s.setSt Reg.CFGI_STATUS_HDR_FAIL 1
  else if imgNum rec_ 4 4 ≠ crc32c (rec_.take 4 ++ rec_.drop 8) then
    let s1 := { resetPage p s with status := s.status }
    { s1 with stew := { s1.stew with defaulted := Amap.put p true s1.stew.defaulted } }
  else (applyPages s.time [p] (windowBurst p (imageWrites rec_ (imgNum rec_ 2 2)) (imageWords p rec_ s))).bump Reg.CFGI_STATUS_LOADED

/-- The page records from here on. -/
def loadRecords : Nat → List Byte → State → State
  | 0, _, s => s
  | k + 1, img, s =>
    let n := 0x7C8 + 8 * imgNum (flashBytes img 4) 2 2
    loadRecords k (img.drop n) (loadRecord (flashBytes img n) s)

/-- Step 2 (R487 to R489). [DEDUCED: log 104] -/
def configStep (s0 : State) : State :=
  let s := s0.setSt Reg.SYS_START_STEP 2
  let h := flashBytes s.flash.config 32
  if imgNum h 0 4 = 0xFFFFFFFF then s.setSt Reg.CFGI_STATUS_ABSENT 1
  else if imgNum h 0 4 ≠ 0x47464358 ∨ imgNum h 4 2 ≠ 1 ∨ imgNum h 0x1C 4 ≠ crc32c (h.take 0x1C) then s.setSt Reg.CFGI_STATUS_HDR_FAIL 1
  else loadRecords (imgNum h 6 2) (s.flash.config.drop 32) (s.setSt Reg.CFGI_IMAGE_VERSION (imgNum h 0x0C 4))

/-! ### steps 3 to 7 -/

/-- Step 3: almanac apply. [DESIGN CHOICE: log 82; DEDUCED: log 105] -/
def almanacStep (s : State) : State :=
  let s1 := almApply s.alm.userLive { s with alm := { s.alm with userLive := s.alm.user } }
  (s1.setNow Reg.DTS_GAMMA (Amap.get s.alm.factory 0x4A0 0).toNat).setSt Reg.SYS_START_STEP 3

/-- Step 4: the PLLs lock to REFCLK, or to the crystal (R68), device time starts, the delay lines lock. [DEDUCED: log 104] -/
def clockStep (ref : Bool) (s : State) : State :=
  let s1 := (({ s with time := 0 }.setSt Reg.SYS_START_STEP 4).setSt Reg.TBASE_STATUS_PLL_LOCK 1).setSt Reg.TDC_STATUS_DL_LOCK 1
  if ref && !s.on Reg.TBASE_CFG_FORCE_HOLD then
    ((s1.setSt Reg.TBASE_STATUS_REF_PRESENT 1).setSt Reg.TBASE_STATUS_XTAL_CAL 1).setSt Reg.SYS_START_REF_AT_START 1
  else causeOn 0 ((s1.setSt Reg.TBASE_STATUS_REF_LOST 1).setSt Reg.TBASE_STATUS_HOLDOVER 1)

/-- The channels that MEMCn_CFG declares. -/
def declared (s : State) : List (Fin 2) := [(0 : Fin 2), 1].filter fun ch => s.sh (Reg.MEMCn_CFG_PRESENT.pg ch) != 0

/-- Step 5: training (R348); a dip that outlasts the wait fails it (R564). [DEDUCED: log 104] -/
def trainStep (env : StartEnv) (s0 : State) : State :=
  let chs := declared s0
  let s := chs.foldl (fun s (ch : Fin 2) => applyMemCfg ch s) (s0.setSt Reg.SYS_START_STEP 5)
  let s1 := chs.foldl (fun s ch =>
    if env.dipTimeout then trainFail ch 6 0 s else 
      let fail := if ch = 0 then env.fail0 else env.fail1
      trained ch (if ch = 0 then env.eyes0 else env.eyes1) fail.1 fail.2 false s) s
  s1.setSt Reg.SYS_START_TRAIN_OK (bit (chs.all fun ch => s1.stOn (Reg.MEMCn_STATUS_TRAINED.pg ch)))

/-- Step 6: ADC_ILV and IQ on all channels (R476, R477); runs that met a dip twice leave the factory values (R564). -/
def calStep (env : StartEnv) (s0 : State) : State :=
  let s := s0.setSt Reg.SYS_START_STEP 6
  if env.calDip then s
  else
    let a := compareRuns 1 [0, 1] env.pairs env.fig s
    let b := compareRuns 2 [0, 1] env.pairs env.fig a.1
    b.1.setSt Reg.SYS_START_CAL_OK (bit (!a.2 && !b.2))

/-- Step 7: CONFIG, or B50; the transmitters follow the loaded ETHn_CFG (R566). [DEDUCED: log 104] -/
def finalStep (us : Nat) (s : State) : State :=
  let s1 := (s.setSt Reg.SYS_START_STEP 7).setSt Reg.SYS_START_TIME (min us 0xFFFFF)
  syncGroups (syncTxdis 0 (syncTxdis 1 (if s1.stOn Reg.SYS_STRAPS_COMPAT then enterB50 s1 else enterMode 1 s1)))

/-- The fill of the trained channels starts (R349). -/
def startFill (s : State) : State :=
  (declared s).foldl (fun s (ch : Fin 2) =>
    if s.stOn (Reg.MEMCn_STATUS_TRAINED.pg ch) then (zeroChannel ch s).setMemc ch { s.memc.get ch with filling := true } else s) s

/-- Start-up after a SYS soft reset: steps 2, 3, 6 and 7. -/
def startSoft (env : StartEnv) (s : State) : State := finalStep env.startTimeUs (calStep env (almanacStep (configStep s)))

/-- Start-up after the other resets; without valid firmware the device stays in RESET (R568). -/
def startFull (env : StartEnv) (s : State) : State :=
  let b := bootStep s
  if b.2 then finalStep env.startTimeUs (startFill (calStep env (trainStep env (clockStep env.refPresent (almanacStep (configStep b.1)))))) else b.1

/-- START_UP (R567, R568). -/
def execStartUp (env : StartEnv) (s : State) : Res :=
  .next (if s.mode ≠ 0 then s else if s.st Reg.SYS_RESET_CAUSE_CAUSE = 4 then startSoft env s else startFull env s)

/-! ### dips (R562, R563) -/

/-- The dip counter of a rail. [DEDUCED: log 94] -/
def dipCount (r : Rail) : Fld := match r with | .core => Reg.SYS_DIP_CORE | .ddr => Reg.SYS_DIP_DDR | .ahi => Reg.SYS_DIP_AHI

/-- DIP (R562, R563). [DEDUCED: log 94] -/
def execDip (r : Rail) (mv : Nat) (t : Time) (s : State) : Res :=
  let s0 := advance t s
  let low := Reg.SYS_SUPPLY_MINj.ix (railNo r)
  let first := !s0.stOn Reg.SYS_SUPPLY_DIP
  let s1 := (((s0.setSt Reg.SYS_SUPPLY_DIP 1).setSt Reg.SYS_SUPPLY_BELOW (s0.st Reg.SYS_SUPPLY_BELOW ||| 2 ^ railNo r)).bump (dipCount r)).raise
    0x010 (railNo r)
  let s2 := enterSuspect 1 (trainDip (s1.setSt low (min (s1.st low) mv)))
  let s3 := { stopProc 2 s2 with twin := { s2.twin with below := true } }
  .next ((s3.when first (causeOn 1)).when (s3.on Reg.SYS_SUPPLY_LIGHT_HOLD) (holdFor true t))

/-- RECOVER (R562): rail `r` has been back above warning for 200 ns; with the last rail the dip ends. [DEDUCED: log 94] -/
def execRecover (r : Rail) (t : Time) (s : State) : Res :=
  let s0 := advance t s
  let below := s0.st Reg.SYS_SUPPLY_BELOW
  let left := if below / 2 ^ railNo r % 2 = 1 then below - 2 ^ railNo r else below
  let s1 := s0.setSt Reg.SYS_SUPPLY_BELOW left
  .next (if s0.stOn Reg.SYS_SUPPLY_DIP = true ∧ left = 0 then
    let s2 := (s1.setSt Reg.SYS_SUPPLY_DIP 0).raise 0x010 3
    causeOff 1 { s2 with cal := { s2.cal with railsBack := some t } }
  else s1)

/-- LIGHT_HOLD_END (R563): every rail has been above warning for 100 µs. -/
def execLightHoldEnd (t : Time) (s : State) : Res :=
  let s0 := advance t s
  let back := (s0.cal.railsBack.map fun r => decide ((100000 * duPerNs : Nat) ≤ tDiff t r)).getD false
  .next (if s0.holds.fst && !s0.stOn Reg.SYS_SUPPLY_DIP && back then endHold true s0 else s0)

/-! ### temperature (R570, R571) -/

/-- The temperatures of the four sensors in 0.1 °C, from their readings in mK (R570): as R145 applies its items, the offset is taken away and the
gain applied. [DESIGN CHOICE: log 121] -/
def tempsOf (s : State) (raw : List Int) : List Int :=
  let a := fun (i : Nat) => almVal s.alm.factory s.alm.eff i
  (List.range 4).map fun k => divRound ((raw.getD k 0 - a (0x488 + k)) * (2 ^ 20 + a (0x48C + k))) (100 * 2 ^ 20)

/-- The sensors report. -/
def setTemps (temps : List Int) (s : State) : State :=
  (List.range 4).foldl (fun s k => s.setStI (Reg.SYS_TEMPk.ix k) (satS 16 (temps.getD k 0))) s

/-- The hottest sensor in 0.1 °C. -/
def hottest (temps : List Int) : Int :=
  (temps.take 4).foldl max (temps.headD 0)

/-- THERM_WARN (R571). [DEDUCED: log 94] -/
def execThermWarn (raw : List Int) (s : State) : Res :=
  let temps := tempsOf s raw
  let s0 := setTemps temps s
  .next (s0.raiseIf (decide ((10 * s0.lv Reg.SYS_THERM_WARN : Nat) ≤ hottest temps)) 0x010 4)

/-- THERM_TRIP (R571). -/
def execThermTrip (raw : List Int) (s : State) : Res :=
  let temps := tempsOf s raw
  let s0 := setTemps temps s
  .next (if 1150 ≤ hottest temps then holdFor false s0.time ((s0.setSt Reg.SYS_THERM_STATUS_TRIP 1).raise 0x010 5) else s0)

/-- THERM_HOLD_END (R571): below WARN − 5 °C, and TRIP has been written 1. -/
def execThermHoldEnd (raw : List Int) (s : State) : Res :=
  let temps := tempsOf s raw
  let s0 := setTemps temps s
  .next (if s0.holds.snd && !s0.stOn Reg.SYS_THERM_STATUS_TRIP && decide (hottest temps < 10 * ((s0.lv Reg.SYS_THERM_WARN : Int) - 5)) then
    endHold false s0
  else s0)

end Sys2Proof.Machine
end

