-- ==== Sys2Proof/Machine/Registers.lean ====
section
/-!
DEFINITION. Register writes (R543 to R546) and soft resets (R551, R552). A write that has a row of its own has that row's effect.
-/

namespace Sys2Proof.Machine

/-- A bit of a written word. -/
def wbit (w : Word) (i : Nat) : Bool := w.getLsbD i

/-- A further effect of the same write. -/
def also (c : Bool) (k : State → Res) (s : State) : State := if c then outcome (k s) s else s

/-! ### soft resets -/

/-- PAGE_SOFT_RESET (R552). On the SYS page it is the SYS soft reset. [DEDUCED: log 77] -/
def softResetWrite (p : Nat) (s : State) : State := if p = 0x010 then softReset s else pageReset p s

def execPageSoftReset (q : Requester) (page : Nat) (s : State) : Res := .next (s.busWrite q page (softResetWrite page))

/-- SYS_SOFT_RESET (R551). -/
def execSysSoftReset (q : Requester) (s : State) : Res := .next (s.busWrite q 0x010 softReset)

/-! ### the page header (R544) -/

/-- ENABLE of a page whose block can be gated (R313). [DEDUCED: log 103] -/
def enableWrite (p : Nat) (en : Bool) (s : State) : State :=
  if !gateable p then s
  else
    let was := s.on (pageEnable p)
    let s1 := s.setNow (pageEnable p) (bit en)
    if was = en then s1
    else if 0x040 ≤ p ∧ p < 0x080 then
      let s2 := resetCore (p - 0x040) s1
      if en then s2 else s2.setSt (Reg.ZCn_STATUS_STATE.pg (p - 0x040)) 5
    else if p = 0x081 then s1
    else
      let port : Fin 2 := Fin.ofNat 2 (p - 0x091)
      if !en && linked s1 port then dropLink port s1 else s1

/-- PAGE_CTRL. [DEDUCED: log 77] -/
def pageCtrl (q : Requester) (p : Nat) (w : Word) (s : State) : State :=
  let s1 := enableWrite p (wbit w 0) s
  let view := s1.req.viewLive.filter fun (e : Requester × Nat) => e != (q, p)
  let s2 := { s1 with req := { s1.req with viewLive := if wbit w 2 then (q, p) :: view else view } }
  if wbit w 1 then softResetWrite p s2 else s2

/-- A write of a header register. -/
def headerWrite (q : Requester) (t : Time) (p off : Nat) (w : Word) (s : State) : State :=
  match off with
  | 0x008 => s.busWrite q p (pageCtrl q p w)
  | 0x010 => outcome (execIrqStatusClear q p w 0 s) s
  | 0x014 => s.busWrite q p fun s => if p < 0x200 then s.setNow (irqEnable p) w.toNat else s
  | 0x018 => outcome (execPageCommit q t p w s) s
  | _ => s

/-! ### configuration words -/

/-- A write of SYS_MODE.DEV (R47): a code that names no mode is no transition of the table. [DEDUCED: log 87] -/
def modeWrite (q : Requester) (t : Time) (w : Word) (s : State) : State :=
  match w.toNat % 16 with
  | 1 => outcome (execModeConfig q t s) s
  | 2 => outcome (execModeStandby q t s) s
  | 3 => outcome (execModeRun q t s) s
  | 4 => outcome (execModeCalibrate q t s) s
  | 5 => outcome (execModeB50 q t s) s
  | v => s.shadowWrite q 0x010 fun s => refuse 1 0 (s.setNow Reg.SYS_MODE_DEV v)

/-- A write of a word that has no effect but those of its fields (R546). [DEDUCED: log 19] -/
def plainWrite (q : Requester) (p off : Nat) (w : Word) (s : State) : State :=
  s.shadowWrite q p fun s => nowEffects s p (writeWord p off w.toNat s)

/-- A write of RXFn_INJ_CFG (R137). [DEDUCED: log 31] -/
def injWrite (q : Requester) (p off : Nat) (w : Word) (s : State) : State :=
  let n : Lane := Fin.ofNat 2 p
  if w.toNat % 4 = 1 ∧ injAccepted s n = false then s.busWrite q p (State.raise p 5) else plainWrite q p off w s

/-- A write of TBASE_CFG (R60, R62, R69): the edges of FORCE_HOLD have rows of their own. -/
def tbaseCfgWrite (q : Requester) (t : Time) (w : Word) (s : State) : State :=
  let was := s.on Reg.TBASE_CFG_FORCE_HOLD
  let keep := BitVec.ofNat 32 (w.toNat % 256 + 256 * bit was)
  also (!wbit w 8 && was) (execForceHoldClear q t) (also (wbit w 8 && !was) (execForceHoldSet q t) (plainWrite q 0x012 0x040 keep s))

/-- Rows of the pages that stand once, at 0x040 to 0x7FF; none for a word without one. [DEDUCED: log 77] -/
def singleRow (q : Requester) (t : Time) (p off : Nat) (w : Word) (s : State) : Option State :=
  match p, off with
  | 0x010, 0x040 => some (modeWrite q t w s)
  | 0x010, 0x04C => some (also (wbit w 3) (execStopLane q t 1) (also (wbit w 2) (execStopLane q t 0)
      (also (wbit w 1) (execRestartLane q t 1) (also (wbit w 0) (execRestartLane q t 0) s))))
  | 0x011, 0x054 => some (outcome (execApplyHoldWrite q t (wbit w 0) s) s)
  | 0x011, 0x058 => some (outcome (execApplyTickWrite q t w s) s)
  | 0x011, 0x05C => some (outcome (execPairHiWrite q p off w s) s)
  | 0x012, 0x040 => some (tbaseCfgWrite q t w s)
  | 0x012, 0x050 => some (outcome (execEpochSet q t w s) s)
  | 0x012, 0x058 => some (outcome (execTbaseAdj q t w s) s)
  | 0x014, 0x04C => some (also (wbit w 0) (execCalAbort q) (s.shadowWrite q p id))
  | 0x031, 0x040 => some (if wbit w 0 then outcome (execAuxEnable q t w s) s else outcome (execAuxDisable q t w s) s)
  | 0x031, 0x050 => some (outcome (execAuxReq q t w s) s)
  | 0x031, 0x060 => some (outcome (execAuxSrcWrite q t 0 w s) s)
  | 0x031, 0x064 => some (outcome (execAuxSrcWrite q t 1 w s) s)
  | 0x031, 0x068 => some (outcome (execAuxSrcWrite q t 2 w s) s)
  | 0x031, 0x06C => some (outcome (execAuxSrcWrite q t 3 w s) s)
  | 0x039, 0x060 => some (outcome (execCaptRelease q w s) s)
  | 0x0A0, 0x044 => some (outcome (execIcuSwSet q w s) s)
  | 0x0B0, 0x040 => some (if s.mode = 1 then plainWrite q p off w s else s)
  | 0x0B0, 0x058 => some (also (wbit w 0) (execTwinAlive q t) s)
  | _, _ => none

/-- Rows of DCMP, MEMC, ETH and the zone cores. [DEDUCED: log 77] -/
def blockRow (q : Requester) (p off : Nat) (w : Word) (s : State) : Option State :=
  if p = 0x081 ∧ (off = 0x05C ∨ off = 0x09C) then
    let e : Fin 2 := if off = 0x05C then 0 else 1
    some (also (wbit w 2) (execDcmpClear q e) (also (wbit w 1) (execDcmpAbort q e) (also (wbit w 0) (execDcmpGo q e) s)))
  else if (p = 0x088 ∨ p = 0x089) ∧ off = 0x05C then some (also (wbit w 0) (execMemcTrain q (Fin.ofNat 2 (p - 0x088))) s)
  else if p = 0x091 ∨ p = 0x092 then some (outcome (execEthCfgWrite q (Fin.ofNat 2 (p - 0x091)) off w s) s)
  else if 0x040 ≤ p ∧ p < 0x080 ∧ off = 0x040 then
    let n : Core := Fin.ofNat 64 (p - 0x040)
    some (also (wbit w 3) (execClrFault q n) (also (wbit w 2) (execZcStep q n) (also (wbit w 1) (execHaltReq q n) (also (wbit w 0) (execZcStart q n) s))))
  else if (p = 0x020 ∨ p = 0x021) ∧ off = 0x060 then some (injWrite q p off w s)
  else none

/-- Rows of the DMA channels and of the interrupt targets. [DEDUCED: log 77] -/
def arrayRow (q : Requester) (t : Time) (p off : Nat) (w : Word) (s : State) : Option State :=
  if 0x0C0 ≤ p ∧ p < 0x100 then
    let ch : Chan := Fin.ofNat 64 (p - 0x0C0)
    match off with
    | 0x058 => some (outcome (execRpWrite q ch w s) s)
    | 0x05C => some (also (wbit w 2) (execDb q ch) (also (wbit w 1) (execDmaAbort q ch) (also (wbit w 0 && !wbit w 1) (execDmaGo q ch) s)))
    | _ => some (outcome (execDmaCfgWrite q ch off w s) s)
  else if 0x200 ≤ p ∧ p < 0x242 then
    let tg : Fin 66 := Fin.ofNat 66 (p - 0x200)
    match off with
    | 0x058 => some (outcome (execPrivSwSet q tg w s) s)
    | 0x05C => if p < 0x202 then some (outcome (execPairLoWrite q t p off w s) s) else none
    | 0x060 => if p < 0x202 then some (outcome (execPairHiWrite q p off w s) s) else none
    | 0x064 => if p < 0x202 then some (also (wbit w 0) (execWdtService q (Fin.ofNat 2 p) t) s) else none
    | _ => none
  else none

/-- A write at 0x040 to 0x7FF. -/
def configWrite (q : Requester) (t : Time) (p off : Nat) (w : Word) (s : State) : State :=
  (((singleRow q t p off w s).or (blockRow q p off w s)).or (arrayRow q t p off w s)).getD (plainWrite q p off w s)

/-- A write at 0x800 to 0xBFF: W1C bits, and the completion of a claim. -/
def statusWrite (q : Requester) (p off : Nat) (w : Word) (s : State) : State :=
  if (p = 0x018 ∧ off = 0x840) ∨ ((p = 0x01A ∨ p = 0x01B) ∧ off = 0x80C) then outcome (execFaultClear q p w s) s
  else if p = 0x010 ∧ off = 0x83C then s.busWrite q p (State.w1c Reg.SYS_THERM_STATUS_TRIP w.toNat 0)
  else if p = 0x015 ∧ off = 0x800 then s.busWrite q p (State.w1c Reg.CFGI_STATUS_HDR_FAIL (w.toNat / 2) 0)
  else if 0x200 ≤ p ∧ p < 0x242 ∧ off = 0x804 then
    let own : Option (Fin 66) := match q with | .s0 => some 0 | .s1 => some 1 | _ => none
    outcome (execIcuComplete own (Fin.ofNat 66 (p - 0x200)) (BitVec.ofNat 11 w.toNat) s) s
  else s

/-! ### the B50 window (R533, R538 to R540) -/

/-- The fields of a window word that no other row writes: the drives follow them, and IRQ_SEL and the enables act on interrupts. B50_RING
is accepted only while the ring is stopped. -/
def b50Fields (off w : Nat) (s : State) : State :=
  if (off = 0x080 ∨ off = 0x084) ∧ s.chanState 0 ≠ 0 then s
  else
    let mine := (wordFields 0 off).filter fun f => f.key != Reg.B50_CTRL_RUN.key && f.key != Reg.B50_DMA_CTRL_EN.key
    b50Drive (s.b50Irq false fun s => mine.foldl (fun s f => writeField f w s) s)

/-- A write of the window. [DEDUCED: log 105] -/
def windowWrite (q : Requester) (t : Time) (off : Nat) (w : Word) (s : State) : State :=
  match off with
  | 0x004 =>
    let s1 := b50Write q (b50Fields off w.toNat) s
    also (wbit w 1) (execB50SoftReset q) (if wbit w 0 then outcome (execB50Run q t s1) s1 else outcome (execB50Stop q t s1) s1)
  | 0x00C => outcome (execB50IrqClear q w 0 s) s
  | 0x088 => b50Write q (fun s => if wbit w 0 && b50Waits s then b50Fetch s else s) s
  | 0x08C => also (wbit w 1) (execB50DmaAbort q) (also (wbit w 0) (execB50DmaEn q) s)
  | _ => b50Write q (b50Fields off w.toNat) s

/-! ### any register -/

/-- REGISTER_WRITE (R543, R546, R550): an absent page and an unaligned or reserved offset ignore it. [DEDUCED: log 105] -/
def execRegisterWrite (q : Requester) (t : Time) (page off : Nat) (w : Word) (s : State) : Res :=
  let s0 := advance t s
  .next (if off % 4 ≠ 0 ∨ 0x1000 ≤ off then s0
    else if page = 0 then windowWrite q t off w s0
    else if !pagePresent page then s0.busWrite q page id
    else if off < 0x040 then headerWrite q t page off w s0
    else if off < 0x800 then configWrite q t page off w s0
    else if off < 0xC00 then statusWrite q page off w s0
    else s0.busWrite q page (winWrite q page off w))

end Sys2Proof.Machine
end

