-- ==== Sys2Proof/Machine/Dispatch.lean ====
section
/-!
DEFINITION. The dispatch of commands to their meanings, one arm for each constructor.
-/

namespace Sys2Proof.Machine

def exec (i : Instr) (s : State) : Host.Outcome State Fault Refusal :=
  match i with
  | .meridianTick t => Sys2Proof.Machine.execMeridianTick t s
  | .pageCommit q t page check => Sys2Proof.Machine.execPageCommit q t page check s
  | .applyHoldWrite q t hold => Sys2Proof.Machine.execApplyHoldWrite q t hold s
  | .applyTickWrite q t lo => Sys2Proof.Machine.execApplyTickWrite q t lo s
  | .slotLaunch n k t => Sys2Proof.Machine.execSlotLaunch n k t s
  | .shotProcess n k codes combUe e => Sys2Proof.Machine.execShotProcess n k codes combUe s e
  | .phzProcess n k stateUe e => Sys2Proof.Machine.execPhzProcess n k stateUe s e
  | .overrun n k b => Sys2Proof.Machine.execOverrun n k b s
  | .meridOutPulse t => Sys2Proof.Machine.execMeridOutPulse t s
  | .meridInEdge t widthNs => Sys2Proof.Machine.execMeridInEdge t widthNs s
  | .inLost t => Sys2Proof.Machine.execInLost t s
  | .modeRun q t => Sys2Proof.Machine.execModeRun q t s
  | .modeConfig q t => Sys2Proof.Machine.execModeConfig q t s
  | .modeStandby q t => Sys2Proof.Machine.execModeStandby q t s
  | .modeCalibrate q t => Sys2Proof.Machine.execModeCalibrate q t s
  | .modeB50 q t => Sys2Proof.Machine.execModeB50 q t s
  | .laneDrainEnd n t => Sys2Proof.Machine.execLaneDrainEnd n t s
  | .restartLane q t n => Sys2Proof.Machine.execRestartLane q t n s
  | .stopLane q t n => Sys2Proof.Machine.execStopLane q t n s
  | .refWindow t err => Sys2Proof.Machine.execRefWindow t err s
  | .refLost t => Sys2Proof.Machine.execRefLost t s
  | .holdoverChangeover t => Sys2Proof.Machine.execHoldoverChangeover t s
  | .refBack t => Sys2Proof.Machine.execRefBack t s
  | .forceHoldSet q t => Sys2Proof.Machine.execForceHoldSet q t s
  | .forceHoldClear q t => Sys2Proof.Machine.execForceHoldClear q t s
  | .epochSet q t lo => Sys2Proof.Machine.execEpochSet q t lo s
  | .tbaseAdj q t adj => Sys2Proof.Machine.execTbaseAdj q t adj s
  | .adjDone t => Sys2Proof.Machine.execAdjDone t s
  | .epochWrap => Sys2Proof.Machine.execEpochWrap s
  | .ppsInEdge stamp => Sys2Proof.Machine.execPpsInEdge stamp s
  | .ppsLost t => Sys2Proof.Machine.execPpsLost t s
  | .ppsOutRise t => Sys2Proof.Machine.execPpsOutRise t s
  | .ppsOutFall t => Sys2Proof.Machine.execPpsOutFall t s
  | .tdcEdge src count fine rising => Sys2Proof.Machine.execTdcEdge src count fine rising s
  | .ivWindowEnd m t => Sys2Proof.Machine.execIvWindowEnd m t s
  | .qdataPop q t => Sys2Proof.Machine.execQdataPop q s t
  | .ivResultRead q m => Sys2Proof.Machine.execIvResultRead q m s
  | .timeSnapshotRead q t pps => Sys2Proof.Machine.execTimeSnapshotRead q t pps s
  | .launchWindowEnd n t => Sys2Proof.Machine.execLaunchWindowEnd n t s
  | .dlUnlock t => Sys2Proof.Machine.execDlUnlock t s
  | .gateClosed ball t => Sys2Proof.Machine.execGateClosed ball t s
  | .gateOpen ball t => Sys2Proof.Machine.execGateOpen ball t s
  | .loopUpdate idx samples => Sys2Proof.Machine.execLoopUpdate idx samples s
  | .loopSat idx => Sys2Proof.Machine.execLoopSat idx s
  | .overcurrent m sense => Sys2Proof.Machine.execOvercurrent m sense s
  | .rampDone m t => Sys2Proof.Machine.execRampDone m s t
  | .outputCheck c => Sys2Proof.Machine.execOutputCheck c s
  | .faultClear q page bits => Sys2Proof.Machine.execFaultClear q page bits s
  | .arcDecision n shots => Sys2Proof.Machine.execArcDecision n shots s
  | .rangeChange n t => Sys2Proof.Machine.execRangeChange n t s
  | .servoSat n c current => Sys2Proof.Machine.execServoSat n c current s
  | .pdbLimit n ua => Sys2Proof.Machine.execPdbLimit n ua s
  | .duskInjection n t => Sys2Proof.Machine.execDuskInjection n t s
  | .mfDataWrite q n w => Sys2Proof.Machine.execMfDataWrite q n w s
  | .traceFrame n codes => Sys2Proof.Machine.execTraceFrame n codes s
  | .slowPart n e => Sys2Proof.Machine.execSlowPart n s e
  | .coefWrite q n w => Sys2Proof.Machine.execCoefWrite q n w s
  | .segmentClose seg => Sys2Proof.Machine.execSegmentClose seg s
  | .rearm z => Sys2Proof.Machine.execRearm z s
  | .throttle => Sys2Proof.Machine.execThrottle s
  | .captRelease q segId => Sys2Proof.Machine.execCaptRelease q segId s
  | .holdExpired seg => Sys2Proof.Machine.execHoldExpired seg s
  | .segmentFree seg => Sys2Proof.Machine.execSegmentFree seg s
  | .evtFlush t => Sys2Proof.Machine.execEvtFlush s t
  | .zoneDataWrite q w => Sys2Proof.Machine.execZoneDataWrite q w s
  | .ramanLaunch t => Sys2Proof.Machine.execRamanLaunch t s
  | .ramanReturn n x y baseX baseY err => Sys2Proof.Machine.execRamanReturn n x y baseX baseY s err
  | .dtsPeriodEnd n t => Sys2Proof.Machine.execDtsPeriodEnd n t s
  | .profile n => Sys2Proof.Machine.execProfile n s
  | .auxSrcWrite q t x_s w => Sys2Proof.Machine.execAuxSrcWrite q t x_s w s
  | .settleEnd x_s => Sys2Proof.Machine.execSettleEnd x_s s
  | .auxEnable q t w => Sys2Proof.Machine.execAuxEnable q t w s
  | .auxDisable q t w => Sys2Proof.Machine.execAuxDisable q t w s
  | .auxStartEdge t => Sys2Proof.Machine.execAuxStartEdge t s
  | .auxReq q t w => Sys2Proof.Machine.execAuxReq q t w s
  | .auxConversionStart t => Sys2Proof.Machine.execAuxConversionStart t s
  | .integrationEnd t vin vref comply => Sys2Proof.Machine.execIntegrationEnd t vin vref comply s
  | .dwellEnd t => Sys2Proof.Machine.execDwellEnd t s
  | .result t => Sys2Proof.Machine.execResult t s
  | .scanGapEnd t => Sys2Proof.Machine.execScanGapEnd t s
  | .auxResultRead q r => Sys2Proof.Machine.execAuxResultRead q r s
  | .mpy n p => Sys2Proof.Machine.execMpy n p s
  | .mac n p => Sys2Proof.Machine.execMac n p s
  | .msu n p => Sys2Proof.Machine.execMsu n p s
  | .move n p => Sys2Proof.Machine.execMove n p s
  | .add n d x_s t => Sys2Proof.Machine.execAdd n d x_s t s
  | .sub n d x_s t => Sys2Proof.Machine.execSub n d x_s t s
  | .and n d x_s t => Sys2Proof.Machine.execAnd n d x_s t s
  | .or n d x_s t => Sys2Proof.Machine.execOr n d x_s t s
  | .xor n d x_s t => Sys2Proof.Machine.execXor n d x_s t s
  | .asr n d x_s sh => Sys2Proof.Machine.execAsr n d x_s sh s
  | .lsr n d x_s sh => Sys2Proof.Machine.execLsr n d x_s sh s
  | .lsl n d x_s sh => Sys2Proof.Machine.execLsl n d x_s sh s
  | .addi n d x_s imm => Sys2Proof.Machine.execAddi n d x_s imm s
  | .cmp n x_s t => Sys2Proof.Machine.execCmp n x_s t s
  | .cmpi n x_s imm => Sys2Proof.Machine.execCmpi n x_s imm s
  | .abs n d x_s => Sys2Proof.Machine.execAbs n d x_s s
  | .neg n d x_s => Sys2Proof.Machine.execNeg n d x_s s
  | .min n d x_s t => Sys2Proof.Machine.execMin n d x_s t s
  | .max n d x_s t => Sys2Proof.Machine.execMax n d x_s t s
  | .minx n d x_s t => Sys2Proof.Machine.execMinx n d x_s t s
  | .maxx n d x_s t => Sys2Proof.Machine.execMaxx n d x_s t s
  | .minxu n d x_s t => Sys2Proof.Machine.execMinxu n d x_s t s
  | .maxxu n d x_s t => Sys2Proof.Machine.execMaxxu n d x_s t s
  | .movi n d imm => Sys2Proof.Machine.execMovi n d imm s
  | .orsh n d x_s imm => Sys2Proof.Machine.execOrsh n d x_s imm s
  | .mov n d x_s => Sys2Proof.Machine.execMov n d x_s s
  | .extu n d x_s bit width => Sys2Proof.Machine.execExtu n d x_s bit width s
  | .exts n d x_s bit width => Sys2Proof.Machine.execExts n d x_s bit width s
  | .mova n d a sh => Sys2Proof.Machine.execMova n d a sh s
  | .movta n a x_s => Sys2Proof.Machine.execMovta n a x_s s
  | .adda n a x_s => Sys2Proof.Machine.execAdda n a x_s s
  | .clra n a => Sys2Proof.Machine.execClra n a s
  | .sha n a sh => Sys2Proof.Machine.execSha n a sh s
  | .movp n d x_s => Sys2Proof.Machine.execMovp n d x_s s
  | .movb n d x_s => Sys2Proof.Machine.execMovb n d x_s s
  | .movl n d x_s => Sys2Proof.Machine.execMovl n d x_s s
  | .ldpi n d imm => Sys2Proof.Machine.execLdpi n d imm s
  | .ldbi n d imm => Sys2Proof.Machine.execLdbi n d imm s
  | .ldli n d imm => Sys2Proof.Machine.execLdli n d imm s
  | .addp n d imm => Sys2Proof.Machine.execAddp n d imm s
  | .rdp n d x_s => Sys2Proof.Machine.execRdp n d x_s s
  | .rdb n d x_s => Sys2Proof.Machine.execRdb n d x_s s
  | .rdl n d x_s => Sys2Proof.Machine.execRdl n d x_s s
  | .ld n d x_s u e => Sys2Proof.Machine.execLd n d x_s u s e
  | .st n d x_s u => Sys2Proof.Machine.execSt n d x_s u s
  | .ldo n d x_s off => Sys2Proof.Machine.execLdo n d x_s off s
  | .sto n d x_s off => Sys2Proof.Machine.execSto n d x_s off s
  | .lda n a x_s u => Sys2Proof.Machine.execLda n a x_s u s
  | .sta n a x_s u => Sys2Proof.Machine.execSta n a x_s u s
  | .ldd n d y addr => Sys2Proof.Machine.execLdd n d y addr s
  | .std n d y addr => Sys2Proof.Machine.execStd n d y addr s
  | .inp n d port => Sys2Proof.Machine.execInp n d port s
  | .out n d port => Sys2Proof.Machine.execOut n d port s
  | .movs n d x => Sys2Proof.Machine.execMovs n d x s
  | .movsr n d x => Sys2Proof.Machine.execMovsr n d x s
  | .nop n => Sys2Proof.Machine.execNop n s
  | .br n c addr => Sys2Proof.Machine.execBr n c addr s
  | .call n addr => Sys2Proof.Machine.execCall n addr s
  | .ret n c => Sys2Proof.Machine.execRet n c s
  | .jmpr n x_s => Sys2Proof.Machine.execJmpr n x_s s
  | .loopi n count le => Sys2Proof.Machine.execLoopi n count le s
  | .loopr n x_s le => Sys2Proof.Machine.execLoopr n x_s le s
  | .brklp n => Sys2Proof.Machine.execBrklp n s
  | .rti n => Sys2Proof.Machine.execRti n s
  | .wait n => Sys2Proof.Machine.execWait n s
  | .halt n => Sys2Proof.Machine.execHalt n s
  | .setie n v => Sys2Proof.Machine.execSetie n v s
  | .clrv n => Sys2Proof.Machine.execClrv n s
  | .zcInterrupt n => Sys2Proof.Machine.execZcInterrupt n s
  | .bkptHit n => Sys2Proof.Machine.execBkptHit n s
  | .evqPop n => Sys2Proof.Machine.execEvqPop n s
  | .segGo n w => Sys2Proof.Machine.execSegGo n w s
  | .segCopyDone n ue => Sys2Proof.Machine.execSegCopyDone n ue s
  | .segRel n segId => Sys2Proof.Machine.execSegRel n segId s
  | .vdPost n t => Sys2Proof.Machine.execVdPost n t s
  | .tmrCommit n t lo => Sys2Proof.Machine.execTmrCommit n t lo s
  | .zcTimer n t => Sys2Proof.Machine.execZcTimer n t s
  | .zcStart q n => Sys2Proof.Machine.execZcStart q n s
  | .haltReq q n => Sys2Proof.Machine.execHaltReq q n s
  | .zcStep q n => Sys2Proof.Machine.execZcStep q n s
  | .clrFault q n => Sys2Proof.Machine.execClrFault q n s
  | .zcMemWrite q n w => Sys2Proof.Machine.execZcMemWrite q n w s
  | .cmpTake e => Sys2Proof.Machine.execCmpTake e s
  | .cmpRestoreDone e ctxUe => Sys2Proof.Machine.execCmpRestoreDone e ctxUe s
  | .cmpCodeDone e err => Sys2Proof.Machine.execCmpCodeDone e s err
  | .cmpSaveDone e => Sys2Proof.Machine.execCmpSaveDone e s
  | .chainLinkAvailable c => Sys2Proof.Machine.execChainLinkAvailable c s
  | .abandoned c => Sys2Proof.Machine.execAbandoned c s
  | .pauseDrop c => Sys2Proof.Machine.execPauseDrop c s
  | .ctxReset q w => Sys2Proof.Machine.execCtxReset q w s
  | .ctxCfgWrite q w => Sys2Proof.Machine.execCtxCfgWrite q w s
  | .dcmpGo q e => Sys2Proof.Machine.execDcmpGo q e s
  | .dcmpRecord e src => Sys2Proof.Machine.execDcmpRecord e src s
  | .dcmpAbort q e => Sys2Proof.Machine.execDcmpAbort q e s
  | .dcmpClear q e => Sys2Proof.Machine.execDcmpClear q e s
  | .memcTrain q ch => Sys2Proof.Machine.execMemcTrain q ch s
  | .trainDone ch eyes failStep failLane => Sys2Proof.Machine.execTrainDone ch eyes failStep failLane s
  | .ready ch => Sys2Proof.Machine.execReady ch s
  | .regionWrite q size w => Sys2Proof.Machine.execRegionWrite q size w s
  | .memcRequest t rd write ra data => Sys2Proof.Machine.execMemcRequest t rd write ra data s
  | .memcIssue ch t => Sys2Proof.Machine.execMemcIssue ch t s
  | .agePromote ch t => Sys2Proof.Machine.execAgePromote ch t s
  | .readData ch errs => Sys2Proof.Machine.execReadData ch errs s
  | .refreshDue ch rank => Sys2Proof.Machine.execRefreshDue ch rank s
  | .scrubRead ch t => Sys2Proof.Machine.execScrubRead ch t s
  | .scrubUrgent ch t => Sys2Proof.Machine.execScrubUrgent ch t s
  | .zqShort ch => Sys2Proof.Machine.execZqShort ch s
  | .hello t c => Sys2Proof.Machine.execHello t c s
  | .subscribe t c b => Sys2Proof.Machine.execSubscribe t c b s
  | .renew t c leaseS => Sys2Proof.Machine.execRenew t c leaseS s
  | .unsubscribe t c => Sys2Proof.Machine.execUnsubscribe t c s
  | .status t c => Sys2Proof.Machine.execStatus t c s
  | .leaseExpiry t idx => Sys2Proof.Machine.execLeaseExpiry t idx s
  | .entryFree idx => Sys2Proof.Machine.execEntryFree idx s
  | .joinHoldoffEnd t sid => Sys2Proof.Machine.execJoinHoldoffEnd t sid s
  | .data idx e => Sys2Proof.Machine.execData idx s e
  | .ethTxFrame p t => Sys2Proof.Machine.execEthTxFrame p t s
  | .ethRxFrame p t f => Sys2Proof.Machine.execEthRxFrame p t f s
  | .linkUp p => Sys2Proof.Machine.execLinkUp p s
  | .linkDown p => Sys2Proof.Machine.execLinkDown p s
  | .addrBound p v6 bound => Sys2Proof.Machine.execAddrBound p v6 bound s
  | .ethCfgWrite q p off w => Sys2Proof.Machine.execEthCfgWrite q p off w s
  | .ptpEventMessage m stamp offset delay => Sys2Proof.Machine.execPtpEventMessage m stamp offset delay s
  | .ptpMessageSend m t => Sys2Proof.Machine.execPtpMessageSend m t s
  | .announceTimeout => Sys2Proof.Machine.execAnnounceTimeout s
  | .bar2Access write x len bytes => Sys2Proof.Machine.execBar2Access write x len bytes s
  | .flr f bme => Sys2Proof.Machine.execFlr f bme s
  | .pcieReset k => Sys2Proof.Machine.execPcieReset k s
  | .dmaGo q ch => Sys2Proof.Machine.execDmaGo q ch s
  | .dmaAbort q ch => Sys2Proof.Machine.execDmaAbort q ch s
  | .abortDone ch => Sys2Proof.Machine.execAbortDone ch s
  | .db q ch => Sys2Proof.Machine.execDb q ch s
  | .rpWrite q ch w => Sys2Proof.Machine.execRpWrite q ch w s
  | .dmaCfgWrite q ch off w => Sys2Proof.Machine.execDmaCfgWrite q ch off w s
  | .dmaRecordWrite ch t e => Sys2Proof.Machine.execDmaRecordWrite ch t s e
  | .descFetch ch c => Sys2Proof.Machine.execDescFetch ch c s
  | .copyTransfer ch c => Sys2Proof.Machine.execCopyTransfer ch c s
  | .modTimeout ch => Sys2Proof.Machine.execModTimeout ch s
  | .pme f => Sys2Proof.Machine.execPme f s
  | .d0Return f => Sys2Proof.Machine.execD0Return f s
  | .l2Entry => Sys2Proof.Machine.execL2Entry s
  | .b50DescPoll c => Sys2Proof.Machine.execB50DescPoll c s
  | .icuClaim tg => Sys2Proof.Machine.execIcuClaim tg s
  | .icuComplete tg page value => Sys2Proof.Machine.execIcuComplete tg page value s
  | .icuSwSet q w => Sys2Proof.Machine.execIcuSwSet q w s
  | .privSwSet q tg w => Sys2Proof.Machine.execPrivSwSet q tg w s
  | .srcCfgWrite q w => Sys2Proof.Machine.execSrcCfgWrite q w s
  | .stranded x_s => Sys2Proof.Machine.execStranded x_s s
  | .stewardTimer c t => Sys2Proof.Machine.execStewardTimer c t s
  | .wdtService q c t => Sys2Proof.Machine.execWdtService q c t s
  | .wdtWarning c => Sys2Proof.Machine.execWdtWarning c s
  | .wdt c => Sys2Proof.Machine.execWdt c s
  | .mcheck c => Sys2Proof.Machine.execMcheck c s
  | .stewardRestartDone c => Sys2Proof.Machine.execStewardRestartDone c s
  | .loadWindow load0 load1 => Sys2Proof.Machine.execLoadWindow load0 load1 s
  | .mboxGo f t => Sys2Proof.Machine.execMboxGo f t s
  | .mboxDone f => Sys2Proof.Machine.execMboxDone f s
  | .getInfo f => Sys2Proof.Machine.execGetInfo f s
  | .zcLoad f mask ra => Sys2Proof.Machine.execZcLoad f mask ra s
  | .fwChunk f off bytes => Sys2Proof.Machine.execFwChunk f off bytes s
  | .fwInstall f fromRa ra len => Sys2Proof.Machine.execFwInstall f fromRa ra len s
  | .fwSelect f slot => Sys2Proof.Machine.execFwSelect f slot s
  | .fwCommitSvn f svn => Sys2Proof.Machine.execFwCommitSvn f svn s
  | .codeCopy code => Sys2Proof.Machine.execCodeCopy code s
  | .calAdcIlv f lanes path => Sys2Proof.Machine.execCalAdcIlv f lanes path s
  | .calIq f lanes path => Sys2Proof.Machine.execCalIq f lanes path s
  | .calRange f lanes path t => Sys2Proof.Machine.execCalRange f lanes path t s
  | .calTdc f path => Sys2Proof.Machine.execCalTdc f path s
  | .calAux f path r => Sys2Proof.Machine.execCalAux f path r s
  | .calDtsBath f step lane j path => Sys2Proof.Machine.execCalDtsBath f step lane j path s
  | .calRun2Start t => Sys2Proof.Machine.execCalRun2Start t s
  | .calDone pairs fig => Sys2Proof.Machine.execCalDone pairs fig s
  | .squeezeWindow n t => Sys2Proof.Machine.execSqueezeWindow n t s
  | .squeezeTimeout => Sys2Proof.Machine.execSqueezeTimeout s
  | .calAbort q => Sys2Proof.Machine.execCalAbort q s
  | .bgCheck began t pairs fig => Sys2Proof.Machine.execBgCheck began t pairs fig s
  | .almUserWrite q w => Sys2Proof.Machine.execAlmUserWrite q w s
  | .claimAssert t => Sys2Proof.Machine.execClaimAssert t s
  | .claimHoldEnd t => Sys2Proof.Machine.execClaimHoldEnd t s
  | .backoff t => Sys2Proof.Machine.execBackoff t s
  | .takeoverFail t => Sys2Proof.Machine.execTakeoverFail t s
  | .peerClaim t => Sys2Proof.Machine.execPeerClaim t s
  | .heartbeatSend t => Sys2Proof.Machine.execHeartbeatSend t s
  | .heartbeatReceive t hb => Sys2Proof.Machine.execHeartbeatReceive t hb s
  | .twinAlive q t => Sys2Proof.Machine.execTwinAlive q t s
  | .peerLost t => Sys2Proof.Machine.execPeerLost t s
  | .selfDemote t => Sys2Proof.Machine.execSelfDemote t s
  | .takeoverTrigger cause t => Sys2Proof.Machine.execTakeoverTrigger cause t s
  | .takeoverRetry t => Sys2Proof.Machine.execTakeoverRetry t s
  | .addrAnnounce t => Sys2Proof.Machine.execAddrAnnounce t s
  | .mirrorSend t item => Sys2Proof.Machine.execMirrorSend t item s
  | .mirrorReceive t seq item => Sys2Proof.Machine.execMirrorReceive t seq item s
  | .mirrorResend t seq => Sys2Proof.Machine.execMirrorResend t seq s
  | .outOfStep => Sys2Proof.Machine.execOutOfStep s
  | .twinLinkDown => Sys2Proof.Machine.execTwinLinkDown s
  | .twinStatusOp f => Sys2Proof.Machine.execTwinStatusOp f s
  | .handover f t => Sys2Proof.Machine.execHandover f t s
  | .takeover f t => Sys2Proof.Machine.execTakeover f t s
  | .resync f t => Sys2Proof.Machine.execResync f t s
  | .nwTest idx pass chain => Sys2Proof.Machine.execNwTest idx pass chain s
  | .healthWord t => Sys2Proof.Machine.execHealthWord t s
  | .b50Run q t => Sys2Proof.Machine.execB50Run q t s
  | .b50Stop q t => Sys2Proof.Machine.execB50Stop q t s
  | .b50SoftReset q => Sys2Proof.Machine.execB50SoftReset q s
  | .b50Shot codes => Sys2Proof.Machine.execB50Shot codes s
  | .b50DmaEn q => Sys2Proof.Machine.execB50DmaEn q s
  | .b50DmaAbort q => Sys2Proof.Machine.execB50DmaAbort q s
  | .b50Doorbell q c => Sys2Proof.Machine.execB50Doorbell q c s
  | .b50IrqClear q bits sets => Sys2Proof.Machine.execB50IrqClear q bits sets s
  | .irqStatusClear q page bits sets => Sys2Proof.Machine.execIrqStatusClear q page bits sets s
  | .rcRead q page off missed => Sys2Proof.Machine.execRcRead q page off missed s
  | .pairHiWrite q page off w => Sys2Proof.Machine.execPairHiWrite q page off w s
  | .pairLoWrite q t page off w => Sys2Proof.Machine.execPairLoWrite q t page off w s
  | .pairLoRead q page off => Sys2Proof.Machine.execPairLoRead q page off s
  | .windowAccess q page off w => Sys2Proof.Machine.execWindowAccess q page off w s
  | .registerWrite q t page off w => Sys2Proof.Machine.execRegisterWrite q t page off w s
  | .pageSoftReset q page => Sys2Proof.Machine.execPageSoftReset q page s
  | .sysSoftReset q => Sys2Proof.Machine.execSysSoftReset q s
  | .por x_s => Sys2Proof.Machine.execPor x_s s
  | .resetN x_s => Sys2Proof.Machine.execResetN x_s s
  | .startUp env => Sys2Proof.Machine.execStartUp env s
  | .supplyReset r => Sys2Proof.Machine.execSupplyReset r s
  | .dip r mv t => Sys2Proof.Machine.execDip r mv t s
  | .recover r t => Sys2Proof.Machine.execRecover r t s
  | .lightHoldEnd t => Sys2Proof.Machine.execLightHoldEnd t s
  | .thermWarn temps => Sys2Proof.Machine.execThermWarn temps s
  | .thermTrip temps => Sys2Proof.Machine.execThermTrip temps s
  | .illegalInstruction n w => Sys2Proof.Machine.execIllegalInstruction n w s
  | .gpioEdge p rising => Sys2Proof.Machine.execGpioEdge p rising s
  | .uartReceive b => Sys2Proof.Machine.execUartReceive b s
  | .twinLinkCommand => Sys2Proof.Machine.execTwinLinkCommand s
  | .twinLinkUp => Sys2Proof.Machine.execTwinLinkUp s
  | .pcieLinkUp speed width => Sys2Proof.Machine.execPcieLinkUp speed width s
  | .perstNRelease => Sys2Proof.Machine.execPerstNRelease s
  | .d3hotEntry f => Sys2Proof.Machine.execD3hotEntry f s
  | .dlLock t => Sys2Proof.Machine.execDlLock t s
  | .thermHoldEnd temps => Sys2Proof.Machine.execThermHoldEnd temps s
  | .completionTimeout ch => Sys2Proof.Machine.execCompletionTimeout ch s
  | .msixUnmask f e => Sys2Proof.Machine.execMsixUnmask f e s
  | .auxRecordFlush => Sys2Proof.Machine.execAuxRecordFlush s

end Sys2Proof.Machine
end

