-- ==== Sys2Proof/Machine/Step.lean ====
section
/-!
DEFINITION. The step: the command at the front of the queue is taken and run.
-/

namespace Sys2Proof.Machine

/-- One step: the front command runs on the state with the queue's rest. With nothing waiting the block idles. [DESIGN CHOICE: log 1] -/
def step (s : State) : Host.Outcome State Fault Refusal :=
  match s.pending with
  | [] => .next s
  | i :: r => exec i { s with pending := r }

/-- The state with the command that a word of the command table spells at the front of its queue; no row of the table has bits,
so no word spells one. [DESIGN CHOICE: log 6] -/
def State.withFetchWord (s : State) (nbits w : Nat) : State :=
  match decodeTableWord nbits w with
  | some i => { s with pending := i :: s.pending }
  | none => s

end Sys2Proof.Machine
end

