-- ==== Sys2Proof/Laws/Amap.lean ====
section
/-!
SUPPORT. What the maps by key, the register file, and record memory do: a read after a write, and the canonical forms.
-/

namespace Sys2Proof.Machine

/-! ### maps -/

theorem Amap.find_put_self {α : Type} (k : Nat) (v : α) (m : Amap α) : Amap.find k (Amap.put k v m) = some v := by
  induction m with
  | nil => simp [Amap.put, Amap.find]
  | cons e r ih =>
    obtain ⟨a, w⟩ := e
    by_cases h : k < a
    · simp [Amap.put, h, Amap.find]
    · by_cases g : a = k
      · simp [Amap.put, g, Amap.find]
      · simp [Amap.put, h, g, Amap.find, ih]

theorem Amap.find_put_ne {α : Type} (k j : Nat) (v : α) (m : Amap α) (h : j ≠ k) :
    Amap.find j (Amap.put k v m) = Amap.find j m := by
  induction m with
  | nil => simp [Amap.put, Amap.find, Ne.symm h]
  | cons e r ih =>
    obtain ⟨a, w⟩ := e
    by_cases h1 : k < a
    · simp [Amap.put, h1, Amap.find, Ne.symm h]
    · by_cases g : a = k
      · subst g; simp [Amap.put, Amap.find, Ne.symm h]
      · unfold Amap.put
        simp only [h1, g, if_false, Amap.find]
        split
        · rfl
        · exact ih

theorem Amap.get_put_self {α : Type} (k : Nat) (v d : α) (m : Amap α) : Amap.get (Amap.put k v m) k d = v := by
  simp [Amap.get, Amap.find_put_self]

theorem Amap.get_put_ne {α : Type} (k j : Nat) (v d : α) (m : Amap α) (h : j ≠ k) :
    Amap.get (Amap.put k v m) j d = Amap.get m j d := by
  simp [Amap.get, Amap.find_put_ne k j v m h]

theorem Amap.find_drop {α : Type} (p : Nat → Bool) (j : Nat) (m : Amap α) :
    Amap.find j (Amap.drop p m) = if p j then none else Amap.find j m := by
  induction m with
  | nil => simp [Amap.drop, Amap.find]
  | cons e r ih =>
    obtain ⟨a, w⟩ := e
    simp only [Amap.drop, List.filter_cons] at ih ⊢
    by_cases hp : p a = true
    · by_cases g : a = j
      · subst g; simp [hp, ih]
      · simp [hp, ih, Amap.find, g]
    · by_cases g : a = j
      · subst g; simp [hp, Amap.find]
      · simp [hp, ih, Amap.find, g]

/-! ### the register file -/

theorem RegFile.get_set_self (r : RegFile) (f : Fld) (v : Nat) (h : f.width ≤ 32) :
    RegFile.get (RegFile.set r f v) f = v % 2 ^ f.width := by
  have h2 : (2 : Nat) ^ f.width ≤ 2 ^ 32 := Nat.pow_le_pow_right (by decide) h
  have h3 : v % 2 ^ f.width < 2 ^ 32 := Nat.lt_of_lt_of_le (Nat.mod_lt _ (Nat.two_pow_pos _)) h2
  simp [RegFile.get, RegFile.set, Amap.find_put_self, BitVec.toNat_ofNat]
  exact h3

theorem RegFile.get_set_ne (r : RegFile) (f g : Fld) (v : Nat) (h : g.key ≠ f.key) :
    RegFile.get (RegFile.set r f v) g = RegFile.get r g := by
  simp [RegFile.get, RegFile.set, Amap.find_put_ne _ _ _ _ h]

/-! ### record memory -/

/-- Every listed address lies above `a`, in order, and no listed byte is 0. -/
theorem memWf_iff (m : List Host.Cell) :
    memWf m = true ↔ m.Pairwise (fun x y => x.1 < y.1) ∧ ∀ e ∈ m, e.2 ≠ 0 := by
  induction m with
  | nil => simp [memWf]
  | cons e r ih =>
    obtain ⟨a, b⟩ := e
    cases r with
    | nil => simp [memWf]
    | cons f q =>
      obtain ⟨c, d⟩ := f
      simp only [memWf, Bool.and_eq_true, ih, bne_iff_ne, decide_eq_true_eq]
      constructor
      · rintro ⟨⟨hb, hac⟩, hp, hz⟩
        refine ⟨List.pairwise_cons.2 ⟨?_, hp⟩, ?_⟩
        · intro x hx
          rcases List.mem_cons.1 hx with rfl | hx'
          · exact hac
          · exact Nat.lt_trans hac ((List.pairwise_cons.1 hp).1 x hx')
        · intro x hx
          rcases List.mem_cons.1 hx with rfl | hx'
          · exact hb
          · exact hz x hx'
      · rintro ⟨hp, hz⟩
        have hp' := List.pairwise_cons.1 hp
        exact ⟨⟨hz (a, b) List.mem_cons_self, hp'.1 (c, d) List.mem_cons_self⟩, hp'.2, fun x hx => hz x (List.mem_cons_of_mem _ hx)⟩

theorem Amap.mem_put {α : Type} (k : Nat) (v : α) (m : Amap α) (e : Nat × α) (h : e ∈ Amap.put k v m) : e = (k, v) ∨ e ∈ m := by
  induction m with
  | nil => simp [Amap.put] at h; exact .inl h
  | cons x r ih =>
    obtain ⟨a, w⟩ := x
    unfold Amap.put at h
    split at h
    · rcases List.mem_cons.1 h with h | h
      · exact .inl h
      · exact .inr h
    · split at h
      · rcases List.mem_cons.1 h with h | h
        · exact .inl h
        · exact .inr (List.mem_cons_of_mem _ h)
      · rcases List.mem_cons.1 h with h | h
        · exact .inr (h ▸ List.mem_cons_self)
        · rcases ih h with h | h
          · exact .inl h
          · exact .inr (List.mem_cons_of_mem _ h)

theorem Amap.pairwise_put {α : Type} (k : Nat) (v : α) (m : Amap α) (h : m.Pairwise (fun x y => x.1 < y.1)) :
    (Amap.put k v m).Pairwise (fun x y => x.1 < y.1) := by
  induction m with
  | nil => simp [Amap.put]
  | cons x r ih =>
    obtain ⟨a, w⟩ := x
    have hc := List.pairwise_cons.1 h
    unfold Amap.put
    split
    · rename_i hk
      refine List.pairwise_cons.2 ⟨?_, h⟩
      intro y hy
      rcases List.mem_cons.1 hy with rfl | hy
      · exact hk
      · exact Nat.lt_trans hk (hc.1 y hy)
    · rename_i hk
      split
      · rename_i ha
        subst ha
        exact List.pairwise_cons.2 ⟨fun y hy => hc.1 y hy, hc.2⟩
      · rename_i ha
        refine List.pairwise_cons.2 ⟨?_, ih hc.2⟩
        intro y hy
        rcases Amap.mem_put k v r y hy with rfl | hy
        · simp only; omega
        · exact hc.1 y hy

/-- Storing a byte keeps the canonical form. -/
theorem memPut_wf (a : Nat) (b : Byte) (m : List Host.Cell) (h : memWf m = true) : memWf (memPut a b m) = true := by
  rw [memWf_iff] at h ⊢
  unfold memPut
  split
  · exact ⟨h.1.sublist (List.filter_sublist), fun e he => h.2 e ((List.mem_filter.1 he).1)⟩
  · rename_i hb
    refine ⟨Amap.pairwise_put a b m h.1, fun e he => ?_⟩
    rcases Amap.mem_put a b m e he with rfl | he
    · exact hb
    · exact h.2 e he

/-- Storing bytes keeps the canonical form. -/
theorem memFill_wf (a : Nat) (l : List Byte) (m : List Host.Cell) (h : memWf m = true) : memWf (memFill a l m) = true := by
  induction l generalizing a m with
  | nil => exact h
  | cons b r ih => exact ih (a + 1) _ (memPut_wf a b m h)

/-- Removing addresses keeps the canonical form. -/
theorem memDrop_wf (p : Nat → Bool) (m : List Host.Cell) (h : memWf m = true) : memWf (Amap.drop p m) = true := by
  rw [memWf_iff] at h ⊢
  exact ⟨h.1.sublist (List.filter_sublist), fun e he => h.2 e ((List.mem_filter.1 he).1)⟩

/-- A store to record memory keeps the canonical form. -/
theorem memWrite_wf (a : Nat) (l : List Byte) (s : State) (h : memWf s.mem = true) : memWf (memWrite a l s).mem = true :=
  memFill_wf a l s.mem h

/-- A byte reads as it was stored. -/
theorem memByte_memPut_self (a : Nat) (b : Byte) (m : List Host.Cell) : memByte (memPut a b m) a = b := by
  unfold memPut memByte
  split
  · rename_i h; simp [Amap.get, Amap.del, Amap.find_drop, h]
  · exact Amap.get_put_self a b 0 m

/-- A store leaves every other byte. -/
theorem memByte_memPut_ne (a j : Nat) (b : Byte) (m : List Host.Cell) (h : j ≠ a) : memByte (memPut a b m) j = memByte m j := by
  unfold memPut memByte
  split
  · simp [Amap.get, Amap.del, Amap.find_drop, h]
  · exact Amap.get_put_ne a j b 0 m h

/-- A store of bytes leaves every byte outside them. -/
theorem memByte_memFill_out (a j : Nat) (l : List Byte) (m : List Host.Cell) (h : j < a ∨ a + l.length ≤ j) :
    memByte (memFill a l m) j = memByte m j := by
  induction l generalizing a m with
  | nil => rfl
  | cons b r ih =>
    simp only [List.length_cons] at h
    rw [memFill, ih (a + 1) _ (by omega), memByte_memPut_ne a j b m (by omega)]

/-- A stored byte reads as it was stored. -/
theorem memByte_memFill_in (a i : Nat) (l : List Byte) (m : List Host.Cell) (h : i < l.length) :
    memByte (memFill a l m) (a + i) = l.getD i 0 := by
  induction l generalizing a i m with
  | nil => simp at h
  | cons b r ih =>
    cases i with
    | zero => simp [memFill, memByte_memFill_out (a + 1) a r _ (by omega), memByte_memPut_self]
    | succ i =>
      have := ih (a + 1) i (memPut a b m) (by simpa using h)
      simp only [memFill, List.getD_cons_succ]
      rw [← this]; congr 1; omega

/-- Every byte outside a store reads as before. -/
theorem memByte_memWrite_out (a j : Nat) (l : List Byte) (s : State) (h : j < a ∨ a + l.length ≤ j) :
    memByte (memWrite a l s).mem j = memByte s.mem j := memByte_memFill_out a j l s.mem h

end Sys2Proof.Machine
end

