-- ==== Sys2Proof/Safety.lean ====
section
/-!
DEFINITION. What counts as a safe run, in the terms that the statements use.
-/

namespace Sys2Proof.Machine

/-- The outcome is a next state. -/
def goesOn (r : Host.Outcome State Fault Refusal) : Prop := ∃ t, r = .next t

/-- The stores that have a canonical form are in it: record memory lists its bytes in order of address, and none that reads as an
unlisted one (R349). -/
def State.memOk (s : State) : Prop := memWf s.mem = true

/-- A lane's light may leave the device: the gate function of R21 holds, the claim is complete and no hold or fault is in force
(R111, R498, R563, R571). -/
def State.mayEmit (s : State) (n : Lane) : Bool := s.emissionOn && !laneInhibited s n

end Sys2Proof.Machine
end

