-- ==== Sys2Proof/Certificates/Slice0/Obligations.lean ====
section
/-!
DEFINITION. The statements for the provers.
-/

namespace Sys2Proof.Claims

open Sys2Proof.Machine

/-- The command answers a next state, and `P` holds of that state. -/
def Gives (c : Instr) (s : State) (P : State → Prop) : Prop := ∃ t, exec c s = .next t ∧ P t

/-- Bit `b` of PAGE_IRQ_STATUS of page `p` reads 1. -/
def Raised (t : State) (p b : Nat) : Prop := t.st (irqStatus p) / 2 ^ b % 2 = 1

end Sys2Proof.Claims

open Sys2Proof Sys2Proof.Machine Sys2Proof.Claims

/-! ### ticks, commits and shots -/

/-- R33, R34, R36: a PAGE_COMMIT whose check word matches makes the page's commit pending, in place of an earlier one, HELD while HOLD is set; one whose check word differs makes the state MISMATCH and leaves what is pending. R36: the writes of the broadcast apply. HOLD follows the write, every pending commit reads HELD once it is set, and APPLY_PENDING says that held commits wait; the LO word of MERID_APPLY_TICK takes the requester's staged HI with it. States completion of: pageCommit, applyHoldWrite, applyTickWrite. The model's readings here: log entries 21, 22. -/
def Obligations.CommitsAndApplies : Prop :=
  (∀ (q : Requester) (t : Time) (page : Nat) (check : Word) (s : State), s.reaches q page = true → pagePresent page = true →
    (check.toNat = pageCheck s page → Gives (.pageCommit q t page check) s fun u =>
      u.st (commitState page) = 1 ∧ u.st (commitHeld page) = s.lv Reg.MERID_APPLY_CTRL_HOLD % 2 ∧ u.commitReady page = true ∧
      (u.commits.filter fun c => c.page == page).length = 1 ∧
      (∀ c ∈ s.commits, c.page ≠ page → c ∈ u.commits) ∧ u.live = s.live ∧ u.shadow = s.shadow) ∧
    (check.toNat ≠ pageCheck s page → Gives (.pageCommit q t page check) s fun u =>
      u.st (commitState page) = 3 ∧ u.commits = s.commits ∧ u.live = s.live ∧ u.shadow = s.shadow)) ∧
  ((∀ (q : Requester) (t : Time) (hold : Bool) (s : State), s.reaches q 0x011 = true →
    Gives (.applyHoldWrite q t hold) s fun u =>
      u.lv Reg.MERID_APPLY_CTRL_HOLD = bit hold ∧ (hold = true → ∀ c ∈ s.commits, u.st (commitHeld c.page) = 1) ∧
      u.st Reg.MERID_STATUS_APPLY_PENDING = bit (hold && !s.commits.isEmpty) ∧
      u.merid.applyAt = (advance t s).time ∧ u.mem = s.mem ∧ u.lanes = s.lanes) ∧
  (∀ (q : Requester) (t : Time) (lo : Word) (s : State), s.reaches q 0x011 = true →
    Gives (.applyTickWrite q t lo) s fun u =>
      u.applyTick = lo.toNat + 2 ^ 32 * (match s.staged q (regAddr 0x011 0x05C) with
        | some w => w.toNat % 256
        | none => s.lv Reg.MERID_APPLY_TICK_HI % 256) ∧
      u.staged q (regAddr 0x011 0x05C) = none ∧ u.status = (advance t s).status ∧ u.mem = s.mem))

/-- R28, R100, R110, R111: at a slot's command instant a RUNNING lane whose gate function is true and whose claim is complete plays its waveform and opens the gate; one that may not emit counts its slot shots dark; either way the slot shots join the lane's shots. R144, R111, R38: SHOT takes the oldest shot of the slot with its gate pulse out of the lane's shots and hands one gauge shot to PHZ, for a dark or discarded shot, or one lost to an uncorrectable error (R15), one that is a HOLE; PHZ takes the lane's gauge shots in the order of their launches. States completion of: slotLaunch, shotProcess, phzProcess. The model's readings here: log entry 37. -/
def Obligations.ShotsLaunchAndPass : Prop :=
  (∀ (n : Lane) (k : Slot) (t c : Time) (s : State), s.mode ≠ 5 → s.laneState n = 2 → s.laneMode n ≠ 0 → s.laneMode n ≠ 5 →
    pulseSlots s n k ≠ [] → (s.lanes.get n).launched.contains k.val = false → (s.lanes.get n).withheld = false → c = launchInstant s n k →
    (advance t s).reached c = true →
    (s.emissionOn = true → laneInhibited s n = false → Gives (.slotLaunch n k t) s fun u =>
      (∃ e, u.out = .launch n (pulseSlots s n k) (c + nsT 28) (c + nsT (28 + s.lv (Reg.SYNn_GATE_TIME_LEAD.pg n))) e (s.lv (Reg.SYNn_GATE_AMP.pg n)) ::
        .waveform n (pulseWave s.live n (pulseSlots s n k)).1 :: s.out) ∧
      (u.shots.get n).lastDark = some false ∧ u.st (Reg.SYNn_STATUS_DARK.pg n) = 0 ∧
      (s.laneMode n ≠ 7 → ∃ l, (u.shots.get n).shots = (s.shots.get n).shots ++ l ∧ l.map (·.slot) = pulseSlots s n k ∧ ∀ x ∈ l, x.dark = false ∧ x.at_ = c)) ∧
    ((s.emissionOn = false ∨ laneInhibited s n = true) → Gives (.slotLaunch n k t) s fun u =>
      u.out = s.out ∧ (u.shots.get n).lastDark = some true ∧ u.st (Reg.SYNn_STATUS_DARK.pg n) = 1 ∧
      u.st (Reg.SYNn_DARK_SHOTS.pg n) = (s.st (Reg.SYNn_DARK_SHOTS.pg n) + (pulseSlots s n k).length) % 2 ^ 32 ∧
      (s.laneMode n ≠ 7 → ∃ l, (u.shots.get n).shots = (s.shots.get n).shots ++ l ∧ l.map (·.slot) = pulseSlots s n k ∧ ∀ x ∈ l, x.dark = true ∧ x.at_ = c))) ∧
  ((∀ (n : Lane) (k : Slot) (codes : List (List Int)) (ue : List Nat) (e : Sram) (s : State) (x : Shot), oldestShot s n k = some x →
    Gives (.shotProcess n k codes ue e) s fun u =>
      (u.shots.get n).shots = ((s.shots.get n).shots.filter fun y => y.id ≠ x.id) ∧
      ∃ g, (u.shotp.get n).gauges = (s.shotp.get n).gauges ++ [g] ∧ g.shot.slot = x.slot ∧
        ((x.dark || x.hole || e.lost) = true → g.shot = { x with hole := true } ∧ g.vals = []) ∧
        ((x.dark || x.hole || e.lost) = false → g.shot = x)) ∧
  (∀ (n : Lane) (k : Slot) (ue : List Nat) (e : Sram) (s : State) (g : GaugeShot), phzNext s n = some g → g.shot.slot = k.val →
    Gives (.phzProcess n k ue e) s fun u =>
      (u.shotp.get n).gauges = (s.shotp.get n).gauges.erase g ∧ u.shots = s.shots ∧ u.shadow = s.shadow ∧
      ((g.shot.dark || g.shot.hole || e.lost) = true → (u.phz.get n).hist = ((g.shot.slot, false) :: (s.phz.get n).hist).take 2) ∧
      ((g.shot.dark || g.shot.hole || e.lost) = false → (u.phz.get n).last = some (g.shot.slot, g.shot.frame))))

/-- R27: at a source tick while ticks run the count advances by one modulo 2⁴⁰, starts from 0 where the ticks start, and follows a MERID_TICK_HIGH write or a marker that falls to it; the tick falls where it is due, and without one only time passes. R38: a shot that SHOT or PHZ discards for lateness is counted in MERID_OVERRUN, once for every slot of its gate pulse, named in MERID_OVERRUN_LAST, and OVERRUN is raised; one that PHZ discards stays and becomes a HOLE. R41 to R43: MERID_OUT leaves 1,000 ns before the tick, once for each; an edge on MERID_IN marks the input present and gives a started follower its next tick; and no edge for a lane period and 1 µs raises IN_LOST. States completion of: meridianTick, overrun, meridOutPulse, meridInEdge, inLost. The model's readings here: log entry 2. -/
def Obligations.TicksCountAndPulse : Prop :=
  (∀ (t : Time) (s : State),
    (∀ d, s.ticksRun = true → tickDue s t = some d → Gives (.meridianTick t) s fun u =>
      u.tickCount = countAt (advance d s) d ∧ u.merid.lastTick = d ∧ u.time = (advance d s).time) ∧
    ((s.ticksRun = false ∨ tickDue s t = none) → Gives (.meridianTick t) s fun u => u = advance t s)) ∧
  (∀ (n : Lane) (k : Slot) (s : State), s.mode ≠ 5 →
    (∀ x, oldestShot s n k = some x → Gives (.overrun n k .shot) s fun u =>
      u.st Reg.MERID_OVERRUN = (s.st Reg.MERID_OVERRUN + (pulseMates s n x).length) % 2 ^ 32 ∧
      u.st Reg.MERID_OVERRUN_LAST_SLOT = k.val ∧ u.st Reg.MERID_OVERRUN_LAST_LANE = n.val ∧
      u.st Reg.MERID_OVERRUN_LAST_BLOCK = n.val ∧ Raised u 0x011 0) ∧
    (∀ g, ((s.shotp.get n).gauges.find? fun g => g.shot.slot == k.val) = some g → Gives (.overrun n k .phz) s fun u =>
      u.st Reg.MERID_OVERRUN = (s.st Reg.MERID_OVERRUN +
        (if cfgDas g.shot.cfg n = 2 then (slotsOf g.shot.cfg n).length else 1)) % 2 ^ 32 ∧
      u.st Reg.MERID_OVERRUN_LAST_SLOT = k.val ∧ u.st Reg.MERID_OVERRUN_LAST_LANE = n.val ∧
      u.st Reg.MERID_OVERRUN_LAST_BLOCK = 2 + n.val ∧ Raised u 0x011 0)) ∧
  ((∀ (t d : Time) (s : State), s.ticksRun = true → s.on Reg.MERID_CFG_OUT_EN = true →
    tickExpected (advance t s) (t + nsT 1000) = some d → s.merid.outTick ≠ some d →
    Gives (.meridOutPulse t) s fun u => (∃ m, u.out = .meridOut (d - nsT 1000) m :: s.out) ∧ u.merid.outTick = some d) ∧
  (∀ (t : Time) (w : Nat) (s : State), s.ticksRun = true → s.follows = true → s.merid.started = false →
    Gives (.meridInEdge t w) s fun u => u.st Reg.MERID_STATUS_IN_PRESENT = 1 ∧ u.merid.inLast = some t ∧
      u.merid.inTick = some (clockNear (t + nsT (1000 - s.lv Reg.MERID_IN_TRIM_TRIM_NS))) ∧ u.st Reg.MERID_STATUS_IN_LOST = 0) ∧
  (∀ (t : Time) (s : State), (∀ e, s.merid.inLast = some e → (((s.lanePeriod s.srcLane + 1000) * duPerNs : Nat) : Int) ≤ tDiff t e) →
    s.ticksRun = true → s.merid.started = true → s.follows = true → s.st Reg.MERID_STATUS_IN_LOST = 0 →
    Gives (.inLost t) s fun u => u.st Reg.MERID_STATUS_IN_PRESENT = 0 ∧ u.st Reg.MERID_STATUS_IN_LOST = 1 ∧ Raised u 0x011 1))

/-! ### modes and lanes -/

/-- The state in which a write of SYS_MODE.DEV = `v` at `t` is judged. -/
def Sys2Proof.Claims.judged (t : Time) (v : Nat) (s : State) : State := ((advance t s).touch 0x010).setNow Reg.SYS_MODE_DEV v

/-- R47, R49, R496: a write of 0x3 in CONFIG whose conditions hold enters RUN: every lane whose mode is not OFF is STARTING, the claim
begins, and the reject code clears. Where a condition fails, the mode stays and REJECT gives the reason. States completion of: modeRun. The model's readings here: log entry 87. -/
def Obligations.RunEntryFromConfig : Prop :=
  ∀ (q : Requester) (t : Time) (s : State), s.reaches q 0x010 = true → s.mode = 1 →
    (entryRefusal (judged t 3 s) false = none → Gives (.modeRun q t) s fun u =>
      u.mode = 3 ∧ u.st Reg.SYS_MODE_STATUS_RUN_SINCE_RESET = 1 ∧ u.st Reg.MERID_STATUS_RUNNING = 1 ∧ u.twin.claim = 1 ∧
      u.merid.started = false ∧ u.st Reg.SYS_MODE_STATUS_REJECT = 0 ∧ (∀ n, cfgMode u.live n ≠ 0 → u.laneState n = 1)) ∧
    (∀ r, entryRefusal (judged t 3 s) false = some r → Gives (.modeRun q t) s fun u =>
      u.mode = 1 ∧ u.st Reg.SYS_MODE_STATUS_REJECT = r.1 % 256 ∧ u.st Reg.SYS_MODE_STATUS_REJECT_DETAIL = r.2 % 256 ∧
      u.live = (judged t 3 s).live ∧ u.regions = s.regions ∧ u.lanes = s.lanes)

/-- R47, R495: a write of 0x2 in CONFIG whose conditions hold enters STANDBY as the standby of a pair; from any other mode it is ILLEGAL and the mode stays. R47, R50: a write of 0x1 leaves STANDBY at once, and RUN once every lane is OFF: until then the device stays in RUN with its lane requests cancelled; in any other mode it is ILLEGAL. R47, R478, R479: with no lane restart pending and no mode change in progress, a write of 0x4 starts the main-path RANGE procedure of the requested lanes, in CALIBRATE. R47, R527, R528: a write of 0x5 in CONFIG before any RUN enters B50 mode, with the record-memory table of R528, no stream and no subscriber; after a RUN it is ILLEGAL. States completion of: modeStandby, modeConfig, modeCalibrate, modeB50. The model's readings here: log entries 83, 87, 98. -/
def Obligations.OtherModeEntries : Prop :=
  (∀ (q : Requester) (t : Time) (s : State), s.reaches q 0x010 = true →
    (s.mode = 1 → entryRefusal (judged t 2 s) true = none → Gives (.modeStandby q t) s fun u =>
      u.mode = 2 ∧ u.st Reg.TWIN_STATUS_ROLE = 1 ∧ u.st Reg.SYS_MODE_STATUS_REJECT = 0 ∧ u.regions = s.regionShadow ∧
      u.twin.stood = true ∧ u.twin.ran = 0) ∧
    (s.mode ≠ 1 → Gives (.modeStandby q t) s fun u =>
      u.mode = s.mode ∧ u.st Reg.SYS_MODE_STATUS_REJECT = 1 ∧ u.regions = s.regions ∧ u.twin = s.twin)) ∧
  (∀ (q : Requester) (t : Time) (s : State), s.reaches q 0x010 = true →
    (s.mode = 2 → Gives (.modeConfig q t) s fun u =>
      u.mode = 1 ∧ u.st Reg.TWIN_STATUS_ROLE = 0 ∧ u.st Reg.SYS_MODE_STATUS_REJECT = 0) ∧
    (s.mode = 3 → s.merid.leaving = none → (s.laneState 0 ≠ 0 ∨ s.laneState 1 ≠ 0) → Gives (.modeConfig q t) s fun u =>
      u.mode = 3 ∧ u.merid.leaving = some 1 ∧ (∀ n, u.st (restartBit n) = 0 ∧ u.st (stopBit n) = 0) ∧ u.laneState 0 = s.laneState 0 ∧
      u.laneState 1 = s.laneState 1) ∧
    (s.mode = 3 → s.merid.leaving = none → s.laneState 0 = 0 → s.laneState 1 = 0 → Gives (.modeConfig q t) s fun u =>
      u.mode = 1 ∧ u.merid.leaving = none ∧ u.merid.started = false ∧ u.st Reg.MERID_STATUS_RUNNING = 0 ∧ u.twin.claim = 0) ∧
    (s.mode ≠ 2 → s.mode ≠ 3 → Gives (.modeConfig q t) s fun u =>
      u.mode = s.mode ∧ u.st Reg.SYS_MODE_STATUS_REJECT = 1 ∧ u.merid = s.merid)) ∧
  (∀ (q : Requester) (t : Time) (s : State) (l : List Lane), s.reaches q 0x010 = true →
    l = lanesOf (s.lv Reg.ALM_CAL_REQ_LANES) → l ≠ [] → l.all (mainLane s) = true → s.st Reg.ALM_STATUS_CAL_BUSY = 0 →
    restartPending s = false → s.merid.leaving = none →
    (s.mode = 3 → Gives (.modeCalibrate q t) s fun u =>
      u.mode = 4 ∧ u.st Reg.ALM_STATUS_CAL_BUSY = 1 ∧ u.st Reg.ALM_STATUS_PROC = 3 ∧ u.cal.back = 3 ∧ u.cal.lanes = l ∧
      u.cal.squeeze = false ∧ u.st Reg.SYS_MODE_STATUS_REJECT = 0 ∧ u.ticksRun = true) ∧
    (s.mode = 1 → regionError (judged t 4 s) (fun _ => false) = none → Gives (.modeCalibrate q t) s fun u =>
      u.mode = 4 ∧ u.st Reg.ALM_STATUS_CAL_BUSY = 1 ∧ u.st Reg.ALM_STATUS_PROC = 3 ∧ u.cal.back = 1 ∧ u.cal.lanes = l ∧
      u.cal.stage = 2 ∧ u.regions = s.regionShadow ∧ u.ticksRun = false)) ∧
  (∀ (q : Requester) (t : Time) (s : State), s.reaches q 0x010 = true → s.mode = 1 →
    (s.st Reg.SYS_MODE_STATUS_RUN_SINCE_RESET = 0 → s.st Reg.ALM_STATUS_CAL_BUSY = 0 →
      regionError { judged t 5 s with regionShadow := b50Regions } (fun _ => false) = none → Gives (.modeB50 q t) s fun u =>
        u.mode = 5 ∧ u.strm.streams = [] ∧ u.strm.subs = [] ∧ u.regions = b50Regions ∧ u.cmp.ready = []) ∧
    (s.st Reg.SYS_MODE_STATUS_RUN_SINCE_RESET ≠ 0 → Gives (.modeB50 q t) s fun u =>
      u.mode = 1 ∧ u.st Reg.SYS_MODE_STATUS_REJECT = 1 ∧ u.strm = s.strm ∧ u.regions = s.regions))

/-- R51, R52: a lane request in RUN reads 1 until it is taken, a restart only where the lane neither starts nor drains; outside RUN and CALIBRATE it is ignored. R50, R51: one lane period after draining began, a lane that stops is OFF and its requests clear; one that restarts has drained. States completion of: stopLane, restartLane, laneDrainEnd. The model's readings here: log entries 20, 24. -/
def Obligations.LanesWaitAndDrain : Prop :=
  (∀ (q : Requester) (t : Time) (n : Lane) (s : State), s.reaches q 0x010 = true →
    ((s.mode = 3 ∨ s.mode = 4) → Gives (.stopLane q t n) s fun u =>
      u.st (stopBit n) = 1 ∧ u.tickQ = s.tickQ ++ [{ at_ := (advance t s).time, key := (stopBit n).key, value := 1 }]) ∧
    ((s.mode = 3 ∨ s.mode = 4) → s.laneState n ≠ 1 → s.laneState n ≠ 3 → Gives (.restartLane q t n) s fun u =>
      u.st (restartBit n) = 1 ∧ u.tickQ = s.tickQ ++ [{ at_ := (advance t s).time, key := (restartBit n).key, value := 1 }]) ∧
    (s.mode ≠ 3 → s.mode ≠ 4 → Gives (.stopLane q t n) s (fun u => u.tickQ = s.tickQ ∧ u.st (stopBit n) = s.st (stopBit n)) ∧
      Gives (.restartLane q t n) s (fun u => u.tickQ = s.tickQ ∧ u.st (restartBit n) = s.st (restartBit n)))) ∧
  (∀ (n : Lane) (t : Time) (s : State), s.mode ≠ 5 → s.laneState n = 3 →
    0 ≤ tDiff t ((s.lanes.get n).lastTick + nsT (s.lanePeriod n)) →
    (((s.lanes.get n).drain ≠ .restart ∨ s.merid.leaving ≠ none) → Gives (.laneDrainEnd n t) s fun u =>
      u.laneState n = 0 ∧ u.st (restartBit n) = 0 ∧ u.st (stopBit n) = 0 ∧ u.lanes.get n = {}) ∧
    ((s.lanes.get n).drain = .restart → s.merid.leaving = none → Gives (.laneDrainEnd n t) s fun u =>
      u.laneState n = 3 ∧ (u.lanes.get n).drained = true))

/-! ### reference, time and PPS -/

/-- R64, R65, R68, R69: what tells the reference. A window whose frequency error is within its limit makes REFCLK present, one beyond it or a missing edge declares it lost, and FORCE_HOLD declares it lost and then masks every edge. R65 to R67: a lost reference puts the clocks on the crystal, and the end of the slew-back clears the loss and ends the interval that flags records. States completion of: refWindow, refLost, forceHoldSet, forceHoldClear, holdoverChangeover, refBack. The model's readings here: log entry 13. -/
def Obligations.ReferenceAndHoldover : Prop :=
  ((∀ (t : Time) (err : Int) (s : State), s.lv Reg.TBASE_CFG_FORCE_HOLD = 0 → err.natAbs ≤ refLimit s →
    Gives (.refWindow t err) s fun u => u.st Reg.TBASE_STATUS_REF_PRESENT = 1 ∧ u.st Reg.TBASE_STATUS_XTAL_CAL = 1 ∧
      (s.st Reg.TBASE_STATUS_REF_LOST ≠ 0 → u.st Reg.TBASE_STATUS_SLEWING = 1 ∧ u.st Reg.TBASE_STATUS_HOLDOVER = 0)) ∧
  (∀ (t : Time) (err : Int) (s : State), s.lv Reg.TBASE_CFG_FORCE_HOLD = 0 → refLimit s < err.natAbs →
    s.tbase.refDown = false → Gives (.refWindow t err) s fun u =>
      u.st Reg.TBASE_STATUS_REF_PRESENT = 0 ∧ u.st Reg.TBASE_STATUS_REF_LOST = 1 ∧ Raised u 0x012 0) ∧
  (∀ (t : Time) (s : State), s.lv Reg.TBASE_CFG_FORCE_HOLD = 0 → s.tbase.refDown = false →
    Gives (.refLost t) s fun u => u.st Reg.TBASE_STATUS_REF_PRESENT = 0 ∧ u.st Reg.TBASE_STATUS_REF_LOST = 1 ∧ Raised u 0x012 0 ∧
      u.st Reg.TBASE_REF_LOSSES = (s.st Reg.TBASE_REF_LOSSES + 1) % 2 ^ 32 ∧
      (s.st Reg.TBASE_STATUS_REF_LOST = 0 → u.causes = ⟨0, (advance t s).time, none⟩ :: s.causes)) ∧
  (∀ (q : Requester) (t : Time) (s : State), s.reaches q 0x012 = true → s.tbase.refDown = false →
    Gives (.forceHoldSet q t) s fun u => u.lv Reg.TBASE_CFG_FORCE_HOLD = 1 ∧ u.st Reg.TBASE_STATUS_REF_LOST = 1 ∧ Raised u 0x012 0) ∧
  (∀ (q : Requester) (t : Time) (s : State), s.reaches q 0x012 = true →
    Gives (.forceHoldClear q t) s fun u => u.lv Reg.TBASE_CFG_FORCE_HOLD = 0 ∧ u.status = (advance t s).status) ∧
  (∀ (t : Time) (s : State), s.lv Reg.TBASE_CFG_FORCE_HOLD = 1 →
    Gives (.refLost t) s fun u => u = advance t s) ∧
  (∀ (t : Time) (err : Int) (s : State), s.lv Reg.TBASE_CFG_FORCE_HOLD = 1 → Gives (.refWindow t err) s fun u => u = advance t s)) ∧
  ((∀ (t : Time) (s : State), s.st Reg.TBASE_STATUS_REF_LOST ≠ 0 →
    Gives (.holdoverChangeover t) s fun u => u.st Reg.TBASE_STATUS_HOLDOVER = 1 ∧ u.live = s.live ∧ u.mem = s.mem) ∧
  (∀ (t : Time) (s : State), s.st Reg.TBASE_STATUS_SLEWING ≠ 0 →
    Gives (.refBack t) s fun u => u.st Reg.TBASE_STATUS_SLEWING = 0 ∧ u.st Reg.TBASE_STATUS_HOLDOVER = 0 ∧
      u.st Reg.TBASE_STATUS_REF_LOST = 0 ∧ Raised u 0x012 1 ∧ (∀ c ∈ u.causes, c.flag = 0 → c.till ≠ none)))

/-- R61: a write of TBASE_EPOCH_SUBS_LO takes the staged epoch, ends a slew and counts the set; staged subunits beyond a second raise EPOCH_REJECT and leave the epoch. R62: a write of TBASE_ADJ adds to the remaining adjustment, which reads busy until it is 0; at the instant by which the slew has worked it off the adjustment is done and ADJ_DONE is raised. States completion of: epochSet, tbaseAdj, adjDone. The model's readings here: log entry 2. -/
def Obligations.EpochCommitsAndAdjusts : Prop :=
  (∀ (q : Requester) (t : Time) (lo : Word) (s : State), s.reaches q 0x012 = true →
    (stagedSubs s lo ≤ 127999999999 → Gives (.epochSet q t lo) s fun u =>
      u.tbase.sec = stagedSec s ∧ u.tbase.subs = stagedSubs s lo ∧ u.st Reg.TBASE_ADJ_LEFT = 0 ∧ u.st Reg.TBASE_STATUS_ADJ_BUSY = 0 ∧
      u.st Reg.TBASE_EPOCH_SETS = (s.st Reg.TBASE_EPOCH_SETS + 1) % 2 ^ 32 ∧ Raised u 0x012 4) ∧
    (127999999999 < stagedSubs s lo → Gives (.epochSet q t lo) s fun u =>
      u.tbase = (advance t s).tbase ∧ Raised u 0x012 6 ∧ u.st Reg.TBASE_EPOCH_SETS = s.st Reg.TBASE_EPOCH_SETS)) ∧
  ((∀ (q : Requester) (t : Time) (adj : Word) (s : State), s.reaches q 0x012 = true →
    Gives (.tbaseAdj q t adj) s fun u =>
      u.st Reg.TBASE_ADJ_LEFT = ((advance t s).st Reg.TBASE_ADJ_LEFT + adj.toNat) % 2 ^ 32 ∧
      (u.st Reg.TBASE_STATUS_ADJ_BUSY = 0 ↔ u.st Reg.TBASE_ADJ_LEFT = 0)) ∧
  (∀ (t c : Time) (s : State), c = clockFloor t → s.timeRuns = true → 0 ≤ tDiff c s.time → s.stS Reg.TBASE_ADJ_LEFT ≠ 0 →
    (s.stS Reg.TBASE_ADJ_LEFT).natAbs ≤ (s.tbase.adjFrac + (tDiff c s.time).toNat * s.lv Reg.TBASE_CFG_ADJ_PPM) / 1000000 →
    Gives (.adjDone t) s fun u => u.st Reg.TBASE_ADJ_LEFT = 0 ∧ u.st Reg.TBASE_STATUS_ADJ_BUSY = 0 ∧ Raised u 0x012 7 ∧ u.time = c))

/-- R63: where device time wraps, it reads 0, the epoch, moved by what a slew under way has left to move it until then, gains 144,115,188 s and 9,709,551,616 device units, carried
into seconds, so that mapped time goes on, and EPOCH_WRAP is raised. Without a slew the epoch before is the one that stands. States completion of: epochWrap. -/
def Obligations.WrapKeepsMappedTime : Prop :=
  ∀ s w : State, w = slewEpoch (2 ^ 64 - s.time.toNat) s →
    (s.st Reg.TBASE_ADJ_LEFT = 0 → w = s) ∧
    Gives .epochWrap s fun u => u.time = 0 ∧ Raised u 0x012 5 ∧ u.tbase.subs < duPerS ∧
      (u.tbase.sec.toNat * duPerS + u.tbase.subs) % (2 ^ 48 * duPerS) =
        (w.tbase.sec.toNat * duPerS + w.tbase.subs + (144115188 * duPerS + 9709551616)) % (2 ^ 48 * duPerS)

/-- R70 to R72: PPS. An edge one second after the last one makes PPS_IN present and its stamp reads; the loss of it is counted; PPS_OUT
rises where it is enabled, at a whole second of mapped time plus the trim, unless too soon after its last rise, and falls after WIDTH_MS. States completion of: ppsInEdge, ppsLost, ppsOutRise, ppsOutFall. The model's readings here: log entry 14. -/
def Obligations.PpsInAndOut : Prop :=
  (∀ (a t : Time) (s : State), s.tbase.ppsLast = some a → ppsInWindow a t = true →
    Gives (.ppsInEdge t) s fun u => u.st Reg.TBASE_STATUS_PPS_PRESENT = 1 ∧
      u.st2 Reg.TBASE_PPS_STAMP_LO Reg.TBASE_PPS_STAMP_HI = t.toNat ∧ u.tbase.ppsLast = some t ∧ Raised u 0x012 8) ∧
  (∀ (a t : Time) (s : State), s.tbase.ppsLast = some a → ppsInWindow a t = false →
    Gives (.ppsInEdge t) s fun u => u.st Reg.TBASE_STATUS_PPS_PRESENT = 0 ∧
      u.st Reg.TBASE_PPS_BAD = (s.st Reg.TBASE_PPS_BAD + 1) % 2 ^ 32) ∧
  (∀ (t : Time) (s : State), s.st Reg.TBASE_STATUS_PPS_PRESENT ≠ 0 →
    Gives (.ppsLost t) s fun u => u.st Reg.TBASE_STATUS_PPS_PRESENT = 0 ∧
      u.st Reg.TBASE_PPS_LOSSES = (s.st Reg.TBASE_PPS_LOSSES + 1) % 2 ^ 32 ∧ Raised u 0x012 2) ∧
  (∀ (t : Time) (s : State), s.lv Reg.TBASE_PPS_OUT_EN ≠ 0 → ppsOutDue (advance t s) t = true →
    (ppsOutTooSoon s t = false → Gives (.ppsOutRise t) s fun u =>
      u.out = .ppsOut t true :: s.out ∧ u.tbase.ppsHigh = true ∧ u.tbase.ppsRise = some t ∧
      u.tbase.ppsWidth = s.lv Reg.TBASE_PPS_OUT_WIDTH_MS) ∧
    (ppsOutTooSoon s t = true → Gives (.ppsOutRise t) s fun u => u.out = s.out ∧
      u.st Reg.TBASE_PPS_OUT_SUPPRESSED = (s.st Reg.TBASE_PPS_OUT_SUPPRESSED + 1) % 2 ^ 32)) ∧
  (∀ (t : Time) (s : State), (s.lv Reg.TBASE_PPS_OUT_EN = 0 ∨ ppsOutDue (advance t s) t = false) →
    Gives (.ppsOutRise t) s fun u => u = advance t s) ∧
  (∀ (t r f : Time) (s : State), s.tbase.ppsHigh = true → s.tbase.ppsRise = some r → f = r + nsT (s.tbase.ppsWidth * 1000000) →
    (tBefore t f = false → Gives (.ppsOutFall t) s fun u => u.out = .ppsOut f false :: s.out ∧ u.tbase.ppsHigh = false) ∧
    (tBefore t f = true → Gives (.ppsOutFall t) s fun u => u = advance t s))

/-! ### interval unit -/

/-- The field counts one more, modulo its width (R518). -/
def Sys2Proof.Claims.Counts (f : Fld) (s t : State) : Prop := t.st f = (s.st f + 1) % 2 ^ f.width

/-- The state of a channel once the stamps whose time has come have left its staging buffer. -/
def Sys2Proof.Claims.drained (ch : Nat) (t : Time) (s : State) : State := drainStaging ch t (advance t s)

/-- R73, R75, R76, R78: an edge of a source feeds every channel that selects it. One that EDGE does not select leaves the channel; one within 4 ns of the last stamped edge is counted DEAD; one that finds 16 stamps staged is counted dropped; every other is staged last, corrected by the almanac's constants of its tap and channel, and is the channel's last edge. R79 to R81: the end of the window of the oldest start of a collecting engine in nearest mode decides it: the start leaves; with no stop within W nothing is counted, with a stop already taken UNPAIRED is counted. In the other modes, and before the window has passed, it does nothing. States completion of: tdcEdge, ivWindowEnd. The model's readings here: log entries 16, 17. -/
def Obligations.EdgesAndStarts : Prop :=
  (∀ (src : Fin 32) (count : BitVec 57) (fine : BitVec 7) (t : Time) (rising : Bool) (s : State), t = count ++ fine →
    ((¬ src.val < 8 ∧ ¬ (src.val = 10 ∧ rising = true)) → Gives (.tdcEdge src count fine rising) s fun u => u = advance t s) ∧
    ∀ ch : Fin 8, (src.val < 8 ∨ (src.val = 10 ∧ rising = true)) → s.lv (Reg.TDC_CHn_CFG_SRC.ix ch) = src.val →
      (edgeSelected (s.lv (Reg.TDC_CHn_CFG_EDGE.ix ch)) rising = false → Gives (.tdcEdge src count fine rising) s fun u =>
        u.tdcChan ch = (advance t s).tdcChan ch) ∧
      (∀ a, edgeSelected (s.lv (Reg.TDC_CHn_CFG_EDGE.ix ch)) rising = true → ((advance t s).tdcChan ch).last = some a →
        (tDiff t a).natAbs < 512 → Gives (.tdcEdge src count fine rising) s fun u =>
          Counts (Reg.TDC_CHn_DEAD.ix ch) (advance t s) u ∧ u.tdcChan ch = (advance t s).tdcChan ch) ∧
      (edgeSelected (s.lv (Reg.TDC_CHn_CFG_EDGE.ix ch)) rising = true →
        (∀ a, ((advance t s).tdcChan ch).last = some a → 512 ≤ (tDiff t a).natAbs) →
        (16 ≤ ((drained ch t s).tdcChan ch).staging.length → Gives (.tdcEdge src count fine rising) s fun u =>
          Counts (Reg.TDC_CHn_STAGE_DROPS.ix ch) (advance t s) u ∧ Raised u 0x013 ch ∧ (u.tdcChan ch).gapStage = true ∧
          (u.tdcChan ch).last = ((advance t s).tdcChan ch).last) ∧
        (((drained ch t s).tdcChan ch).staging.length < 16 → Gives (.tdcEdge src count fine rising) s fun u =>
          (u.tdcChan ch).last = some t ∧ (u.tdcChan ch).gapStage = false ∧
          ∃ m, (u.tdcChan ch).staging = ((drained ch t s).tdcChan ch).staging ++
            [(leaveTime ((drained ch t s).tdcChan ch) t, BitVec.ofNat 64 ((stampQuarters s ch src t + 2) / 4), m)] ∧
            m.toNat % 2 = 1 ∧ m.toNat / 2 % 2 = bit rising ∧ m.toNat / 256 = src.val))) ∧
  (∀ (m : Fin 4) (t : Time) (s : State),
    ((s.lv (Reg.TDC_IVm_CFG_NEAREST.ix m) = 0 ∨ s.lv (Reg.TDC_IVm_CFG_EN.ix m) = 0 ∨ (s.iv m).stopped = true ∨
      ∃ a g rest, (s.iv m).starts = (a, g) :: rest ∧ quarterDiff (t.toNat * 4) a < ivWindow s m) →
      Gives (.ivWindowEnd m t) s fun u => u = advance t s) ∧
    (∀ a g rest, s.lv (Reg.TDC_IVm_CFG_NEAREST.ix m) ≠ 0 → s.lv (Reg.TDC_IVm_CFG_PERIOD.ix m) = 0 →
      s.lv (Reg.TDC_IVm_CFG_EN.ix m) ≠ 0 → (s.iv m).stopped = false →
      (s.iv m).starts = (a, g) :: rest → ivWindow s m ≤ quarterDiff (t.toNat * 4) a → Gives (.ivWindowEnd m t) s fun u =>
        ((s.iv m).n + 1 < s.lv (Reg.TDC_IVm_N.ix m) → (u.iv m).starts = rest) ∧
        (nearestStop a (ivWindow s m) (s.iv m).stops = none →
          u.st (Reg.TDC_IVm_UNPAIRED.ix m) = (advance t s).st (Reg.TDC_IVm_UNPAIRED.ix m) ∧ (u.iv m).n = (s.iv m).n) ∧
        (∀ p h, nearestStop a (ivWindow s m) (s.iv m).stops = some (p, true, h) →
          Counts (Reg.TDC_IVm_UNPAIRED.ix m) (advance t s) u ∧ (u.iv m).n = (s.iv m).n) ∧
        (∀ p, nearestStop a (ivWindow s m) (s.iv m).stops = some (p, false, true) → g = true →
          (s.iv m).n + 1 < s.lv (Reg.TDC_IVm_N.ix m) → (u.iv m).n = (s.iv m).n + 1)))

/-- R77, R82, R59, R71: reads that take. TDC_QDATA pops the channel's oldest stamp and answers its low word, or 0 for an empty queue; MEAN_LO answers and marks the
set read; TIME_LO answers device time and snapshots its high word. States completion of: qdataPop, ivResultRead, timeSnapshotRead. The model's readings here: log entries 16, 18. -/
def Obligations.ReadsTakeSnapshots : Prop :=
  (∀ (q : Requester) (t : Time) (s : State) (c : TdcChan), s.reaches q 0x013 = true →
    c = (advance t s).tdcChan (s.winIndex q 0x013 % 8) →
    (c.queue = [] → Gives (.qdataPop q t) s fun u => u.req.data = 0 ∧ u.snapOf q (regAddr 0x013 0xC0C) = some 0) ∧
    (∀ st m rest, c.queue = (st, m) :: rest → Gives (.qdataPop q t) s fun u =>
      u.req.data.toNat = st.toNat % 2 ^ 32 ∧ (u.snapOf q (regAddr 0x013 0xC08)).map (·.toNat) = some (st.toNat / 2 ^ 32) ∧
      u.snapOf q (regAddr 0x013 0xC0C) = some m ∧ (u.tdcChan (s.winIndex q 0x013 % 8)).queue = rest ∧
      u.st (Reg.TDC_CHn_COUNT.ix (s.winIndex q 0x013 % 8)) = rest.length % 2 ^ Reg.TDC_CHn_COUNT.width)) ∧
  (∀ (q : Requester) (m : Fin 4) (s : State), s.reaches q 0x013 = true → Gives (.ivResultRead q m) s fun u =>
    u.req.data.toNat = s.st (Reg.TDC_IVm_MEAN_LO.ix m) ∧ (u.iv m).unread = false ∧
    (u.snapOf q (regAddr 0x013 (Reg.TDC_IVm_STD.ix m).off)).map (·.toNat) = some (s.st (Reg.TDC_IVm_STD.ix m)) ∧
    u.status = s.status) ∧
  (∀ (q : Requester) (t : Time) (s : State), s.reaches q 0x012 = true →
    Gives (.timeSnapshotRead q t false) s (fun u => u.req.data.toNat = (advance t s).time.toNat % 2 ^ 32 ∧
      (u.snapOf q (regAddr 0x012 0x804)).map (·.toNat) = some ((advance t s).time.toNat / 2 ^ 32)) ∧
    Gives (.timeSnapshotRead q t true) s (fun u => u.req.data.toNat = s.st Reg.TBASE_PPS_STAMP_LO))

/-- R74, R83, R85: the delay lines lock only once the PLLs have, and losing lock is raised; the end of the oldest launch window pairs it: a stamped edge under lock
is valid and enters the last 64, else the lane counts a miss. States completion of: dlUnlock, dlLock, launchWindowEnd. -/
def Obligations.LaunchWindowsEnd : Prop :=
  (∀ (t : Time) (s : State), s.st Reg.TDC_STATUS_DL_LOCK ≠ 0 → Gives (.dlUnlock t) s fun u =>
    u.st Reg.TDC_STATUS_DL_LOCK = 0 ∧ Raised u 0x013 14) ∧
  (∀ (t : Time) (s : State), s.st Reg.TBASE_STATUS_PLL_LOCK ≠ 0 → Gives (.dlLock t) s fun u => u.st Reg.TDC_STATUS_DL_LOCK = 1) ∧
  (∀ (t : Time) (s : State), s.st Reg.TBASE_STATUS_PLL_LOCK = 0 → Gives (.dlLock t) s fun u => u = advance t s) ∧
  (∀ (n : Lane) (t : Time) (s : State) (w : LaunchWait) (rest : List LaunchWait), (s.tdc.launch.get n).waits = w :: rest →
    (∀ d, w.edge = some (d, true) → Gives (.launchWindowEnd n t) s fun u =>
      u.tdc.launch.get n = { s.tdc.launch.get n with waits := rest, valid := (d :: (s.tdc.launch.get n).valid).take 64 } ∧
      u.st (Reg.TDC_LAUNCHn_LAST.ix n) = ux Reg.TDC_LAUNCHn_LAST.width d ∧
      u.st (Reg.TDC_LAUNCHn_MISS.ix n) = (advance t s).st (Reg.TDC_LAUNCHn_MISS.ix n) ∧
      ∀ x ∈ (u.shots.get n).shots, x.id = w.shot → x.jit = some d) ∧
    ((∀ d, w.edge ≠ some (d, true)) → Gives (.launchWindowEnd n t) s fun u =>
      (u.tdc.launch.get n).waits = rest ∧ (u.tdc.launch.get n).valid = (s.tdc.launch.get n).valid ∧
      Counts (Reg.TDC_LAUNCHn_MISS.ix n) (advance t s) u ∧ Raised u 0x013 (12 + n) ∧
      ∀ x ∈ (u.shots.get n).shots, x.id = w.shot → x.jit = some (launchMeanLsb (s.tdc.launch.get n).valid)))

/-! ### light drive and front end -/

/-- R21, R109: the gate follows the three balls. Where it becomes false every output goes off: the closure is counted and raised, and
nothing ramps; where it becomes true while no emission is held, GATE reads 1 and every enabled pump that no fault holds off ramps. States completion of: gateClosed, gateOpen. The model's readings here: log entry 27. -/
def Obligations.GateClosesAndOpens : Prop :=
  ∀ (b : GateBall) (t : Time) (s : State),
    (s.gateOpen = true → Gives (.gateClosed b t) s fun u =>
      u.gateOpen = false ∧ u.st Reg.LDRV_GATE_STATUS_GATE = 0 ∧ Counts Reg.LDRV_GATE_CLOSURES s u ∧ Raised u 0x018 1 ∧
      u.st Reg.LDRV_GATE_STATUS_RAMPING = 0 ∧ Output.gate false ∈ u.out ∧ u.st (Reg.SYNn_STATUS_EMIT.pg 0) = 0 ∧
      u.st (Reg.SYNn_STATUS_EMIT.pg 1) = 0) ∧
    (s.gateOpen = false → (setBall b true s).gateOpen = true → s.st Reg.SYS_SUPPLY_HOLDING = 0 → Gives (.gateOpen b t) s fun u =>
      u.gateOpen = true ∧ u.st Reg.LDRV_GATE_STATUS_GATE = 1 ∧ Raised u 0x018 2 ∧ Output.gate true ∈ u.out ∧
      ∀ m < 4, s.lv (Reg.LDRV_PCm_CFG_EN.ix m) ≠ 0 → pumpFaulty s m = false → u.st Reg.LDRV_GATE_STATUS_RAMPING / 2 ^ m % 2 = 1) ∧
    (s.gateOpen = false → (setBall b true s).gateOpen = false → Gives (.gateOpen b t) s fun u =>
      u.gateOpen = false ∧ u.out = s.out)

/-- R102, R103, R106: a loop that does not run drives its SET register, a laser's within its limit, or nothing where the output is off; a running one clamps its accumulator to its bounds; the end of a ramp frees the pump's loop; a current above the limit latches the overcurrent and stops the ramp. R107, R108: a check outside its bounds latches the fault of its output, which inhibits the lane; a write of the fault register clears the bits it names and no other. States completion of: loopUpdate, loopSat, rampDone, overcurrent, outputCheck, faultClear. The model's readings here: log entries 27, 28. -/
def Obligations.LoopsAndFaults : Prop :=
  ((∀ (i : Fin 8) (mpd : List (List Nat)) (s : State), loopRuns s i = false → i.val < 2 → Gives (.loopUpdate i mpd) s fun u =>
    u.st (Reg.LDRV_LOOP_OUT.ix i) = (if s.lv (Reg.LDRV_LDn_CFG_EN.ix i) ≠ 0 ∧ laserFaulty s i = false then
      min (s.lv (Reg.LDRV_LDn_SET.ix i)) (s.lv (Reg.LDRV_LDn_LIMIT.ix i)) else 0) % 2 ^ 16 ∧
    (u.loop i).engaged = false) ∧
  (∀ (i : Fin 8) (mpd : List (List Nat)) (s w : State) (y : Nat) (acc : Int), loopRuns s i = true → 2 ≤ i.val →
    w = takeSamples mpd s → loopInput w i (loopMeans w i) = some y → acc = (if (s.loop i).engaged then (s.loop i).acc else (loopSet s i : Int) * 65536) →
    Gives (.loopUpdate i mpd) s fun u =>
      (u.loop i).engaged = true ∧
      (u.loop i).acc = max (((s.loop i).lo : Int) * 65536) (min (acc + (s.loop i).ki * loopError s i y / 65536) ((s.loop i).hi * 65536)) ∧
      u.st (Reg.LDRV_LOOP_OUT.ix i) = (max ((s.loop i).lo : Int) (min ((u.loop i).acc / 65536 +
        (s.loop i).kp * loopError s i y / 4096) (s.loop i).hi)).toNat % 2 ^ 16) ∧
  (∀ (i : Fin 8) (s : State), loopRuns s i = true → s.st (Reg.LDRV_LOOP_OUT.ix i) = loopHi s i →
    Gives (.loopSat i) s fun u => Raised u 0x018 (3 + i)) ∧
  (∀ (m : Fin 4) (t a : Time) (ms : Nat) (s : State), s.st Reg.LDRV_GATE_STATUS_RAMPING / 2 ^ m.val % 2 = 1 →
    Amap.find m.val s.drive.ramps = some (a, ms) → ((ms * 1000000 * duPerNs : Nat) : Int) ≤ tDiff (advance t s).time a →
    Gives (.rampDone m t) s fun u => u.st Reg.LDRV_GATE_STATUS_RAMPING / 2 ^ m.val % 2 = 0 ∧ Raised u 0x018 (13 + m)) ∧
  (∀ (m : Fin 4) (sense : Nat) (s : State), s.lv (Reg.LDRV_PCm_LIMIT.ix m) < sense → Gives (.overcurrent m sense) s fun u =>
      u.st Reg.LDRV_FAULT_OVERCURRENT / 2 ^ m.val % 2 = 1 ∧ u.st Reg.LDRV_GATE_STATUS_RAMPING / 2 ^ m.val % 2 = 0 ∧
      Raised u 0x018 0 ∧ laneInhibited u (pumpLane m) = true)) ∧
  ((∀ (n : Lane) (mv : Nat) (s : State), mv < 800 → Gives (.outputCheck (.gateOff n mv)) s fun u =>
    u.st (Reg.SYNn_FAULT_GATE_OPEN_GND.pg n) = 1 ∧ Raised u (0x01A + n) 3 ∧ laneInhibited u n = true) ∧
  (∀ (n : Lane) (mv : Nat) (s : State), 3000 < mv → 200 ≤ s.lv (Reg.SYNn_GATE_AMP.pg n) → Gives (.outputCheck (.gateOn n mv)) s fun u =>
    u.st (Reg.SYNn_FAULT_GATE_LOAD_SHORT.pg n) = 1 ∧ Raised u (0x01A + n) 3) ∧
  (∀ (n : Lane) (pct : Nat) (s : State), 50 ≤ pct → pct ≤ 150 → Gives (.outputCheck (.modI n pct)) s fun u => u = s) ∧
  (∀ (n : Lane) (pct : Nat) (s : State), 150 < pct → Gives (.outputCheck (.modQ n pct)) s fun u =>
    u.st (Reg.SYNn_FAULT_MOD_Q_OPEN.pg n) = 1 ∧ laneInhibited u n = true) ∧
  (∀ (q : Requester) (n : Lane) (w : Word) (s : State), s.reaches q (0x01A + n) = true →
    Gives (.faultClear q (0x01A + n) w) s fun u =>
      u.st (Reg.SYNn_FAULT_GATE_OPEN_GND.pg n) = (if w.toNat % 2 = 1 then 0 else s.st (Reg.SYNn_FAULT_GATE_OPEN_GND.pg n) % 2) ∧
      u.st (Reg.SYNn_FAULT_MOD_I_OPEN.pg n) = (if w.toNat / 4 % 2 = 1 then 0 else s.st (Reg.SYNn_FAULT_MOD_I_OPEN.pg n) % 2) ∧
      u.live = s.live ∧ u.out = s.out))

/-- R126 to R130: the largest code in the first 200 m of the frame's shots moves PEAK_LAST to PEAK_PREV and saturates at 2047; two peaks in a row at or above ARC_HI call for one code down where MIN_RANGE and the dwell allow it, also in a frame without a peak; 400 ns before the next tick the range due switches the TIAs. R120, R124, R137: the servo's current and end stop, the current limit of the bias, and the dusk window's injection, counted as skipped in a window under 1 µs. R152, R164: a word of MF_DATA enters the user table of a lane that is OFF and moves the window's entry on, while a lane that runs rejects it; in TRACE mode a frame that a full region turns away is counted missed where it would have been captured, and frames that fit are counted up to the frames asked for. States completion of: arcDecision, rangeChange, servoSat, pdbLimit, duskInjection, mfDataWrite, traceFrame. The model's readings here: log entries 28, 29, 36. -/
def Obligations.FrontEndRangeAndTraces : Prop :=
  ((∀ (n : Lane) (x : List (List (List Int))) (peak : Nat) (s : State), s.mode ≠ 5 → (s.rxf.get n).frameDark = false →
    s.lv (Reg.RXFn_INJ_CFG_MODE.pg n) ≠ 1 → (s.lanes.get n).withheld = false → peak = (x.map (nearPeak s.live n)).foldl max 0 →
    Gives (.arcDecision n x) s fun u =>
      u.st (Reg.RXFn_ARC_PEAK_PREV.pg n) = s.st (Reg.RXFn_ARC_PEAK_LAST.pg n) % 2 ^ Reg.RXFn_ARC_PEAK_PREV.width ∧
      u.st (Reg.RXFn_ARC_PEAK_LAST.pg n) = min peak 2047 ∧
      (s.lv (Reg.RXFn_CFG_ARC_EN.pg n) ≠ 0 → (s.rxf.get n).hiRun = 1 → s.lv (Reg.RXFn_ARC_HI.pg n) ≤ peak →
        (s.rxf.get n).dwell ≤ 1 → s.lv (Reg.RXFn_ARC_LIMITS_MIN_RANGE.pg n) < s.range n →
        (u.rxf.get n).step = some (s.range n - 1) ∧ (u.rxf.get n).hiRun = 0) ∧
      (s.lv (Reg.RXFn_CFG_ARC_EN.pg n) = 0 → (u.rxf.get n).step = (s.rxf.get n).step) ∧ u.range n = s.range n) ∧
  (∀ (n : Lane) (x : List (List (List Int))) (s : State), (s.rxf.get n).frameDark = true → Gives (.arcDecision n x) s fun u =>
    u.st (Reg.RXFn_ARC_PEAK_LAST.pg n) = s.st (Reg.RXFn_ARC_PEAK_LAST.pg n) ∧ u.st (Reg.RXFn_ARC_PEAK_PREV.pg n) = s.st (Reg.RXFn_ARC_PEAK_PREV.pg n) ∧
    (s.mode ≠ 5 → (s.lanes.get n).withheld = false → s.lv (Reg.RXFn_CFG_ARC_EN.pg n) ≠ 0 → 2 ≤ (s.rxf.get n).hiRun → (s.rxf.get n).dwell ≤ 1 →
      s.lv (Reg.RXFn_ARC_LIMITS_MIN_RANGE.pg n) < s.range n → (u.rxf.get n).step = some (s.range n - 1))) ∧
  (∀ (n : Lane) (t at_ : Time) (r : Nat) (s w : State), w = advance t s → at_ = laneTick w n - nsT 400 → r = dueRange w n (laneTick w n) →
    s.mode ≠ 5 → r ≠ s.range n → (s.rxf.get n).switched = none → tBefore w.time at_ = false →
    Gives (.rangeChange n t) s fun u => (u.rxf.get n).switched = some r ∧ u.range n = s.range n ∧
      (u.shots.get n).shots.map (·.id) = (s.shots.get n).shots.map (·.id) ∧
      ∀ x ∈ (s.shots.get n).shots, (tDiff at_ x.at_).toNat < returnDu x.cfg n → { x with switches := x.switches ++ [(at_, r)] } ∈ (u.shots.get n).shots)) ∧
  ((∀ (n : Lane) (c : Fin 4) (x : Int) (s : State), s.lv (Reg.RXFn_SERVO_CFG_EN.pg n) ≠ 0 → Gives (.servoSat n c x) s fun u =>
    u.stS ((Reg.RXFn_SERVO_c.pg n).ix c) = max (-10000) (min 10000 x) ∧
    u.st (Reg.RXFn_STATUS_SERVO_SAT.pg n) / 2 ^ c.val % 2 = bit (decide (10000 ≤ x.natAbs)) ∧
    (10000 ≤ x.natAbs → Raised u (0x020 + n) 2)) ∧
  (∀ (n : Lane) (ua : Nat) (s : State), Gives (.pdbLimit n ua) s fun u =>
    u.st (Reg.RXFn_PDB_CURRENT.pg n) = min ua 20000 ∧ u.st (Reg.RXFn_STATUS_PDB_LIMIT.pg n) = bit (20000 < ua) ∧
    (20000 < ua → Raised u (0x020 + n) 4)) ∧
  (∀ (n : Lane) (t : Time) (w : Time × Time) (s : State), w = duskWindow s n → (advance t s).reached w.1 = true → s.mode ≠ 5 → s.lv (Reg.RXFn_INJ_CFG_MODE.pg n) = 2 → s.laneState n = 2 →
    s.dasMode n ≠ 1 →
    (tDiff w.2 w.1 < (1000 * duPerNs : Nat) → Gives (.duskInjection n t) s fun u => Counts (Reg.RXFn_INJ_SKIP.pg n) s u ∧
      u.st (Reg.RXFn_STATUS_INJ_ACTIVE.pg n) = s.st (Reg.RXFn_STATUS_INJ_ACTIVE.pg n)) ∧
    (((1000 * duPerNs : Nat) : Int) ≤ tDiff w.2 w.1 → Gives (.duskInjection n t) s fun u =>
      u.st (Reg.RXFn_STATUS_INJ_ACTIVE.pg n) = 1 ∧ (u.rxf.get n).duskEnd = some w.2 ∧ (u.rxf.get n).inject ≠ none))) ∧
  ((∀ (q : Requester) (n : Lane) (w : Word) (s : State), s.reaches q (0x028 + n) = true →
    (s.laneState n = 0 → s.winIndex q (0x028 + n) % 32768 < 20000 → Gives (.mfDataWrite q n w) s fun u =>
      Amap.find (s.winIndex q (0x028 + n) / 65536 % 8 * 32768 + s.winIndex q (0x028 + n) % 32768) (u.shotp.get n).mfUser = some w ∧
      u.winIndex q (0x028 + n) = s.winIndex q (0x028 + n) / 65536 % 8 * 65536 + (s.winIndex q (0x028 + n) % 32768 + 1) % 32768) ∧
    (s.laneState n ≠ 0 → Gives (.mfDataWrite q n w) s fun u => u.shotp = s.shotp ∧ Raised u (0x028 + n) 5)) ∧
  (∀ (n : Lane) (codes : List (List Int)) (s : State), s.laneMode n = 7 → s.laneState n = 2 → (s.shotp.get n).traceDone = false →
    ((s.shotp.get n).traceFull = true →
      (s.lv (Reg.SHOTn_TRACE_CFG_FRAMES.pg n) = 0 ∨ (s.shotp.get n).traceSeen < s.lv (Reg.SHOTn_TRACE_CFG_FRAMES.pg n)) →
      Gives (.traceFrame n codes) s fun u => Counts (Reg.SHOTn_TRACE_MISSED.pg n) s u ∧ u.mem = s.mem) ∧
    ((s.shotp.get n).traceFull = false → s.lv (Reg.SHOTn_TRACE_CFG_CH.pg n) = 0 → Gives (.traceFrame n codes) s fun u =>
      Counts (Reg.SHOTn_TRACE_FRAMES.pg n) s u ∧ u.mem = s.mem ∧
      ((u.shotp.get n).traceDone = true ↔ s.lv (Reg.SHOTn_TRACE_CFG_FRAMES.pg n) ≠ 0 ∧
        s.lv (Reg.SHOTn_TRACE_CFG_FRAMES.pg n) ≤ u.st (Reg.SHOTn_TRACE_FRAMES.pg n)))))

/-! ### slow-time chain, zones and capture -/

/-- R15, R192, R200, R201: a part of a block is taken once the series holds the whole block, and not before, and what its SRAM reads meet is counted; a coefficient enters a bank that is not busy and moves the
window on, and one for a busy bank is counted and raised. States completion of: slowPart, coefWrite. The model's readings here: log entries 40, 41. -/
def Obligations.SlowPartsAndCoefficients : Prop :=
  (∀ (n : Lane) (e : Sram) (s : State), s.lv (Reg.SLOWn_CT_FRAMES.pg n) ≠ 0 →
    ((s.slow.get n).next < ((s.slow.get n).parts / s.lv (Reg.SLOWn_CT_FRAMES.pg n) + 1) * blockLen s.live n →
      Gives (.slowPart n e) s fun u => u = sramMet e s) ∧
    (((s.slow.get n).parts / s.lv (Reg.SLOWn_CT_FRAMES.pg n) + 1) * blockLen s.live n ≤ (s.slow.get n).next →
      Gives (.slowPart n e) s fun u => (u.slow.get n).parts = (s.slow.get n).parts + 1)) ∧
  (∀ (q : Requester) (n : Lane) (w : Word) (s : State) (bank : Nat), s.reaches q (0x02C + n) = true →
    bank = s.winIndex q (0x02C + n) / 512 % 2 → s.lv (Reg.SLOWn_FIR_CFG_POLICY.pg n) ≠ 0 →
    (bankBusy s n bank = false → Gives (.coefWrite q n w) s fun u =>
      coefOf (u.slow.get n) bank (s.winIndex q (0x02C + n) % 512) = sx 16 w.toNat ∧
      u.winIndex q (0x02C + n) = bank * 512 + (s.winIndex q (0x02C + n) + 1) % 512) ∧
    (bankBusy s n bank = true → Gives (.coefWrite q n w) s fun u =>
      u.slow = s.slow ∧ Counts (Reg.SLOWn_COEF_REJECTS.pg n) s u ∧ Raised u (0x02C + n) 2))

/-- R276, R279: a segment whose last sample is written closes: its 64-byte header stands at its start, its zone waits to be armed again, and it is free at once where nobody holds it. One that still wants samples stays as it is. R276, R309: a segment is held until its holders let go. The timeout clears every hold; a write of RELEASE clears the host's hold of the segment whose id it names, and another id is counted and raised; while a zone core copies from the segment, expiry and release wait for the copy's end; a closed segment that nobody holds or copies from is free. States completion of: segmentClose, holdExpired, captRelease, segmentFree. The model's readings here: log entry 51. -/
def Obligations.SegmentsCloseAndFree : Prop :=
  (∀ (i : Nat) (s : State) (g : Seg), g = s.seg i → g.st = 1 →
    (g.end_ ≤ g.next → Gives (.segmentClose i) s fun u =>
      (u.zcapt g.zone).st = 2 ∧ memRead u (segAddr s i) 64 = segHeader i g ∧
      (g.hold = 0 → copying s i = false → (u.seg i).st = 0) ∧
      (g.hold ≠ 0 → (u.seg i).st = 2)) ∧
    (g.next < g.end_ → g.held < g.cap → Gives (.segmentClose i) s fun u => u = s)) ∧
  ((∀ (i : Nat) (s : State), (s.seg i).st = 2 → (s.seg i).hold ≠ 0 → s.lv Reg.CAPT_HOLD_TIMEOUT ≠ 0 →
    (copying s i = false → Gives (.holdExpired i) s fun u => (u.seg i).hold = 0 ∧ (u.seg i).sflags = (s.seg i).sflags ||| 0x40 ∧
      Counts Reg.CAPT_HOLD_EXPIRED s u ∧ Raised u 0x039 4 ∧ (u.seg i).st = 0) ∧
    (copying s i = true → Gives (.holdExpired i) s fun u => (u.seg i).hold = (s.seg i).hold ∧ (u.seg i).st = 2 ∧
      (u.seg i).expired = true ∧ u.status = s.status)) ∧
  (∀ (q : Requester) (w : Word) (s : State) (i : Nat), s.reaches q 0x039 = true → i = w.toNat % 65536 →
    ((s.seg i).st ≠ 0 → segId i (s.seg i) = w.toNat →
      (copying s i = false → Gives (.captRelease q w) s fun u => (u.seg i).hold = (s.seg i).hold &&& 3 ∧ u.status = s.status) ∧
      (copying s i = true → Gives (.captRelease q w) s fun u => (u.seg i).hold = (s.seg i).hold ∧
        (u.seg i).owed = (s.seg i).owed ||| 4 ∧ u.status = s.status)) ∧
    (segId i (s.seg i) ≠ w.toNat → Gives (.captRelease q w) s fun u =>
      u.capt = s.capt ∧ Counts Reg.CAPT_RELEASE_REJECTS s u ∧ Raised u 0x039 5)) ∧
  (∀ (i : Nat) (s : State), (s.seg i).st = 2 →
    ((s.seg i).hold = 0 → copying s i = false → Gives (.segmentFree i) s fun u => (u.seg i).st = 0 ∧ (u.seg i).gen = (s.seg i).gen) ∧
    (((s.seg i).hold ≠ 0 ∨ copying s i = true) → Gives (.segmentFree i) s fun u => u.capt = s.capt)))

/-- R274, R277: a zone whose capture has ended is armed again; while throttling is enabled the throttle steps up at THR_HI, down below THR_LO, and each step is counted and raised. R6, R257, R281, R283: a word of ZONE_DATA, without its reserved bits, becomes the shadow word that the window's index names, WORD moves on and carries into ENTRY, and an accepted commit of the page is stale; a flush closes the EVENT records whose first entry is ZONE_EVT_FLUSH µs old, and no other. States completion of: rearm, throttle, zoneDataWrite, evtFlush. The model's readings here: log entries 50, 51. -/
def Obligations.ZonesAndEventRecords : Prop :=
  ((∀ (z : Nat) (s : State), (s.zcapt z).st = 2 → Gives (.rearm z) s fun u =>
    (u.zcapt z).armed = true ∧ ((s.zcapt z).waiting = [] → (u.zcapt z).st = 0 ∧ (u.zcapt z).waiting = [])) ∧
  (∀ (z : Nat) (s : State), (s.zcapt z).st ≠ 2 → Gives (.rearm z) s fun u => u = s) ∧
  (∀ s : State, s.lv Reg.CAPT_THR_EN ≠ 0 →
    (s.lv Reg.CAPT_THR_HI ≤ s.st Reg.CAPT_BACKLOG → s.st Reg.CAPT_STATUS_THROTTLE < s.lv Reg.CAPT_THR_MAX → Gives .throttle s fun u =>
      u.st Reg.CAPT_STATUS_THROTTLE = (s.st Reg.CAPT_STATUS_THROTTLE + 1) % 2 ^ Reg.CAPT_STATUS_THROTTLE.width ∧
      Counts Reg.CAPT_THROTTLE_STEPS s u ∧ Raised u 0x039 2) ∧
    (s.st Reg.CAPT_BACKLOG < s.lv Reg.CAPT_THR_HI → s.st Reg.CAPT_BACKLOG < s.lv Reg.CAPT_THR_LO → 0 < s.st Reg.CAPT_STATUS_THROTTLE →
      Gives .throttle s fun u =>
        u.st Reg.CAPT_STATUS_THROTTLE = (s.st Reg.CAPT_STATUS_THROTTLE - 1) % 2 ^ Reg.CAPT_STATUS_THROTTLE.width ∧
        Counts Reg.CAPT_THROTTLE_STEPS s u ∧ Raised u 0x039 2)) ∧
  (∀ s : State, s.lv Reg.CAPT_THR_EN = 0 → Gives .throttle s fun u => u = s)) ∧
  ((∀ (q : Requester) (w : Word) (s : State) (i : Nat), s.reaches q 0x038 = true → i = s.winIndex q 0x038 →
    Gives (.zoneDataWrite q w) s fun u =>
      Amap.find (i / 65536 % 2 * 65536 + (if i / 65536 % 2 = 1 then i % 256 else i % 4096) * 16 + i / 4096 % 16) u.zone.shadow =
        some (w &&& zoneMask (i / 65536 % 2) (i / 4096 % 16)) ∧
      u.zone.words = s.zone.words ∧ u.commitReady 0x038 = false ∧
      (i / 4096 % 16 < 15 → u.winIndex q 0x038 = i % 4096 + (i / 4096 % 16 + 1) * 4096 + i / 65536 % 2 * 65536) ∧
      (i / 4096 % 16 = 15 → u.winIndex q 0x038 = (i % 4096 + 1) % 4096 + i / 65536 % 2 * 65536)) ∧
  (∀ (t : Time) (s w : State), w = advance t s →
    (Gives (.evtFlush t) s fun u => u.mem = s.mem ∧ u.live = s.live ∧ u.zone = s.zone ∧
      ∀ k x r, w.strm.streams.find? (fun y => y.sid = k) = some x → x.sel.product = 7 → openRec w k 0 = some r →
        ((w.lv Reg.ZONE_EVT_FLUSH * 1000 * duPerNs : Nat) : Int) ≤ tDiff w.time r.born → openRec u k 0 = none) ∧
    ((∀ x ∈ w.strm.streams, ∀ r, openRec w x.sid 0 = some r → tDiff w.time r.born < (w.lv Reg.ZONE_EVT_FLUSH * 1000 * duPerNs : Nat)) →
      Gives (.evtFlush t) s fun u => u = w)))

/-! ### Raman sensing and the auxiliary converter -/

/-- R15, R219, R223 to R225, R233: a launch that is due happens at the first point of the 4 ns grid at or after its tick plus O_R. While the gate is open and the claim complete it sends
TS_PULSE and awaits the return in each lane whose period runs; with the gate closed the shot is dark and counted; a return joins the sums of its period; a period whose end is due ends at
its tick and the next one begins with that tick; an ended period is delivered. States completion of: ramanLaunch, ramanReturn, dtsPeriodEnd, profile. The model's readings here: log entries 42, 43. -/
def Obligations.RamanShotsAndPeriods : Prop :=
  (∀ (t c a : Time) (n : Lane) (p : DtsPeriod) (s w : State), s.raman.tick = some a → c = ramanCommand s a → (advance t s).reached c = true →
    w = endDue 1 (endDue 0 (advance t s)) → w.laneState n = 2 → (w.rl n).per = some p → (w.lanes.get n).withheld = false →
    (w.gateOpen = true → w.twin.claim = 3 → w.st Reg.SYS_SUPPLY_HOLDING = 0 → Gives (.ramanLaunch t) s fun u =>
      u.raman.tick = none ∧ u.out = .tsPulse (c + nsT 20) (w.lv Reg.DTS_PULSE_WIDTH) :: w.out ∧
      (u.rl n).shots = (w.rl n).shots ++ [⟨c, c + nsT (20 + w.lv Reg.DTS_PULSE_WIDTH), p.id⟩] ∧
      (u.rl n).per = some { p with last := some (c + BitVec.ofNat 64 (512 * (w.lv (Reg.DTS_Ln_TAU0.ix n) + ramanPoints w.live n))) }) ∧
    ((w.gateOpen = false ∨ w.twin.claim ≠ 3) → Gives (.ramanLaunch t) s fun u =>
      u.raman.tick = none ∧ u.out = w.out ∧ (u.rl n).shots = (w.rl n).shots ∧ (u.rl n).per = some { p with notAll := true } ∧
      Counts (Reg.DTS_Ln_DARK_SHOTS.ix n) w u)) ∧
  (∀ (t : Time) (s : State), s.raman.tick = none → Gives (.ramanLaunch t) s fun u => u = advance t s) ∧
  (∀ (s : State) (a : Time), ∃ k, (ramanCommand s a).toNat = 512 * k ∧
    512 * k < (a + nsT (s.lv Reg.DTS_OFFSET)).toNat + 512 ∧
    ((a + nsT (s.lv Reg.DTS_OFFSET)).toNat + 511 < 2 ^ 64 → (a + nsT (s.lv Reg.DTS_OFFSET)).toNat ≤ 512 * k)) ∧
  (∀ (n : Lane) (x y bx bz : List Int) (e : Sram) (sh : RamanShot) (rest : List RamanShot) (p : DtsPeriod) (s : State),
    (s.rl n).shots = sh :: rest → (s.rl n).per = some p → p.id = sh.period →
    (e.lost = false → Gives (.ramanReturn n x y bx bz e) s fun u =>
      (u.rl n).shots = rest ∧ ∃ r, (u.rl n).per = some r ∧ r.lit = p.lit + 1 ∧
        r.accX = addSums p.accX (x.take (ramanTotal s.live n)) ∧ r.accY = addSums p.accY (y.take (ramanTotal s.live n)) ∧
        r.baseX = p.baseX + sumI (bx.take (s.lv Reg.DTS_CFG_BASE_N)) ∧
        u.st (Reg.DTS_Ln_SHOTS.ix n) = (p.lit + 1) % 2 ^ Reg.DTS_Ln_SHOTS.width) ∧
    (e.lost = true → Gives (.ramanReturn n x y bx bz e) s fun u =>
      (u.rl n).shots = rest ∧ (u.rl n).per = some { p with notAll := true, hole := true } ∧ Counts Reg.SYS_SRAM_UE s u)) ∧
  (∀ (n : Lane) (t c : Time) (p : DtsPeriod) (s : State), (s.rl n).due = some c → (advance t s).reached c = true → (s.rl n).per = some p →
    Gives (.dtsPeriodEnd n t) s fun u =>
      (u.rl n).due = none ∧ (∃ e, (u.rl n).ended = (s.rl n).ended ++ [e] ∧ e.id = p.id ∧ e.end_ = c ∧ e.short = false ∧ e.accX = p.accX ∧ e.lit = p.lit) ∧
      ∃ q, (u.rl n).per = some q ∧ q.from_ = c ∧ q.first = some c ∧ q.sched = 1 ∧ q.lit = 0 ∧ q.accX = [] ∧ q.len = s.lv Reg.DTS_AVG_SHOTS) ∧
  (∀ (n : Lane) (t : Time) (s : State), (s.rl n).due = none → Gives (.dtsPeriodEnd n t) s fun u => u = advance t s) ∧
  (∀ (n : Lane) (p : DtsPeriod) (rest : List DtsPeriod) (s : State), (s.rl n).ended = p :: rest → Gives (.profile n) s fun u =>
    (u.rl n).ended = rest ∧ Counts (Reg.DTS_Ln_PERIODS.ix n) s u ∧ Raised u 0x030 n ∧ (p.lit = 0 → Raised u 0x030 (6 + n)) ∧
    ∃ c d, (u.rl n).prev = some (c, d) ∧ u.st (Reg.DTS_Ln_LNC_USED.ix n) = ux 32 c ∧ u.st (Reg.DTS_Ln_DALPHA_USED.ix n) = ux 32 d)

/-- R239, R241, R242, R249: a write of a source with codes that the spec allows takes effect and, where it changes the source, starts its settling, which SETTLE_END ends; other codes raise bit 13 and change nothing. EN takes the converter from OFF to IDLE in STANDBY, RUN and CALIBRATE, and clearing it abandons what was under way. R244, R245, R247 to R249, R252, R253: a conversion runs from request to result. Requests wait, or are dropped and counted while a conversion is under way; a conversion starts with the origin and definition that are due; the phases follow; a result latches with the next SEQ; a read answers VALUE and clears NEW. States completion of: auxSrcWrite, settleEnd, auxEnable, auxDisable, auxStartEdge, auxReq, auxConversionStart, integrationEnd, dwellEnd, result, scanGapEnd, auxResultRead, auxRecordFlush. The model's readings here: log entries 46, 47. -/
def Obligations.AuxiliaryRuns : Prop :=
  ((∀ (q : Requester) (t : Time) (i : Fin 4) (w : Word) (s : State), s.reaches q 0x031 = true →
    (terminalOk (w.toNat / 16 % 16) = true → terminalOk (w.toNat / 256 % 16) = true →
      (w.toNat / 16 % 16 = w.toNat / 256 % 16 → w.toNat / 16 % 16 = 15) → Gives (.auxSrcWrite q t i w) s fun u =>
        u.lv (Reg.AUX_SRCs_CODE.ix i) = w.toNat % 8 ∧ u.lv (Reg.AUX_SRCs_HI.ix i) = w.toNat / 16 % 16 ∧
        u.lv (Reg.AUX_SRCs_LO.ix i) = w.toNat / 256 % 16 ∧
        (s.sh (Reg.AUX_SRCs_CODE.ix i) ≠ w.toNat % 8 → u.st Reg.AUX_STATUS_SETTLING / 2 ^ i.val % 2 = 1)) ∧
    ((terminalOk (w.toNat / 16 % 16) = false ∨ terminalOk (w.toNat / 256 % 16) = false) → Gives (.auxSrcWrite q t i w) s fun u =>
        u.live = s.live ∧ u.shadow = s.shadow ∧ Raised u 0x031 13)) ∧
  (∀ (i : Fin 4) (s : State), Gives (.settleEnd i) s fun u => u.st Reg.AUX_STATUS_SETTLING / 2 ^ i.val % 2 = 0 ∧
    ∀ j : Fin 4, j ≠ i → u.st Reg.AUX_STATUS_SETTLING / 2 ^ j.val % 2 = s.st Reg.AUX_STATUS_SETTLING / 2 ^ j.val % 2) ∧
  (∀ (q : Requester) (t : Time) (w : Word) (s : State), s.reaches q 0x031 = true →
    Gives (.auxEnable q t w) s (fun u => u.lv Reg.AUX_CFG_EN = 1 ∧ u.lv Reg.AUX_CFG_SCAN_EN = w.toNat / 2 % 2 ∧
      (2 ≤ s.mode → s.mode ≤ 4 → s.auxState = 0 → u.auxState = 1)) ∧
    Gives (.auxDisable q t w) s (fun u => u.lv Reg.AUX_CFG_EN = 0 ∧ u.auxState = 0 ∧ u.aux.conv = none ∧ u.aux.work = [] ∧ u.aux.req = none))) ∧
  ((∀ (t : Time) (s : State) (l : List Nat), l = (List.range 8).filter (fun r => s.on (Reg.AUX_Rr_CFG_EN.ix r) && s.on (Reg.AUX_Rr_CFG_START.ix r)) →
    (auxUnderWay s = true → Gives (.auxStartEdge t) s fun u => u.aux = s.aux ∧ Counts Reg.AUX_DROPPED s u ∧ Raised u 0x031 8) ∧
    (s.auxState ≠ 0 → auxUnderWay s = false → s.aux.work = [] → l ≠ [] → Gives (.auxStartEdge t) s fun u =>
      u.aux.work = l ∧ u.st Reg.AUX_STATUS_START_PENDING = 1)) ∧
  (∀ (q : Requester) (t : Time) (w : Word) (s : State), s.reaches q 0x031 = true → w.toNat / 8 % 2 = 1 → s.auxState ≠ 0 →
    auxUnderWay s = false → s.aux.req = none → Gives (.auxReq q t w) s fun u =>
      u.aux.req = some (w.toNat % 8) ∧ u.st Reg.AUX_STATUS_REQ_PENDING = 1) ∧
  (∀ (t : Time) (s : State) (o r : Nat) (a : Aux), s.auxState = 1 → auxPick s = some (o, r, a) → Gives (.auxConversionStart t) s fun u =>
    u.auxState = 2 ∧ u.aux.work = a.work ∧ u.aux.req = a.req ∧ u.aux.scan = a.scan ∧
    ∃ c, u.aux.conv = some c ∧ c.r = r ∧ c.origin = o ∧ c.start = t) ∧
  (∀ (t : Time) (vin vref : Int) (m : BitVec 4) (s : State) (c : AuxConv), s.aux.conv = some c →
    (s.auxState = 2 → Gives (.integrationEnd t vin vref m) s fun u =>
      u.auxState = (if convF c Reg.AUX_Rr_CFG_REV = 0 then 5 else 3) ∧
      ∃ d, u.aux.conv = some d ∧ d.r = c.r ∧ d.cA = max (-8388607) (min 8388607 (auxCode s c vin vref)) ∧ d.endA = t) ∧
    (s.auxState = 4 → Gives (.integrationEnd t vin vref m) s fun u => u.auxState = 5 ∧
      ∃ d, u.aux.conv = some d ∧ d.cA = c.cA ∧ d.cB = max (-8388607) (min 8388607 (auxCode s c vin vref)) ∧ d.end_ = t) ∧
    (s.auxState = 3 → Gives (.dwellEnd t) s fun u => u.auxState = 4 ∧ u.aux.conv = some { c with startB := t }) ∧
    (s.auxState = 5 → c.r < 8 → Gives (.result t) s fun u =>
      u.aux.conv = none ∧ u.st (Reg.AUX_RESr_SEQ.ix c.r) = (s.st (Reg.AUX_RESr_SEQ.ix c.r) + 1) % 2 ^ 32 ∧
      u.st (Reg.AUX_RESr_RAW.ix c.r) = ux Reg.AUX_RESr_RAW.width (auxRaw c) ∧ u.st (Reg.AUX_RESr_META.ix c.r) % 4 = 3 ∧
      u.st2 (Reg.AUX_RESr_END_LO.ix c.r) (Reg.AUX_RESr_END_HI.ix c.r) = c.end_.toNat ∧ Raised u 0x031 c.r ∧
      (c.origin ≠ 0 → u.auxState = 1))) ∧
  (∀ (t : Time) (s : State), s.auxState = 6 → Gives (.scanGapEnd t) s fun u => u.auxState = 1 ∧ u.aux = s.aux) ∧
  (∀ (q : Requester) (r : Fin 8) (s : State), s.reaches q 0x031 = true → Gives (.auxResultRead q r) s fun u =>
    u.req.data.toNat = s.st (Reg.AUX_RESr_VALUE.ix r) ∧ u.st (Reg.AUX_RESr_META.ix r) / 2 % 2 = 0 ∧
    (u.snapOf q (regAddr 0x031 (Reg.AUX_RESr_META.ix r).off)).map (·.toNat) = some (s.st (Reg.AUX_RESr_META.ix r))) ∧
  (∀ (x : Stream) (s : State), (s.strm.streams.filter fun y => y.sel.product == 0x0B && (Amap.find 0 y.opens).isSome) = [x] →
    Gives .auxRecordFlush s fun u => openRec u x.sid 0 = none ∧ u.aux = s.aux ∧ u.live = s.live))

/-! ### zone cores: instructions -/

/-- Core `n` issues `i` as an ordinary instruction: it may issue, its program memory holds `i` at the PC, `i` may stand there, no delay slot is due and
no step or halt is asked for. -/
def Sys2Proof.Claims.issues (n : Core) (i : Instr) (s : State) : Prop :=
  canIssue s n = true ∧ zcDecode n (Amap.get (s.core n).pm ((s.core n).reg zPC) 0) = some i ∧ placement (s.core n) i = false ∧
  (s.core n).delay = 0 ∧ (s.core n).stepping = false ∧ (s.core n).haltReq = false

/-- The core as the instruction sees it: the writes whose turn has come have landed, the PC has moved on, the issue is counted. -/
def Sys2Proof.Claims.seen (n : Core) (s : State) : ZCore :=
  { ((s.core n).land (s.core n).pos).advancePc with cycles := ((s.core n).land (s.core n).pos).advancePc.cycles + 1 }

/-- The core runs on, one position further, with the register writes `l` under way: register, whether loaded, value. -/
def Sys2Proof.Claims.Writes (n : Core) (s u : State) (l : List (Nat × Bool × Nat)) : Prop :=
  (u.core n).regW = (seen n s).regW ++ l.map (fun w => ((s.core n).pos, w.1, w.2.1, w.2.2 % 2 ^ 40)) ∧
  (u.core n).pos = (s.core n).pos + 1 ∧ u.coreState n = 1

/-- The flags Z, N, C and V. -/
def Sys2Proof.Claims.Flags (n : Core) (u : State) (z m c v : Bool) : Prop :=
  (u.core n).sr 0 = z ∧ (u.core n).sr 1 = m ∧ (u.core n).sr 2 = c ∧ (u.core n).sr 3 = v

/-- SR as the instruction found it. -/
def Sys2Proof.Claims.SrKept (n : Core) (s u : State) : Prop := (u.core n).reg (zX 0) = (seen n s).reg (zX 0)

/-- How far an update moves a pointer. -/
def Sys2Proof.Claims.updStep (u : Upd) : Int := match u with | .none => 0 | .inc => 1 | .dec => -1 | .inc2 => 2

/-- A pointer has moved by `k` from where the core `c` holds it. -/
def Sys2Proof.Claims.Moved (n : Core) (c : ZCore) (u : State) (p : Nat) (k : Int) : Prop :=
  (u.core n).reg (zP p) = stepPtr (c.reg (zP p)) (c.reg (zB p)) (c.reg (zL p)) k % 4096

/-- R291, R300: sums, differences, comparisons, ABS and NEG: 40 bits of the exact result, Z and N of them, C for a carry or a borrow, V for a signed overflow. R300: logic, shifts, bit fields and moves. Logic, shifts and fields set Z and N and clear C and V; moves leave SR. States completion of: add, addi, sub, cmp, cmpi, abs, neg, and, or, xor, asr, lsr, lsl, extu, exts, movi, orsh, mov. The model's readings here: log entries 53, 54. -/
def Obligations.ZoneArithmetic : Prop :=
  (∀ (n : Core) (d a b : Fin 8) (imm : BitVec 15) (s : State) (x y k : Nat), x = (seen n s).rdE (zD a) → y = (seen n s).rdE (zD b) →
    k = ux 40 imm.toInt →
    (issues n (.add n d a b) s → Gives (.add n d a b) s fun u => Writes n s u [(d.val, false, x + y)] ∧
      Flags n u ((x + y) % 2 ^ 40 == 0) ((x + y) / 2 ^ 39 % 2 == 1) (decide (2 ^ 40 ≤ x + y)) (out40 (sx 40 x + sx 40 y))) ∧
    (issues n (.addi n d a imm) s → Gives (.addi n d a imm) s fun u => Writes n s u [(d.val, false, x + k)] ∧
      Flags n u ((x + k) % 2 ^ 40 == 0) ((x + k) / 2 ^ 39 % 2 == 1) (decide (2 ^ 40 ≤ x + k)) (out40 (sx 40 x + sx 40 k))) ∧
    (issues n (.sub n d a b) s → Gives (.sub n d a b) s fun u => Writes n s u [(d.val, false, x + 2 ^ 40 - y)] ∧
      Flags n u ((x + 2 ^ 40 - y) % 2 ^ 40 == 0) ((x + 2 ^ 40 - y) / 2 ^ 39 % 2 == 1) (decide (x < y)) (out40 (sx 40 x - sx 40 y))) ∧
    (issues n (.cmp n a b) s → Gives (.cmp n a b) s fun u => Writes n s u [] ∧
      Flags n u ((x + 2 ^ 40 - y) % 2 ^ 40 == 0) ((x + 2 ^ 40 - y) / 2 ^ 39 % 2 == 1) (decide (x < y)) (out40 (sx 40 x - sx 40 y))) ∧
    (issues n (.cmpi n a imm) s → Gives (.cmpi n a imm) s fun u => Writes n s u [] ∧
      Flags n u ((x + 2 ^ 40 - k) % 2 ^ 40 == 0) ((x + 2 ^ 40 - k) / 2 ^ 39 % 2 == 1) (decide (x < k)) (out40 (sx 40 x - sx 40 k))) ∧
    (issues n (.abs n d a) s → Gives (.abs n d a) s fun u => Writes n s u [(d.val, false, (sx 40 x).natAbs)] ∧
      Flags n u (x % 2 ^ 40 == 0) (x % 2 ^ 40 == 2 ^ 39) ((seen n s).sr 2) (x % 2 ^ 40 == 2 ^ 39)) ∧
    (issues n (.neg n d a) s → Gives (.neg n d a) s fun u => Writes n s u [(d.val, false, ux 40 (-(sx 40 x)))] ∧
      Flags n u (x % 2 ^ 40 == 0) (ux 40 (-(sx 40 x)) / 2 ^ 39 % 2 == 1) ((seen n s).sr 2) (x % 2 ^ 40 == 2 ^ 39))) ∧
  (∀ (n : Core) (d a b : Fin 8) (sh pos w : Fin 64) (imm : BitVec 15) (s : State) (x y : Nat),
    x = (seen n s).rdE (zD a) → y = (seen n s).rdE (zD b) →
    (∀ i v, (i, v) ∈ [(Instr.and n d a b, x &&& y), (.or n d a b, x ||| y), (.xor n d a b, x ^^^ y)] →
      issues n i s → Gives i s fun u => Writes n s u [(d.val, false, v)] ∧ Flags n u (v % 2 ^ 40 == 0) (v / 2 ^ 39 % 2 == 1) false false) ∧
    (sh.val < 40 → ∀ i v, (i, v) ∈ [(Instr.asr n d a sh, ux 40 (sx 40 x / (2 ^ sh.val : Nat))), (.lsr n d a sh, x / 2 ^ sh.val),
        (.lsl n d a sh, x * 2 ^ sh.val % 2 ^ 40)] →
      issues n i s → Gives i s fun u => Writes n s u [(d.val, false, v)] ∧ Flags n u (v % 2 ^ 40 == 0) (v / 2 ^ 39 % 2 == 1) false false) ∧
    (1 ≤ w.val → pos.val + w.val ≤ 40 → ∀ i v, (i, v) ∈ [(Instr.extu n d a pos w, x / 2 ^ pos.val % 2 ^ w.val),
        (.exts n d a pos w, ux 40 (sx w.val (x / 2 ^ pos.val % 2 ^ w.val)))] →
      issues n i s → Gives i s fun u => Writes n s u [(d.val, false, v)] ∧ Flags n u (v % 2 ^ 40 == 0) (v / 2 ^ 39 % 2 == 1) false false) ∧
    (∀ i v, (i, v) ∈ [(Instr.movi n d imm, ux 40 imm.toInt), (.orsh n d a imm, x * 2 ^ 15 ||| imm.toNat), (.mov n d a, x)] →
      issues n i s → Gives i s fun u => Writes n s u [(d.val, false, v)] ∧ SrKept n s u) ∧
    (∀ i, i ∈ [Instr.asr n d a sh, .lsr n d a sh, .lsl n d a sh, .extu n d a pos w, .exts n d a pos w] →
      issues n i s → Gives i s fun u => ∃ v, Writes n s u [(d.val, false, v)] ∧
        Flags n u (v % 2 ^ 40 == 0) (v / 2 ^ 39 % 2 == 1) false false))

/-- R292, R300: MIN and MAX of signed numbers, and the searches: Ds replaces Dd where it is more extreme, XC goes to Dt with it, and XC counts on. SR stays. States completion of: min, max, minx, maxx, minxu, maxxu. -/
def Obligations.ZoneExtremes : Prop :=
  ∀ (n : Core) (d a b : Fin 8) (s : State) (x y z k : Nat), x = (seen n s).rdE (zD a) → y = (seen n s).rdE (zD b) → z = (seen n s).rdE (zD d) →
    k = (seen n s).reg (zX 4) →
    (issues n (.min n d a b) s → Gives (.min n d a b) s fun u => Writes n s u [(d.val, false, ux 40 (min (sx 40 x) (sx 40 y)))] ∧ SrKept n s u) ∧
    (issues n (.max n d a b) s → Gives (.max n d a b) s fun u => Writes n s u [(d.val, false, ux 40 (max (sx 40 x) (sx 40 y)))] ∧ SrKept n s u) ∧
    (∀ i t, (i, t) ∈ [(Instr.minx n d a b, decide (sx 40 x < sx 40 z)), (.maxx n d a b, decide (sx 40 z < sx 40 x)),
        (.minxu n d a b, decide (x < z)), (.maxxu n d a b, decide (z < x))] →
      issues n i s → Gives i s fun u => Writes n s u (if t then [(d.val, false, x), (b.val, false, k)] else []) ∧ SrKept n s u ∧
        (u.core n).reg (zX 4) = (k + 1) % 2 ^ 16)

/-- The core `n` has stopped on an uncorrectable word `m` of its memories (R314). -/
def Sys2Proof.Claims.MemFaults (n : Core) (m : Nat) (u : State) : Prop :=
  u.coreState n = 4 ∧ u.st (Reg.ZCn_STATUS_FAULT.pg n) = 4 ∧ u.st (Reg.ZCn_FAULT_INFO_ADDR.pg n) = m % 4096 ∧
  u.st (Reg.ZCn_FAULT_INFO_MEM.pg n) = 1 + m / 4096 % 2 ∧ Raised u (0x040 + n) 1

/-- R290, R299, R300: accumulators. A product joins its accumulator, AV is set where the true result does not fit 40 bits and is otherwise kept; the reads of a
parallel word load XM and YM and move their pointers. A word of them that is uncorrectable faults the core with MEM (R314). States completion of: mpy, mac, msu, move, mova, movta, adda, clra, sha. The model's readings here: log entries 53, 55. -/
def Obligations.ZoneAccumulators : Prop :=
  ∀ (n : Core) (p : ParOps) (d : Fin 8) (a : Fin 2) (sh : Fin 64) (k : BitVec 6) (s : State) (c : ZCore) (reads : List (Nat × Bool × Nat)),
    c = seen n s →
    reads = (if p.xe then [(p.xd.val, true, c.memAt (c.ptr p.xp.val))] else []) ++
      (if p.ye then [(4 + p.yd.val, true, c.memAt (c.ptr (4 + p.yp.val)))] else []) →
    (∀ i x, (i, x) ∈ [(Instr.mpy n p, c.parMul p), (.mac n p, sx 40 (c.rdE (zA p.acc)) + c.parMul p),
        (.msu n p, sx 40 (c.rdE (zA p.acc)) - c.parMul p)] →
      issues n i s → (∀ m ∈ ZCore.parAddrs p (s.core n), (s.core n).bad.contains m = false) → Gives i s fun u => Writes n s u ((zA p.acc, false, ux 40 x) :: reads) ∧
        (u.core n).sr 4 = (out40 x || c.sr 4) ∧ (p.xe = true → Moved n c u p.xp.val (updStep p.xu)) ∧
        (p.ye = true → Moved n c u (4 + p.yp.val) (updStep p.yu))) ∧
    (∀ i m rest, i ∈ [Instr.mpy n p, .mac n p, .msu n p, .move n p] → issues n i s → ZCore.parAddrs p (s.core n) = m :: rest →
      (s.core n).bad.contains m = true → Gives i s fun u => MemFaults n m u) ∧
    (issues n (.move n p) s → (∀ m ∈ ZCore.parAddrs p (s.core n), (s.core n).bad.contains m = false) →
      Gives (.move n p) s fun u => Writes n s u reads ∧ SrKept n s u ∧
      (p.xe = true → Moved n c u p.xp.val (updStep p.xu)) ∧ (p.ye = true → Moved n c u (4 + p.yp.val) (updStep p.yu))) ∧
    (issues n (.mova n d a sh) s → Gives (.mova n d a sh) s fun u =>
      Writes n s u [(d.val, false, ux 40 (sx 40 (c.rdE (zA a)) / (2 ^ sh.val : Nat)))] ∧ SrKept n s u) ∧
    (issues n (.movta n a d) s → Gives (.movta n a d) s fun u => Writes n s u [(zA a, false, c.rdE (zD d))] ∧ SrKept n s u) ∧
    (issues n (.adda n a d) s → Gives (.adda n a d) s fun u =>
      Writes n s u [(zA a, false, ux 40 (sx 40 (c.rdE (zA a)) + sx 40 (c.rdE (zD d))))] ∧
      (u.core n).sr 4 = (out40 (sx 40 (c.rdE (zA a)) + sx 40 (c.rdE (zD d))) || c.sr 4)) ∧
    (issues n (.clra n a) s → Gives (.clra n a) s fun u => Writes n s u [(zA a, false, 0)] ∧ SrKept n s u) ∧
    (0 ≤ k.toInt → issues n (.sha n a k) s → Gives (.sha n a k) s fun u =>
      Writes n s u [(zA a, false, ux 40 (sx 40 (c.rdE (zA a)) / (2 ^ k.toInt.toNat : Nat)))] ∧ SrKept n s u) ∧
    (k.toInt < 0 → issues n (.sha n a k) s → Gives (.sha n a k) s fun u =>
      Writes n s u [(zA a, false, ux 40 (sx 40 (c.rdE (zA a)) * (2 ^ k.toInt.natAbs : Nat)))] ∧
      (u.core n).sr 4 = (out40 (sx 40 (c.rdE (zA a)) * (2 ^ k.toInt.natAbs : Nat)) || c.sr 4))

/-- R288, R289, R300: pointers, bases and lengths, and memory operands: the pointer's value before its update addresses the word, a store waits for its stage, and a load of an uncorrectable word faults the core with MEM (R314). R294, R300, R306: ports and special registers. A port that is defined in the direction answers or takes the value, any other faults the core with IO; MOVSR to a loop register waits, to another takes effect. States completion of: movp, movb, movl, ldpi, ldbi, ldli, addp, rdp, rdb, rdl, ld, lda, st, sta, ldo, ldd, sto, std, inp, out, movs, movsr. The model's readings here: log entry 53. -/
def Obligations.ZonePointersAndPorts : Prop :=
  (∀ (n : Core) (d a : Fin 8) (x : Fin 2) (w : Upd) (imm : BitVec 12) (yy : Bool) (e : Sram) (s : State) (c k : ZCore), c = seen n s → k = s.core n →
    (∀ i r v, (i, r, v) ∈ [(Instr.movp n d a, zP d, c.rdA (zD a)), (.movb n d a, zB d, c.rdA (zD a)), (.movl n d a, zL d, c.rdA (zD a)),
        (.ldpi n d imm, zP d, imm.toNat), (.ldbi n d imm, zB d, imm.toNat), (.ldli n d imm, zL d, imm.toNat)] →
      issues n i s → Gives i s fun u => Writes n s u [] ∧ (u.core n).reg r = v % 4096 ∧ SrKept n s u) ∧
    (issues n (.addp n d imm) s → Gives (.addp n d imm) s fun u => Writes n s u [] ∧ Moved n c u d imm.toInt) ∧
    (∀ i v, (i, v) ∈ [(Instr.rdp n d a, c.reg (zP a)), (.rdb n d a, c.reg (zB a)), (.rdl n d a, c.reg (zL a))] →
      issues n i s → Gives i s fun u => Writes n s u [(d.val, false, v)] ∧ SrKept n s u) ∧
    (∀ i j r, (i, j, r) ∈ [(Instr.ld n d a w e, Instr.ld n d a w noSram, zD d), (.lda n x a w, .lda n x a w, zA x)] →
      issues n j s → e.lost = false → k.bad.contains (k.ptr a) = false → Gives i s fun u => Writes n s u [(r, true, c.memAt (c.ptr a))] ∧ Moved n c u a (updStep w) ∧ (u.core n).memW = c.memW) ∧
    (∀ i r, (i, r) ∈ [(Instr.st n d a w, zD d), (.sta n x a w, zA x)] →
      issues n i s → Gives i s fun u => Writes n s u [] ∧ Moved n c u a (updStep w) ∧
        (u.core n).memW = c.memW ++ [((s.core n).pos, c.ptr a, c.rdE r)]) ∧
    (∀ i m, (i, m) ∈ [(Instr.ldo n d a imm, k.offAddr a imm), (.ldd n d yy imm, (if yy then 4096 else 0) + imm.toNat)] →
      issues n i s → k.bad.contains m = false → Gives i s fun u => Writes n s u [(d.val, true, c.memAt m)] ∧ (u.core n).memW = c.memW ∧ SrKept n s u) ∧
    (∀ i j m, (i, j, m) ∈ [(Instr.ld n d a w e, Instr.ld n d a w noSram, k.ptr a), (.lda n x a w, .lda n x a w, k.ptr a),
        (.ldo n d a imm, .ldo n d a imm, k.offAddr a imm), (.ldd n d yy imm, .ldd n d yy imm, (if yy then 4096 else 0) + imm.toNat)] →
      issues n j s → k.bad.contains m = true → Gives i s fun u => MemFaults n m u) ∧
    (issues n (.ld n d a w noSram) s → e.lost = true → Gives (.ld n d a w e) s fun u =>
      MemFaults n (k.ptr a) u ∧ Counts Reg.SYS_SRAM_UE s u) ∧
    (∀ i m, (i, m) ∈ [(Instr.sto n d a imm, c.offAddr a imm), (.std n d yy imm, (if yy then 4096 else 0) + imm.toNat)] →
      issues n i s → Gives i s fun u => Writes n s u [] ∧ (u.core n).memW = c.memW ++ [((s.core n).pos, m, c.rdE (zD d))] ∧ SrKept n s u)) ∧
  (∀ (n : Core) (d : Fin 8) (x : Fin 11) (port : BitVec 8) (s v : State) (c : ZCore), c = seen n s →
    v = (s.setSt (Reg.ZCn_STATUS_STATE.pg n) 1).setCore n c →
    (∀ r t, portIn n port.toNat v = some (r, t) → issues n (.inp n d port) s → Gives (.inp n d port) s fun u =>
      Writes n s u [(d.val, true, r)] ∧ u.capt = s.capt) ∧
    (portIn n port.toNat v = none → issues n (.inp n d port) s → Gives (.inp n d port) s fun u =>
      u.coreState n = 4 ∧ u.st (Reg.ZCn_STATUS_FAULT.pg n) = 5 ∧ Raised u (0x040 + n) 1) ∧
    (∀ t, portOut n port.toNat (c.rdE (zD d)) v = some t → issues n (.out n d port) s → Gives (.out n d port) s fun u =>
      u.core n = { t.core n with pos := (t.core n).pos + 1 } ∧ u.icu = t.icu ∧ u.capt = t.capt) ∧
    (portOut n port.toNat 0 v = none → issues n (.out n d port) s → Gives (.out n d port) s fun u =>
      u.coreState n = 4 ∧ u.st (Reg.ZCn_STATUS_FAULT.pg n) = 5 ∧ Raised u (0x040 + n) 1) ∧
    (issues n (.movs n d x) s → Gives (.movs n d x) s fun u =>
      Writes n s u [(d.val, false, ((c.loopW.filter fun w => w.2.1 == zX x).getLast?.map (·.2.2)).getD (c.reg (zX x)))]) ∧
    (issues n (.movsr n d x) s → Gives (.movsr n d x) s fun u => Writes n s u [] ∧
      (x.val < 5 → (u.core n).reg (zX x) = c.rdE (zD d) % 2 ^ zWidth (zX x) ∧ (u.core n).loopW = c.loopW) ∧
      (5 ≤ x.val → (u.core n).loopW = c.loopW ++ [((s.core n).pos, zX x, c.rdE (zD d) % 2 ^ zWidth (zX x))])))

/-! ### zone cores: control, events and faults -/

/-- R295, R297, R301, R305, R313: control instructions. A branch takes its target two delay slots later where its condition holds; CALL keeps the return address; a loop takes the free level,
or is skipped for a count of 0; RTI restores SR with its branch; WAIT stops a core that has no request, HALT halts it. States completion of: nop, br, call, ret, jmpr, rti, loopi, loopr, brklp, wait, halt, setie, clrv. The model's readings here: log entries 53, 55. -/
def Obligations.ZoneControl : Prop :=
  ∀ (n : Core) (k : Cond) (addr count le : BitVec 13) (a : Fin 8) (v : Bool) (s : State) (c : ZCore), c = seen n s →
    (issues n (.nop n) s → Gives (.nop n) s fun u => Writes n s u [] ∧ SrKept n s u ∧ (u.core n).reg zPC = c.reg zPC ∧ (u.core n).delay = 0) ∧
    (issues n (.br n k addr) s → Gives (.br n k addr) s fun u => Writes n s u [] ∧ (u.core n).delay = 2 ∧
      (u.core n).target = (if condHolds s n c k then some addr.toNat else none)) ∧
    (issues n (.call n addr) s → Gives (.call n addr) s fun u => Writes n s u [] ∧ (u.core n).delay = 2 ∧
      (u.core n).target = some addr.toNat ∧ (u.core n).reg (zX 3) = ((s.core n).reg zPC + 3) % 8192) ∧
    (issues n (.ret n k) s → Gives (.ret n k) s fun u => Writes n s u [] ∧ (u.core n).delay = 2 ∧
      (u.core n).target = (if condHolds s n c k then some (c.reg (zX 3)) else none)) ∧
    (issues n (.jmpr n a) s → Gives (.jmpr n a) s fun u => Writes n s u [] ∧ (u.core n).delay = 2 ∧
      (u.core n).target = some (c.rdE (zD a) % 8192)) ∧
    (issues n (.rti n) s → Gives (.rti n) s fun u => Writes n s u [] ∧ (u.core n).delay = 2 ∧
      (u.core n).target = some (c.reg (zX 2)) ∧ (u.core n).rti = some (c.reg (zX 1))) ∧
    (∀ i m, (i, m) ∈ [(Instr.loopi n count le, count.toNat), (.loopr n a le, c.rdA (zD a) % 65536)] → issues n i s →
      (s.core n).sr 6 = false → c.sr 6 = false →
      (m ≠ 0 → Gives i s fun u => Writes n s u [] ∧ (u.core n).sr 6 = true ∧ (u.core n).reg (zX 5) = m % 65536 ∧
        (u.core n).reg (zX 6) = c.reg zPC % 8192 ∧ (u.core n).reg (zX 7) = le.toNat) ∧
      (m = 0 → Gives i s fun u => Writes n s u [] ∧ (u.core n).reg zPC = (le.toNat + 1) % 8192 ∧ (u.core n).sr 6 = false)) ∧
    (issues n (.loopi n count le) s → (s.core n).sr 6 = true → (s.core n).sr 7 = true → Gives (.loopi n count le) s fun u =>
      u.coreState n = 4 ∧ u.st (Reg.ZCn_STATUS_FAULT.pg n) = 3) ∧
    (issues n (.brklp n) s → Gives (.brklp n) s fun u => Writes n s u [] ∧ (u.core n).sr 7 = false ∧
      (u.core n).sr 6 = (c.sr 6 && c.sr 7)) ∧
    (issues n (.wait n) s → icuRequest ((s.setSt (Reg.ZCn_STATUS_STATE.pg n) 1).setCore n c) (2 + n) = true → Gives (.wait n) s fun u =>
      Writes n s u []) ∧
    (issues n (.wait n) s → icuRequest ((s.setSt (Reg.ZCn_STATUS_STATE.pg n) 1).setCore n c) (2 + n) = false → Gives (.wait n) s fun u =>
      u.coreState n = 2) ∧
    (issues n (.halt n) s → Gives (.halt n) s fun u => u.coreState n = 3 ∧ Raised u (0x040 + n) 0) ∧
    (issues n (.setie n v) s → Gives (.setie n v) s fun u => Writes n s u [] ∧ (u.core n).sr 5 = v) ∧
    (issues n (.clrv n) s → Gives (.clrv n) s fun u => Writes n s u [] ∧ (u.core n).sr 4 = false)

/-- R298, R302, R313, R314: what starts, stops and interrupts a core. A reserved word faults it with ILLEGAL at its address; an interrupt saves PC and SR and goes to VECTOR; an enabled breakpoint halts it; START, HALT_REQ, STEP and CLR_FAULT act in the states that R313 gives them. R306, R307, R309 to R312, R315, R316: events, copies, verdicts, the timer and the memory window of a core, and the load of an image. States completion of: illegalInstruction, zcInterrupt, bkptHit, zcStart, haltReq, zcStep, clrFault, evqPop, segGo, segCopyDone, segRel, vdPost, tmrCommit, zcTimer, zcMemWrite. The model's readings here: log entries 52, 56, 57. -/
def Obligations.ZoneCoreCommands : Prop :=
  (∀ (n : Core) (q : Requester) (w : Word) (s : State),
    (canIssue s n = true → Amap.get (s.core n).pm ((s.core n).reg zPC) 0 = w.toNat → zcDecode n w.toNat = none →
      Gives (.illegalInstruction n w) s fun u => u.coreState n = 4 ∧ u.st (Reg.ZCn_STATUS_FAULT.pg n) = 1 ∧ Raised u (0x040 + n) 1) ∧
    ((s.coreState n = 1 ∨ s.coreState n = 2) → (s.core n).sr 5 = true → (s.core n).delay = 0 → icuRequest s (2 + n) = true →
      Gives (.zcInterrupt n) s fun u => u.coreState n = 1 ∧ (u.core n).reg zPC = s.lv (Reg.ZCn_VECTOR.pg n) % 8192 ∧
        (u.core n).reg (zX 2) = (s.core n).drain.reg zPC % 8192 ∧ (u.core n).reg (zX 1) = (s.core n).drain.reg (zX 0) % 512 ∧
        (u.core n).sr 5 = false ∧ (u.core n).sr 8 = true) ∧
    (s.coreState n = 1 → s.lv (Reg.ZCn_BKPT_EN.pg n) ≠ 0 → s.lv (Reg.ZCn_BKPT_ADDR.pg n) = (s.core n).reg zPC → Gives (.bkptHit n) s fun u =>
      u.coreState n = 3 ∧ u.st (Reg.ZCn_STATUS_BKPT_HIT.pg n) = 1 ∧ Raised u (0x040 + n) 0) ∧
    (s.coreState n = 2 → icuRequest s (2 + n) = true → (s.core n).sr 5 = false → s.lv (Reg.ZCn_BKPT_EN.pg n) ≠ 0 →
      s.lv (Reg.ZCn_BKPT_ADDR.pg n) = (s.core n).reg zPC → Gives (.bkptHit n) s fun u => u.coreState n = 3 ∧ u.st (Reg.ZCn_STATUS_BKPT_HIT.pg n) = 1) ∧
    (s.reaches q (0x040 + n) = true →
      (s.coreState n = 0 → Gives (.zcStart q n) s fun u => u.coreState n = 1 ∧ (u.core n).reg zPC = s.lv (Reg.ZCn_ENTRY.pg n) % 8192) ∧
      (s.coreState n = 3 → Gives (.zcStart q n) s fun u => u.coreState n = 1 ∧ u.zc = s.zc) ∧
      (s.coreState n = 1 → (s.core n).delay = 0 → Gives (.haltReq q n) s fun u => u.coreState n = 3 ∧ Raised u (0x040 + n) 0) ∧
      (s.coreState n = 1 → (s.core n).delay ≠ 0 → Gives (.haltReq q n) s fun u => u.coreState n = 1 ∧ (u.core n).haltReq = true) ∧
      (s.coreState n = 3 → Gives (.zcStep q n) s fun u => u.coreState n = 1 ∧ (u.core n).stepping = true) ∧
      (s.coreState n = 4 → Gives (.clrFault q n) s fun u => u.coreState n = 3 ∧ Raised u (0x040 + n) 0))) ∧
  ((∀ (n : Core) (e : Event) (r : List Event) (s : State), (s.core n).evq = e :: r → Gives (.evqPop n) s fun u =>
    (u.core n).evq = r ∧ (u.core n).window = some e) ∧
  (∀ (n : Core) (w : Word) (s : State) (x : SegCopy), (s.core n).copy = none →
    x = { seg := (s.core n).segId % 65536, mode := w.toNat % 2, off := (s.core n).segOff, stride := (s.core n).segStride
          cnt := (s.core n).segCnt, dst := (s.core n).segDst % 8192, sh := w.toNat / 256 % 32 } →
    (copyCheck s x (s.core n).segId = 0 → Gives (.segGo n w) s fun u => (u.core n).copy = some x ∧ (u.core n).result = 0) ∧
    (copyCheck s x (s.core n).segId ≠ 0 → Gives (.segGo n w) s fun u =>
      (u.core n).copy = none ∧ (u.core n).result = copyCheck s x (s.core n).segId)) ∧
  (∀ (n : Core) (ue : Bool) (s : State) (x : SegCopy), (s.core n).copy = some x → Gives (.segCopyDone n ue) s fun u =>
    (u.core n).copy = none ∧ (u.tgt (2 + n)).edges / 2 % 2 = 1 ∧
    (ue = true → (u.core n).result = 4 ∧ (u.core n).xm = (s.core n).xm ∧ (u.core n).ym = (s.core n).ym)) ∧
  (∀ (n : Core) (id : Word) (s : State), id.toNat % 65536 < segCount s → (s.seg (id.toNat % 65536)).st ≠ 0 →
    (s.seg (id.toNat % 65536)).gen = id.toNat / 65536 → (s.seg (id.toNat % 65536)).core = n.val →
    ((s.seg (id.toNat % 65536)).hold / 2 % 2 = 1 → Gives (.segRel n id) s fun u =>
      (copying s (id.toNat % 65536) = false → (u.seg (id.toNat % 65536)).hold = (s.seg (id.toNat % 65536)).hold &&& 5) ∧
      (copying s (id.toNat % 65536) = true → (u.seg (id.toNat % 65536)).hold = (s.seg (id.toNat % 65536)).hold ∧
        (u.seg (id.toNat % 65536)).owed = (s.seg (id.toNat % 65536)).owed ||| 2)) ∧
    ((s.seg (id.toNat % 65536)).hold / 2 % 2 = 0 → Gives (.segRel n id) s fun u =>
      u.capt = s.capt ∧ Counts (Reg.ZCn_REL_REJECTS.pg n) s u ∧ Raised u (0x040 + n) 4)) ∧
  (∀ (n : Core) (t : Time) (s : State),
    ((s.core n).vdAt = none → Gives (.vdPost n t) s fun u =>
      Counts (Reg.ZCn_VERDICTS.pg n) s u ∧ (u.core n).vdAt = some ((s.core n).cycles, t)) ∧
    (∀ k v, (s.core n).vdAt = some (k, v) → (s.core n).cycles < k + 64 → tDiff t v < 10240 → Gives (.vdPost n t) s fun u =>
      Counts (Reg.ZCn_VD_DROPS.pg n) s u ∧ Raised u (0x040 + n) 5 ∧ u.strm = s.strm ∧ (u.core n) = s.core n)) ∧
  (∀ (n : Core) (t : Time) (lo : Word) (s : State) (v : Time), v = BitVec.ofNat 64 ((s.core n).tmrHi * 2 ^ 32 + lo.toNat) →
    (tBefore t v = true → Gives (.tmrCommit n t lo) s fun u => (u.core n).tmr = some v ∧ u.icu = s.icu) ∧
    (tBefore t v = false → Gives (.tmrCommit n t lo) s fun u => (u.core n).tmr = none ∧ (u.tgt (2 + n)).edges / 8 % 2 = 1)) ∧
  (∀ (n : Core) (t v : Time) (s : State), (s.core n).tmr = some v → tBefore t v = false → Gives (.zcTimer n t) s fun u =>
    (u.core n).tmr = none ∧ (u.tgt (2 + n)).edges / 8 % 2 = 1) ∧
  (∀ (q : Requester) (n : Core) (w : Word) (s : State) (i : Nat), s.reaches q (0x040 + n) = true → i = s.winIndex q (0x040 + n) →
    i / 65536 % 4 = 0 →
    ((s.coreState n = 0 ∨ s.coreState n = 3 ∨ s.coreState n = 4) → Gives (.zcMemWrite q n w) s fun u =>
      Amap.find (i % 8192) (u.core n).pm = some w.toNat ∧ u.winIndex q (0x040 + n) = (i + 1) % 8192) ∧
    (s.coreState n = 1 → Gives (.zcMemWrite q n w) s fun u =>
      u.zc = s.zc ∧ Counts (Reg.ZCn_LOAD_REJECTS.pg n) s u ∧ Raised u (0x040 + n) 6)))

/-! ### stream codec -/

/-- R15, R331, R332, R335, R337, R338, R343: compress engines and context slots. A take gives an idle engine the record that is due and says whether it resets; coding ends with the record
counted complete or the stream paused; saving frees the engine with the slot's header in record memory, and the engine keeps a state of at most 256 KB; a paused stream resumes with a link,
or is abandoned. States completion of: cmpTake, cmpRestoreDone, cmpCodeDone, cmpSaveDone, chainLinkAvailable, abandoned, pauseDrop, ctxReset, ctxCfgWrite. The model's readings here: log entries 58, 59. -/
def Obligations.CompressEnginesCode : Prop :=
  (∀ (e : Fin 6) (s : State) (r : Ready), (s.engine e).phase = 0 → pickReady s = some r → (s.ctx r.slot).held = none →
    Gives (.cmpTake e) s fun u =>
      (u.engine e).phase = 1 ∧ (∀ x ∈ u.cmp.ready, ¬(x.slot = r.slot ∧ x.seq = r.seq)) ∧
      ∃ j, (u.engine e).job = some j ∧ j.ready = r ∧ j.pass = (s.ctx r.slot).pass ∧ j.pred = (s.ctx r.slot).pred ∧
        j.reset = (!(s.ctx r.slot).pass && wantsReset (s.ctx r.slot) r.rec_)) ∧
  (∀ (e : Fin 6) (s : State) (j : CodeJob), (s.engine e).phase = 1 → (s.engine e).job = some j →
    (ctxBad s j.ready.slot = false → Gives (.cmpRestoreDone e false) s fun u => (u.engine e).phase = 2 ∧ (u.engine e).job = some j) ∧
    ((s.engine e).store ≠ some j.ready.slot → Gives (.cmpRestoreDone e true) s fun u => (u.engine e).phase = 2 ∧ Raised u 0x080 2 ∧
      ∃ k, (u.engine e).job = some k ∧ k.ready = j.ready ∧ (j.pass = false → k.reset = true))) ∧
  (∀ (e : Fin 6) (err : Sram) (s : State) (j : CodeJob), (s.engine e).phase = 2 → (s.engine e).job = some j → Gives (.cmpCodeDone e err) s fun u =>
    (u.engine e).phase = 3 ∧ (u.engine e).job = some j ∧ (err.lost = true → Counts Reg.SYS_SRAM_UE s u) ∧
    ((Counts Reg.CMP_RECORDS s u ∧ (u.ctx j.ready.slot).lastSeq = j.ready.seq) ∨ (u.ctx j.ready.slot).paused = true)) ∧
  (∀ (e : Fin 6) (s : State) (j : CodeJob), (s.engine e).phase = 3 → (s.engine e).job = some j →
    j.ready.slot < slotCount s → Gives (.cmpSaveDone e) s fun u =>
    u.engine e = { phase := 0, job := none, store := if slotBytes (s.ctx j.ready.slot) ≤ 262144 then some j.ready.slot else none } ∧ (u.ctx j.ready.slot).saved = true ∧
    memRead u ((regionBytes s 5).1 + 1468416 * j.ready.slot) 256 = ctxHeader (s.ctx j.ready.slot)) ∧
  (∀ (c : Nat) (s : State) (j : CodeJob), (s.ctx c).held = some j → (s.ctx c).paused = true →
    (linkAvailable s c = true → Gives (.chainLinkAvailable c) s fun u =>
      u.cmp.ready = { j.ready with at_ := s.time } :: s.cmp.ready ∧ (u.ctx c).paused = false ∧ (u.ctx c).held = some j ∧ (u.ctx c).gapPending = true) ∧
    (linkAvailable s c = false → Gives (.abandoned c) s fun u =>
      (u.ctx c).paused = false ∧ (u.ctx c).held = none ∧ (u.ctx c).resetPending = true ∧
      ((∀ r ∈ s.cmp.ready, r.slot ≠ c) → (u.ctx c).gapPending = true) ∧
      (∀ r, (s.cmp.ready.find? fun x => x.slot == c) = some r →
        ∃ x ∈ u.cmp.ready, x.slot = c ∧ x.seq = r.seq ∧ x.rec_.flags = r.rec_.flags ||| 0x40) ∧
      Counts Reg.CMP_ABANDONED s u ∧ Raised u 0x080 1)) ∧
  (∀ (c : Nat) (s : State), (s.ctx c).paused = true → Gives (.pauseDrop c) s fun u =>
    Counts Reg.CMP_PAUSE_DROPS s u ∧ (u.ctx c).gapPending = true ∧ (u.ctx c).resetPending = true) ∧
  (∀ (q : Requester) (w : Word) (s : State), s.reaches q 0x080 = true →
    (w.toNat % 2 = 1 → Gives (.ctxReset q w) s fun u => (u.ctx (ctxIndex s q)).resetPending = true) ∧
    Gives (.ctxCfgWrite q w) s (fun u => (u.ctx (ctxIndex s q)).pass = (w.toNat / 2 ^ 20 % 2 == 1) ∧
      (u.ctx (ctxIndex s q)).auto = (w.toNat / 2 ^ 19 % 2 == 1) ∧ (u.ctx (ctxIndex s q)).resync = w.toNat / 2 ^ 24 ∧
      (w.toNat / 2 ^ 16 % 8 ≤ 4 → (u.ctx (ctxIndex s q)).pred = w.toNat / 2 ^ 16 % 8) ∧ (u.ctx (ctxIndex s q)).bufs = (s.ctx (ctxIndex s q)).bufs))

/-- R16, R339 to R342: decompress jobs. GO starts an idle engine on an unbound slot, cleared without KEEP, with a source that it may read; a plain record that verifies goes to host memory; a malformed header stops the engine with its
code; an abort waits for the record boundary; CLEAR ends an error. States completion of: dcmpGo, dcmpRecord, dcmpAbort, dcmpClear. The model's readings here: log entry 60. -/
def Obligations.DecompressJobsRun : Prop :=
  (∀ (q : Requester) (e : Fin 2) (s : State), s.reaches q 0x081 = true → s.st (Reg.DCMP_Ee_STATUS_STATE.ix e) = 0 →
    ((s.ctx (s.lv (Reg.DCMP_Ee_CFG_CTX.ix e))).bound = false → dcmpSource s e = true → s.lv (Reg.DCMP_Ee_SRC_LEN.ix e) ≠ 0 → Gives (.dcmpGo q e) s fun u =>
      u.st (Reg.DCMP_Ee_STATUS_STATE.ix e) = 1 ∧ u.st (Reg.DCMP_Ee_CONSUMED.ix e) = 0 ∧ u.st (Reg.DCMP_Ee_PRODUCED.ix e) = 0 ∧
      u.st (Reg.DCMP_Ee_RECORDS.ix e) = 0 ∧
      (s.lv (Reg.DCMP_Ee_CFG_KEEP.ix e) = 0 → (u.ctx (s.lv (Reg.DCMP_Ee_CFG_CTX.ix e))).coder = {} ∧
        (u.ctx (s.lv (Reg.DCMP_Ee_CFG_CTX.ix e))).fresh = true ∧ (u.ctx (s.lv (Reg.DCMP_Ee_CFG_CTX.ix e))).saved = false)) ∧
    (((s.ctx (s.lv (Reg.DCMP_Ee_CFG_CTX.ix e))).bound = true ∨ dcmpSource s e = false) → Gives (.dcmpGo q e) s fun u =>
      u.st (Reg.DCMP_Ee_STATUS_STATE.ix e) = 0 ∧ Raised u 0x081 6 ∧ u.cmp = s.cmp)) ∧
  (∀ (e : Fin 2) (src : List Byte) (s : State), s.st (Reg.DCMP_Ee_STATUS_STATE.ix e) = 1 → s.lv (Reg.DCMP_Ee_CFG_SRC_SPACE.ix e) = 0 →
    (∀ k, s.st (Reg.DCMP_Ee_CONSUMED.ix e) + 48 ≤ s.lv (Reg.DCMP_Ee_SRC_LEN.ix e) → parseHeader (src.take 48) = .error k →
      Gives (.dcmpRecord e src) s fun u => u.st (Reg.DCMP_Ee_STATUS_STATE.ix e) = 2 ∧ u.st (Reg.DCMP_Ee_STATUS_ERR_CODE.ix e) = k ∧
        Raised u 0x081 (4 + e)) ∧
    (∀ h, parseHeader (src.take 48) = .ok h → h.compressed = false → h.product ≠ 0xFF → src.length = 48 + h.payload →
      s.st (Reg.DCMP_Ee_CONSUMED.ix e) + 48 + h.payload ≤ s.lv (Reg.DCMP_Ee_SRC_LEN.ix e) →
      s.lv (Reg.DCMP_Ee_CFG_VERIFY_ONLY.ix e) = 0 → crc32c (src.drop 48) = h.check →
      s.st (Reg.DCMP_Ee_PRODUCED.ix e) + 48 + h.payload ≤ s.lv (Reg.DCMP_Ee_DST_LEN.ix e) → Gives (.dcmpRecord e src) s fun u =>
        Counts (Reg.DCMP_Ee_RECORDS.ix e) s u ∧ u.st (Reg.DCMP_Ee_LAST_SEQ.ix e) = h.seq % 2 ^ 32 ∧
        u.st (Reg.DCMP_Ee_PRODUCED.ix e) = (s.st (Reg.DCMP_Ee_PRODUCED.ix e) + 48 + h.payload) % 2 ^ 32 ∧
        u.st (Reg.DCMP_Ee_CHECK_FAILS.ix e) = s.st (Reg.DCMP_Ee_CHECK_FAILS.ix e) ∧
        ∃ a b, b.length = 48 ∧ ∀ x ∈ tlps (48 + h.payload) a (b ++ src.drop 48), Output.hostWrite 0 x.1 x.2 false (s.on Reg.DMA_CFG_RO_EN) ∈ u.out)) ∧
  (∀ (q : Requester) (e : Fin 2) (s : State), s.reaches q 0x081 = true →
    (s.st (Reg.DCMP_Ee_STATUS_STATE.ix e) = 1 → Gives (.dcmpAbort q e) s fun u => u.cmp.abort.get e = true ∧ u.status = s.status) ∧
    (s.st (Reg.DCMP_Ee_STATUS_STATE.ix e) = 2 → Gives (.dcmpClear q e) s fun u => u.st (Reg.DCMP_Ee_STATUS_STATE.ix e) = 0))

/-! ### record memory -/

/-- R347 to R350, R353: training and regions. A training starts in CONFIG with the supplies in range; one that passes makes the capacity known and fills the channel with zero, which READY ends; one
that fails names its step; a region is written in CONFIG, and refused while records flow. States completion of: memcTrain, trainDone, ready, regionWrite. The model's readings here: log entry 4. -/
def Obligations.MemoryTrainsAndFills : Prop :=
  (∀ (q : Requester) (ch : Fin 2) (s : State), s.reaches q (0x088 + ch) = true → s.mode = 1 →
    (s.st Reg.SYS_SUPPLY_BELOW = 0 → Gives (.memcTrain q ch) s fun u =>
      (u.memc.get ch).training = true ∧ u.live = s.live ∧ u.mem = s.mem) ∧
    (s.st Reg.SYS_SUPPLY_BELOW ≠ 0 → Gives (.memcTrain q ch) s fun u =>
      u.memc = s.memc ∧ u.st (Reg.MEMCn_STATUS_TRAIN_FAIL.pg ch) = 6 ∧ Raised u (0x088 + ch) 3)) ∧
  (∀ (ch : Fin 2) (eyes : List (Nat × Nat)) (step lane : Nat) (s w : State), (s.memc.get ch).training = true → w = applyMemCfg ch s →
    (step = 0 → narrowEye w ch eyes = none → Gives (.trainDone ch eyes step lane) s fun u =>
      u.st (Reg.MEMCn_STATUS_TRAINED.pg ch) = 1 ∧ u.st (Reg.MEMCn_STATUS_TRAIN_FAIL.pg ch) = 0 ∧ (u.memc.get ch).filling = true ∧
      u.st (Reg.MEMCn_STATUS_READY.pg ch) = 0 ∧ (ch = 0 → u.st (Reg.MEMCn_CAPACITY.pg ch) = chanMb w ch % 2 ^ 17) ∧
      u.lv (Reg.MEMCn_CFG_SPEED.pg ch) = s.sh (Reg.MEMCn_CFG_SPEED.pg ch) % 4 ∧ ∀ a, (chanOf w a).1 = ch.val → memByte u.mem a = 0) ∧
    (step ≠ 0 → Gives (.trainDone ch eyes step lane) s fun u =>
      u.st (Reg.MEMCn_STATUS_TRAINED.pg ch) = 0 ∧ u.st (Reg.MEMCn_STATUS_TRAIN_FAIL.pg ch) = step % 8 ∧ u.mem = s.mem)) ∧
  (∀ (ch : Fin 2) (s : State), (s.memc.get ch).filling = true → Gives (.ready ch) s fun u =>
    u.st (Reg.MEMCn_STATUS_READY.pg ch) = 1 ∧ (u.memc.get ch).filling = false ∧ (u.memc.get ch).scrub = 0 ∧ Raised u (0x088 + ch) 2) ∧
  (∀ (q : Requester) (size : Bool) (w : Word) (s : State) (i : Nat), s.reaches q 0x088 = true → i = s.winIndex q 0x088 % 8 →
    (s.mode ≤ 1 → Gives (.regionWrite q size w) s fun u =>
      Amap.get u.regionShadow i (0, 0) = (if size then ((Amap.get s.regionShadow i (0, 0)).1, w.toNat % 2 ^ 18)
        else (w.toNat % 2 ^ 18, (Amap.get s.regionShadow i (0, 0)).2)) ∧ u.regions = s.regions) ∧
    (1 < s.mode → Gives (.regionWrite q size w) s fun u => u.regionShadow = s.regionShadow ∧ Raised u 0x088 6))

/-- R355 to R367: requests, scheduling, refresh, scrub and errors. A write is what every later read returns and changes no other byte; the choice that R355 gives is issued; errors
within one unit of a code word are counted as corrected, errors in two symbols of different units poison their code word. States completion of: memcRequest, memcIssue, refreshDue, agePromote, scrubUrgent, scrubRead, zqShort, readData. The model's readings here: log entries 62, 63, 64. -/
def Obligations.MemoryServesRequests : Prop :=
  (∀ (t : Time) (rd : MemReader) (w : Bool) (ra : Nat) (data : List Byte) (s : State) (ch : Fin 2), ch.val = (chanOf s ra).1 →
    ra < fittedBytes s → (s.memc.get ch).queue.length < 64 → Gives (.memcRequest t rd w ra data) s fun u =>
      (u.memc.get ch).queue = (s.memc.get ch).queue ++
        [{ at_ := t, rd := rd, write := w, merge := w && (ra % 16 != 0 || data.length % 16 != 0), ra := ra,
            len := if w then min 64 data.length else 64 }] ∧
      (w = true → memRead u ra (data.take 64).length = data.take 64) ∧
      (∀ a, (w = false ∨ a < ra ∨ ra + (data.take 64).length ≤ a) → memByte u.mem a = memByte s.mem a)) ∧
  (∀ (ch : Fin 2) (t : Time) (s v : State), v = advance t s → ((s.memc.get ch).queue.filter (·.write)).length ≤ 32 →
    (∀ r, memPick v ch = .request r → rowHit v ch r = true → Gives (.memcIssue ch t) s fun u =>
      (u.memc.get ch).queue = (s.memc.get ch).queue.erase r ∧
      ((r.write = false ∨ r.merge = true) → (u.memc.get ch).issued = (s.memc.get ch).issued ++ [r])) ∧
    (∀ r, memPick v ch = .request r → ((s.memc.get ch).bank (reqBank v ch r).1).row = none → Gives (.memcIssue ch t) s fun u =>
      (u.memc.get ch).queue = (s.memc.get ch).queue ∧ ((u.memc.get ch).bank (reqBank v ch r).1).row = some (reqBank v ch r).2.1 ∧
      u.free = s.free + 1) ∧
    (∀ k b, memPick v ch = .refresh k b → k < 2 → Gives (.memcIssue ch t) s fun u =>
      (u.memc.get ch).owed.get (Fin.ofNat 2 k) = (s.memc.get ch).owed.get (Fin.ofNat 2 k) - 1 ∧
      u.out = .dram ch "REF" k 0 0 :: .dram ch "PREA" k 0 0 :: s.out ∧ (b = true → Counts (Reg.MEMCn_REF_FORCED.pg ch) s u))) ∧
  (∀ (ch rank : Fin 2) (s : State), Gives (.refreshDue ch rank) s fun u =>
    (u.memc.get ch).owed.get rank = (s.memc.get ch).owed.get rank + 1 ∧ u.status = s.status ∧ u.mem = s.mem) ∧
  (∀ (ch : Fin 2) (t : Time) (s : State),
    (∀ v, promote ch (fun r => (r.rd != .scrub || r.write) && decide (s.lv (Reg.MEMCn_SCHED_AGE_LIMIT.pg ch) * 128 < (tDiff t r.at_).toNat)) (advance t s) = some v →
      Gives (.agePromote ch t) s fun u => u = v ∧ Counts (Reg.MEMCn_PROMOTED.pg ch) s u ∧ u.mem = s.mem) ∧
    (∀ v, promote ch (fun r => r.rd == .scrub && !r.write && decide (s.lv (Reg.MEMCn_SCRUB_AGE.pg ch) * 128000 < (tDiff t r.at_).toNat)) (advance t s) = some v →
      Gives (.scrubUrgent ch t) s fun u => u.memc = v.memc ∧ Counts (Reg.MEMCn_SCRUB_URGENT.pg ch) s u) ∧
    (s.st (Reg.MEMCn_STATUS_READY.pg ch) ≠ 0 → (s.memc.get ch).queue.length < 64 → Gives (.scrubRead ch t) s fun u =>
      (u.memc.get ch).queue = (s.memc.get ch).queue ++
        [{ at_ := t, rd := .scrub, write := false, ra := raOf s ch (s.memc.get ch).scrub }] ∧
      (u.memc.get ch).scrub = (if chanMb s ch * 2 ^ 20 ≤ (s.memc.get ch).scrub + 64 then 0 else (s.memc.get ch).scrub + 64)) ∧
    (s.mode = 3 → Gives (.zqShort ch) s fun u => u.out = .dram ch "ZQCS" 0 0 0 :: s.out ∧ u.memc = s.memc)) ∧
  (∀ (ch : Fin 2) (errs : List BurstError) (r : MemReq) (rest : List MemReq) (s : State), (s.memc.get ch).issued = r :: rest → r.merge = false →
    ((∀ j, j < 4 → badSymbols errs j = []) → Gives (.readData ch errs) s fun u =>
      (u.memc.get ch).issued = rest ∧ u.status = s.status ∧ u.poison = s.poison ∧ u.mem = s.mem) ∧
    ∀ j, j < 4 → (∀ i, i < 4 → i ≠ j → badSymbols errs i = []) →
      (∀ k, unitsOf (badSymbols errs j) = [k] → Gives (.readData ch errs) s fun u => (u.memc.get ch).issued = rest ∧ Counts (Reg.MEMCn_CE.pg ch) s u ∧
        Raised u (0x088 + ch) 0 ∧ u.st (Reg.MEMCn_ERR_LAST_UE.pg ch) = 0 ∧ u.st (Reg.MEMCn_ERR_LAST_UNIT.pg ch) = k % 32 ∧
        u.st (Reg.MEMCn_ERR_ADDR_LO.pg ch) = (r.ra / 64 * 64 + 16 * j) % 2 ^ 32 ∧ u.poison = s.poison ∧ u.mem = s.mem) ∧
      ((badSymbols errs j).length = 2 → (unitsOf (badSymbols errs j)).length = 2 → Gives (.readData ch errs) s fun u =>
        (u.memc.get ch).issued = rest ∧ Counts (Reg.MEMCn_UE.pg ch) s u ∧ Raised u (0x088 + ch) 1 ∧ u.st (Reg.MEMCn_ERR_LAST_UE.pg ch) = 1 ∧
        Amap.find (r.ra / 64 * 4 + j) u.poison = some true ∧ u.mem = s.mem))

/-! ### subscribers -/

/-- A control message of type `typ` is served: the stewards run their whole code, and an Ethernet message needs no authentication and repeats no request answered in the last 10 s. -/
def Sys2Proof.Claims.Served (t : Time) (c : Ctl) (typ : Nat) (s : State) : Prop :=
  s.st Reg.MGMT_BOOT_STATUS_RESIDENT = 0 ∧
  (∀ p a n, c.path = .eth p a n → s.lv Reg.STRM_CFG_AUTH_REQUIRE = 0 ∧ c.auth = none ∧ storedReply s t c typ = none)

/-- An answer goes back where the message came from: into the mailbox, or as a datagram queued on the port. -/
def Sys2Proof.Claims.Answered (c : Ctl) (s u : State) : Prop :=
  (∀ f, c.path = .mailbox f → ∃ a, (u.mb f).answer = some a) ∧
  (∀ p a n, c.path = .eth p a n → ∃ l, (u.port p).stew = (s.port p).stew ++ [.reply a n l])

/-- R381 to R384, R389: leases. HELLO and STATUS are answered; RENEW grants what is asked up to LEASE_MAX from now on; UNSUBSCRIBE and an expired lease close the entry, which becomes FREE when its records are complete, its generation kept. R379, R380, R382, R383, R385: admission. A SUBSCRIBE that passes every check takes the lowest FREE entry with the lease granted, in JOINING; one that fails is answered with the reason, counted and raised, and changes no entry. A reset that a join holdoff kept back is written when it ends. States completion of: hello, status, renew, unsubscribe, leaseExpiry, entryFree, subscribe, joinHoldoffEnd. The model's readings here: log entries 65, 66, 67. -/
def Obligations.LeasesAndAdmission : Prop :=
  ((∀ (t : Time) (c : Ctl) (s : State),
    (Served t c 1 s → Gives (.hello t c) s fun u => Answered c s u ∧
      ∀ f, c.path = .mailbox f → (u.mb f).answer = some (Answer.mk 0 0 c.token.toNat (leBytes 1 1 ++
        leBytes 1 (s.lv Reg.STRM_CFG_AUTH_REQUIRE) ++ leBytes 2 (freeSubs s) ++ leBytes 2 (s.lv Reg.STRM_LEASE_MAX) ++ leBytes 2 0 ++
        leBytes 8 t.toNat))) ∧
    (Served t c 5 s → Gives (.status t c) s fun u => Answered c s u ∧
      ∀ i, tokenEntry s c = some i → (u.sub i).expiry = t + BitVec.ofNat 64 ((s.sub i).granted * duPerS) ∧ (u.sub i).st = (s.sub i).st) ∧
    (∀ n i, Served t c 3 s → tokenEntry s c = some i → n ≠ 0 → Gives (.renew t c n) s fun u => Answered c s u ∧
      (u.sub i).granted = min n (s.lv Reg.STRM_LEASE_MAX) ∧ (u.sub i).expiry = t + BitVec.ofNat 64 ((u.sub i).granted * duPerS)) ∧
    (∀ n, Served t c 3 s → tokenEntry s c = none → Gives (.renew t c n) s fun u => Answered c s u ∧ u.strm.subs = s.strm.subs) ∧
    (∀ i, Served t c 4 s → tokenEntry s c = some i → Gives (.unsubscribe t c) s fun u => Answered c s u ∧ (u.sub i).st = 3 ∧
      (u.sub i).gen = (s.sub i).gen)) ∧
  (∀ (t : Time) (i : Nat) (s : State), s.mode ≠ 5 → ((s.sub i).st = 1 ∨ (s.sub i).st = 2) →
    (0 ≤ tDiff t (s.sub i).expiry → Gives (.leaseExpiry t i) s fun u =>
      (u.sub i).st = 3 ∧ Counts Reg.STRM_EXPIRED s u ∧ Raised u 0x090 2) ∧
    (tDiff t (s.sub i).expiry < 0 → Gives (.leaseExpiry t i) s fun u => u = advance t s)) ∧
  (∀ (i : Nat) (s : State), (s.sub i).st = 3 →
    ((s.sub i).cur = none → Gives (.entryFree i) s fun u => u.sub i = { gen := (s.sub i).gen }) ∧
    ((s.sub i).cur ≠ none → Gives (.entryFree i) s fun u => u = s))) ∧
  ((∀ (t : Time) (c : Ctl) (b : SubBody) (s : State) (f : Func), c.path = .mailbox f → Served t c 2 s →
    (∀ r, admission (advance t s) c b = some r → Gives (.subscribe t c b) s fun u =>
      u.st Reg.STRM_REFUSED = (s.st Reg.STRM_REFUSED + 1) % 2 ^ 32 ∧ u.st Reg.STRM_LAST_REFUSE_REASON = r.reason % 256 ∧
      u.st Reg.STRM_LAST_REFUSE_PATH = 2 ∧ Raised u 0x090 0 ∧ u.strm.streams = s.strm.streams ∧ u.cmp = s.cmp ∧
      (u.mb f).answer = some { token := c.token.toNat, body := subReply r.reason r.index r.retry 0 r.avail [] }) ∧
    (∀ i, admission (advance t s) c b = none → tokenEntry s c = none → i = freeEntryIndex s → (s.sub i).sels = [] →
      Gives (.subscribe t c b) s fun u =>
        (u.sub i).st = 1 ∧ (u.sub i).gen = ((s.sub i).gen + 1) % 2 ^ 16 ∧ (u.sub i).path = c.path ∧ (u.sub i).body = b ∧
        (u.sub i).granted = min b.leaseS (s.lv Reg.STRM_LEASE_MAX) ∧ (u.sub i).expiry = t + BitVec.ofNat 64 ((u.sub i).granted * duPerS) ∧
        (u.sub i).sels.length = b.sels.length ∧ (∀ x ∈ (u.sub i).sels, x.wait = true ∧ x.todo = []) ∧
        u.st (Reg.DMACHn_STATUS_BOUND.pg (subChan f b)) = 1 ∧ ∃ a, (u.mb f).answer = some a ∧ a.token = (u.sub i).gen * 2 ^ 16 + i)) ∧
  (∀ (t : Time) (sid : Nat) (x : Stream) (s : State), s.stream sid = some x → x.resetDue = true →
    Gives (.joinHoldoffEnd t sid) s fun u => (u.ctx x.slot).resetPending = true ∧
      ∃ y, u.stream sid = some y ∧ y.resetDue = false ∧ y.sel = x.sel))

/-! ### Ethernet and PTP -/

/-- R15, R393, R397 to R400: a port's frames. A record becomes its datagrams, or is dropped where an SRAM error poisons it; the port sends PTP event messages first, then control replies, then data, and counts each; a received frame is
answered, counted or dropped by its protocol. States completion of: data, ethTxFrame, ethRxFrame. The model's readings here: log entry 69. -/
def Obligations.PortsSendAndReceive : Prop :=
  (∀ (i : Nat) (e : Sram) (s : State) (p : Fin 2) (a n k m : Nat) (r : ChainRec), (s.sub i).path = .eth p a n → flowLead s i = i → linked s p = true →
    (s.sub i).cur = none → nextRec s i = some (k, m, r) →
    (e.lost = false → recPoisoned s (((s.stream ((((s.sub i).sels[k]?).map (·.sid)).getD 0)).map (·.slot)).getD 0) r = false →
      Gives (.data i e) s fun u => (u.sub i).cur = some (k, 0) ∧ ∃ b, flowOf u p i =
        dataGrams (s.sub i).body.fragBytes ((((s.sub i).sels[k]?).map (·.sid)).getD 0) r.seq k s.time b) ∧
    (e.lost = true → Gives (.data i e) s fun u => flowOf u p i = flowOf s p i ∧ Counts Reg.SYS_SRAM_UE s u)) ∧
  (∀ (p : Fin 2) (t : Time) (s : State), linked s p = true →
    (∀ m l, (s.port p).events = m :: l → Gives (.ethTxFrame p t) s fun u =>
      u.out = .ptp p m (s.on Reg.PTP_CFG_TRANSPORT) (wireOf s p false) :: s.out ∧ (u.port p).events = l ∧ (u.port p).stew = (s.port p).stew ∧ Counts (Reg.ETHn_TX_FRAMES.pg p) s u) ∧
    (∀ a n b l, (s.port p).events = [] → (s.port p).stew = .reply a n b :: l → Gives (.ethTxFrame p t) s fun u =>
      u.out = .frame p a n b 47310 (wireOf s p false) :: s.out ∧ (u.port p).stew = l ∧ (u.port p).flows = (s.port p).flows ∧ Counts (Reg.ETHn_TX_FRAMES.pg p) s u) ∧
    (∀ i d l, (s.port p).events = [] → (s.port p).stew = [] → agedFlow s p t = some i → flowOf s p i = d :: l →
      Gives (.ethTxFrame p t) s fun u => (∃ a n m, u.out = .frame p a n d.bytes 47311 (wireOf s p m) :: s.out) ∧ flowOf u p i = l ∧
        Counts (Reg.ETHn_TX_FRAMES.pg p) s u ∧ Counts (Reg.ETHn_TX_PROMOTED.pg p) s u)) ∧
  (∀ (p : Fin 2) (t : Time) (s : State), linked s p = true →
    Gives (.ethRxFrame p t .pause) s (fun u => Counts (Reg.ETHn_PAUSE_RX.pg p) s u ∧ u.strm = s.strm) ∧
    Gives (.ethRxFrame p t .badFcs) s (fun u => Counts (Reg.ETHn_RX_FCS_ERR.pg p) s u ∧ u.strm = s.strm) ∧
    Gives (.ethRxFrame p t .fecUncorr) s (fun u => Counts (Reg.ETHn_FEC_UNCORR.pg p) s u ∧ Raised u (0x091 + p) 3) ∧
    Gives (.ethRxFrame p t .other) s (fun u => Counts (Reg.ETHn_RX_DROPPED.pg p) s u ∧ u.strm = s.strm) ∧
    (familyBound s p false = true → Gives (.ethRxFrame p t .arp) s fun u => (u.port p).stew = (s.port p).stew ++ [.answer .arp]) ∧
    (∀ a n l, s.st Reg.MGMT_BOOT_STATUS_RESIDENT = 0 → familyBound s p (!isV4 a) = true → l.length < 16 →
      Gives (.ethRxFrame p t (.udp a n l)) s fun u => Counts Reg.STRM_BAD_MSGS s u ∧ u.strm = s.strm) ∧
    (∀ a n l, familyBound s p (!isV4 a) = false → Gives (.ethRxFrame p t (.udp a n l)) s fun u =>
      Counts (Reg.ETHn_RX_DROPPED.pg p) s u ∧ u.strm = s.strm)) ∧
  (∀ (p : Fin 2) (t : Time) (f : RxFrame) (s : State), linked s p = false → Gives (.ethRxFrame p t f) s fun u => u = advance t s)

/-- R395, R396, R398, R401, R402, R404: links, addresses and PTP. A link comes up where the port and its page are enabled, its loss is counted; an address is bound or lost; a write of CFG drops the link, and releases SFPn_TXDIS
where EN is 1 (R566); PTP takes
its measurement, steps from 1 ms on, queues its messages and takes over when announcements cease. States completion of: linkUp, linkDown, addrBound, ethCfgWrite, ptpEventMessage, ptpMessageSend, announceTimeout. The model's readings here: log entries 69, 70. -/
def Obligations.LinksAddressesAndPtp : Prop :=
  (∀ (p : Fin 2) (s : State), s.lv (Reg.ETHn_CFG_EN.pg p) ≠ 0 → s.lv (pageEnable (0x091 + p)) ≠ 0 → s.st (Reg.ETHn_STATUS_LINK.pg p) = 0 →
    Gives (.linkUp p) s fun u => u.st (Reg.ETHn_STATUS_LINK.pg p) = 1 ∧ Raised u (0x091 + p) 0 ∧ u.live = s.live) ∧
  (∀ (p : Fin 2) (s : State), s.st (Reg.ETHn_STATUS_LINK.pg p) ≠ 0 → Gives (.linkDown p) s fun u =>
    u.st (Reg.ETHn_STATUS_LINK.pg p) = 0 ∧ Counts (Reg.ETHn_LINK_DOWNS.pg p) s u ∧ Raised u (0x091 + p) 1 ∧ u.live = s.live) ∧
  (∀ (p : Fin 2) (v6 : Bool) (s : State), familyOn s p v6 = false → Gives (.addrBound p v6 true) s fun u => u = s) ∧
  (∀ (p : Fin 2) (b : Bool) (s : State), (b = true → familyOn s p false = true ∧ familyOn s p true = true) →
    Gives (.addrBound p false b) s (fun u => u.st (Reg.ETHn_STATUS_V4_BOUND.pg p) = bit b ∧ Raised u (0x091 + p) 2) ∧
    Gives (.addrBound p true b) s (fun u => u.st (Reg.ETHn_STATUS_V6_BOUND.pg p) = bit b ∧ Raised u (0x091 + p) 2)) ∧
  (∀ (q : Requester) (p : Fin 2) (w : Word) (s : State), s.reaches q (0x091 + p) = true →
    (s.st (Reg.ETHn_STATUS_LINK.pg p) ≠ 0 → Gives (.ethCfgWrite q p 0x040 w) s fun u =>
      u.st (Reg.ETHn_STATUS_LINK.pg p) = 0 ∧ u.lv (Reg.ETHn_CFG_EN.pg p) = w.toNat % 2) ∧
    (s.mode ≠ 0 → Gives (.ethCfgWrite q p 0x040 w) s fun u => (u.port p).txdis = (w.toNat % 2 == 0)) ∧
    Gives (.ethCfgWrite q p 0x044 w) s (fun u => u.lv (Reg.ETHn_MTU.pg p) = w.toNat % 2 ^ 14 ∧ u.status = s.status)) ∧
  (∀ (m : PtpMsg) (t : Time) (o d : Int) (s : State), s.lv Reg.PTP_CFG_EN ≠ 0 → (m = .sync ∨ m = .delayReq) →
    Gives (.ptpEventMessage m t o d) s (fun u => u.stS Reg.PTP_OFFSET = satS 32 (ptpOffset s o)) ∧
    (s.st Reg.PTP_STATUS_STATE = 9 → s.lv Reg.PTP_CFG_DISCIPLINE ≠ 0 → 256000000 ≤ (ptpOffset s o).natAbs → Gives (.ptpEventMessage m t o d) s fun u =>
      Counts Reg.PTP_STEPS s u ∧ Raised u 0x093 2) ∧
    Gives (.ptpMessageSend m t) s (fun u => (u.port (Fin.ofNat 2 (s.lv Reg.PTP_CFG_PORT))).events =
      (s.port (Fin.ofNat 2 (s.lv Reg.PTP_CFG_PORT))).events ++ [m])) ∧
  (∀ s : State, s.lv Reg.PTP_CFG_EN ≠ 0 → Gives .announceTimeout s fun u =>
    u.st Reg.PTP_STATUS_STATE = (if s.lv Reg.PTP_CFG_ROLE = 2 then 4 else 6) ∧ Counts Reg.PTP_ANNOUNCE_TIMEOUTS s u ∧ Raised u 0x093 1)

/-! ### PCIe and DMA -/

/-- R414, R415, R417, R422, R431: the registers of a channel. GO starts a STOPPED channel that is legal and clears its counters; ABORT ends a waiting or halted channel at once, a moving one when its
burst ends; DB reads NEXT again; RP moves only forward; everything else is ignored, counted and raised. States completion of: dmaGo, dmaAbort, db, rpWrite, dmaCfgWrite, abortDone. The model's readings here: log entry 74. -/
def Obligations.ChannelsStartAndStop : Prop :=
  ∀ (q : Requester) (ch : Chan) (s : State),
    (s.reaches q (0x0C0 + ch.val) = true →
      (s.chanState ch = 0 → dmaLegal s ch = true → s.lv (Reg.DMACHn_CFG_MODE.pg ch) ≠ 0 → Gives (.dmaGo q ch) s fun u =>
        u.chanState ch = 1 ∧ u.st (Reg.DMACHn_WP.pg ch) = 0 ∧ u.lv (Reg.DMACHn_RP.pg ch) = 0 ∧ u.st (Reg.DMACHn_DONE.pg ch) = 0 ∧
        u.st (Reg.DMACHn_HELD.pg ch) = s.st (Reg.DMACHn_HELD.pg ch) ∧ u.st (Reg.DMACHn_STATUS_ERR.pg ch) = 0 ∧ u.mem = s.mem ∧
        u.out = (if s.lv (Reg.DMACHn_CFG_MODE.pg ch) = 1 then s.out
          else .hostRead (chanFunc ch) (chan64 s Reg.DMACHn_BASE_LO Reg.DMACHn_BASE_HI ch) 32 :: s.out)) ∧
      ((s.chanState ch ≠ 0 ∨ dmaLegal s ch = false) → Gives (.dmaGo q ch) s fun u =>
        u.chanState ch = s.chanState ch ∧ Counts (Reg.DMACHn_REJECTS.pg ch) s u ∧ Raised u (0x0C0 + ch) 3 ∧ u.live = s.live) ∧
      (s.asleep (ch.val / 2) = false → (s.chanState ch = 3 ∨ (s.chanState ch = 1 ∧ chanWaits s ch = true)) →
        Gives (.dmaAbort q ch) s fun u => u.chanState ch = 0 ∧ Raised u (0x0C0 + ch) 0 ∧ Raised u (0x0C0 + ch) 1 ∧
          u.st (Reg.DMACHn_HELD.pg ch) = 0) ∧
      (s.chanState ch = 1 → chanWaits s ch = false → Gives (.dmaAbort q ch) s fun u => u.chanState ch = 2 ∧ u.out = s.out) ∧
      (s.chanState ch = 1 → s.st (Reg.DMACHn_STATUS_WAITING_DESC.pg ch) ≠ 0 → (s.chan ch).fetch = false → Gives (.db q ch) s fun u =>
        u.out = .hostRead (chanFunc ch) (s.st2 (Reg.DMACHn_DESC_LO.pg ch) (Reg.DMACHn_DESC_HI.pg ch) + 16) 8 :: s.out ∧
        (u.chan ch).fetch = true ∧ u.chanState ch = 1) ∧
      (∀ (w : Word) (back : Nat → Nat), (∀ v, back v = (s.st (Reg.DMACHn_WP.pg ch) + 2 ^ 32 - v) % 2 ^ 32) →
        (back w.toNat ≤ back (s.lv (Reg.DMACHn_RP.pg ch)) → Gives (.rpWrite q ch w) s fun u =>
          u.lv (Reg.DMACHn_RP.pg ch) = w.toNat ∧ (back w.toNat < 2 ^ s.lv (Reg.DMACHn_CFG_RING_K.pg ch) →
            u.st (Reg.DMACHn_STATUS_WAITING_RP.pg ch) = 0)) ∧
        (back (s.lv (Reg.DMACHn_RP.pg ch)) < back w.toNat → Gives (.rpWrite q ch w) s fun u =>
          u.live = s.live ∧ Counts (Reg.DMACHn_REJECTS.pg ch) s u ∧ Raised u (0x0C0 + ch) 3)) ∧
      (∀ (w : Word) (off : Nat),
        Gives (.dmaCfgWrite q ch 0x054 w) s (fun u =>
          u.lv (Reg.DMACHn_MOD_COUNT.pg ch) = w.toNat % 2 ^ 11 ∧ u.lv (Reg.DMACHn_MOD_TIME.pg ch) = w.toNat / 2 ^ 16 ∧ u.status = s.status) ∧
        (s.chanState ch = 0 → Gives (.dmaCfgWrite q ch 0x040 w) s fun u =>
          u.lv (Reg.DMACHn_CFG_MODE.pg ch) = w.toNat % 4 ∧ u.lv (Reg.DMACHn_CFG_DIR.pg ch) = w.toNat / 4 % 2 ∧
          u.lv (Reg.DMACHn_CFG_RING_K.pg ch) = w.toNat / 16 % 32 ∧ u.status = s.status) ∧
        (s.chanState ch ≠ 0 → off ∈ [0x040, 0x044, 0x048, 0x04C, 0x050, 0x060, 0x064] → Gives (.dmaCfgWrite q ch off w) s fun u =>
          u.live = s.live ∧ Counts (Reg.DMACHn_REJECTS.pg ch) s u ∧ Raised u (0x0C0 + ch) 3))) ∧
    (s.mode ≠ 5 → s.chanState ch = 2 →
      (s.asleep (ch.val / 2) = false → Gives (.abortDone ch) s fun u =>
        u.chanState ch = 0 ∧ Raised u (0x0C0 + ch) 0 ∧ Raised u (0x0C0 + ch) 1 ∧ u.st (Reg.DMACHn_HELD.pg ch) = 0) ∧
      (s.asleep (ch.val / 2) = true → Gives (.abortDone ch) s fun u => (u.chan ch).abortWb = true ∧ u.status = s.status))

/-- R416 to R418, R420 to R425, R430: what a running channel moves. A descriptor that is read becomes current or halts the channel with its error; a failed or timed-out read halts it; a COPY moves its bytes and
advances; a record that fits in the ring is written whole, counted and released; held completions go out with the moderation time. States completion of: descFetch, completionTimeout, copyTransfer, dmaRecordWrite, modTimeout. The model's readings here: log entries 74, 76. -/
def Obligations.DescriptorsRecordsAndCopies : Prop :=
  ∀ (ch : Chan) (s : State), s.mode ≠ 5 → s.chanState ch = 1 →
    ((s.chan ch).fetch = true →
      (∀ l, (s.chan ch).reread = false → (parseDesc l).len ≠ 0 → (parseDesc l).ctl < 4 → leNat ((l.drop 0x18).take 8) = 0 →
        s.st2 (Reg.DMACHn_DESC_LO.pg ch) (Reg.DMACHn_DESC_HI.pg ch) % 32 = 0 → s.lv (Reg.DMACHn_CFG_MODE.pg ch) ≠ 3 →
        Gives (.descFetch ch (.ok l)) s fun u => (u.chan ch).desc = some (parseDesc l) ∧ (u.chan ch).off = 0 ∧
          (u.chan ch).fetch = false ∧ u.chanState ch = 1 ∧ u.st (Reg.DMACHn_STATUS_WAITING_DESC.pg ch) = 0) ∧
      (∀ l, (s.chan ch).reread = false → ((parseDesc l).len = 0 ∨ 4 ≤ (parseDesc l).ctl) → Gives (.descFetch ch (.ok l)) s fun u =>
        u.chanState ch = 3 ∧ u.st (Reg.DMACHn_STATUS_ERR.pg ch) = 3 ∧ Raised u (0x0C0 + ch) 2) ∧
      Gives (.descFetch ch .failed) s (fun u => u.chanState ch = 3 ∧ u.st (Reg.DMACHn_STATUS_ERR.pg ch) = 1 ∧ Raised u (0x0C0 + ch) 2) ∧
      Gives (.descFetch ch .poisoned) s (fun u => u.chanState ch = 3 ∧ u.st (Reg.DMACHn_STATUS_ERR.pg ch) = 2 ∧ Raised u (0x0C0 + ch) 2) ∧
      Gives (.completionTimeout ch) s (fun u => u.chanState ch = 3 ∧ u.st (Reg.DMACHn_STATUS_ERR.pg ch) = 1 ∧ Raised u (0x0C0 + ch) 2)) ∧
    (∀ d, (s.chan ch).fetch = false → (s.chan ch).desc = some d → (s.chan ch).off ≠ d.len → s.lv (Reg.DMACHn_CFG_MODE.pg ch) = 3 →
      s.asleep (ch.val / 2) = false →
      (s.lv (Reg.DMACHn_CFG_DIR.pg ch) ≠ 0 → ∀ l, Gives (.copyTransfer ch (.ok l)) s fun u =>
        u.mem = (memWrite (s.chan ch).copyRa (l.take d.len) s).mem ∧ Counts (Reg.DMACHn_DONE.pg ch) s u ∧
        u.st (Reg.DMACHn_WP.pg ch) = (s.st (Reg.DMACHn_WP.pg ch) + d.len) % 2 ^ 32 ∧ (d.ctl / 2 % 2 = 1 → u.chanState ch = 0)) ∧
      (s.lv (Reg.DMACHn_CFG_DIR.pg ch) = 0 → ∀ c, Gives (.copyTransfer ch c) s fun u =>
        u.mem = s.mem ∧ (∀ x ∈ tlps (areaRead (s.chan ch).copyRa d.len s).1.length d.addr (areaRead (s.chan ch).copyRa d.len s).1,
          .hostWrite (chanFunc ch) x.1 x.2 (poisoned s ((s.chan ch).copyRa + (x.1 - d.addr)) x.2.length) (s.on Reg.DMA_CFG_RO_EN) ∈ u.out) ∧
        Counts (Reg.DMACHn_DONE.pg ch) s u)) ∧
    (∀ (t : Time) (e : Sram) (i k : Nat) (r : ChainRec) (b : List Byte) (w : Nat), e.lost = false → s.lv (Reg.DMACHn_CFG_MODE.pg ch) = 1 →
      s.asleep (chanFunc ch).val = false → chanSub s ch = some i → nextRec s i = some (k, 0, r) → (s.sub i).cur = none →
      recPoisoned s (((s.stream ((((s.sub i).sels[k]?).map (·.sid)).getD 0)).map (·.slot)).getD 0) r = false →
      b = carried (beginRec i k s) i k r → b ≠ [] → w = s.st (Reg.DMACHn_WP.pg ch) →
      w % 2 ^ s.lv (Reg.DMACHn_CFG_RING_K.pg ch) + b.length ≤ 2 ^ s.lv (Reg.DMACHn_CFG_RING_K.pg ch) →
      (w + 2 ^ 32 - s.lv (Reg.DMACHn_RP.pg ch)) % 2 ^ 32 + b.length ≤ 2 ^ s.lv (Reg.DMACHn_CFG_RING_K.pg ch) →
      Gives (.dmaRecordWrite ch t e) s fun u =>
        u.st (Reg.DMACHn_WP.pg ch) = (w + b.length) % 2 ^ 32 ∧ Counts (Reg.DMACHn_DONE.pg ch) s u ∧ u.mem = s.mem ∧
        u.st Reg.DMA_STATUS_L2_KEEP = 0 ∧ (u.sub i).cur = none ∧
        ∀ x ∈ tlps b.length (chan64 s Reg.DMACHn_BASE_LO Reg.DMACHn_BASE_HI ch + w % 2 ^ s.lv (Reg.DMACHn_CFG_RING_K.pg ch)) b,
          .hostWrite (chanFunc ch) x.1 x.2 false (s.on Reg.DMA_CFG_RO_EN) ∈ u.out) ∧
    (s.st (Reg.DMACHn_HELD.pg ch) ≠ 0 → s.lv (Reg.DMACHn_MOD_TIME.pg ch) ≠ 0 → Gives (.modTimeout ch) s fun u =>
      u.st (Reg.DMACHn_HELD.pg ch) = 0 ∧ Raised u (0x0C0 + ch) 0 ∧ u.mem = s.mem)

/-- R410 to R412, R432, R433, R437: the record-memory window, function resets, MSI-X, sleep and wake, and the link. States completion of: bar2Access, flr, pcieReset, msixUnmask, d3hotEntry, pme, d0Return, l2Entry, perstNRelease, pcieLinkUp. The model's readings here: log entries 73, 75. -/
def Obligations.WindowResetsSleepAndLink : Prop :=
  (∀ (x len : Nat) (l : List Byte) (s : State) (a : Nat), a = s.lv Reg.DMA_WIN_BASE * 2 ^ 20 + x →
    (∀ r, (r = regionBytes s 3 ∨ r = regionBytes s 6) → r.1 ≤ a → a + l.length ≤ r.1 + r.2 → a + l.length ≤ fittedBytes s →
      Gives (.bar2Access true x len l) s fun u => u.mem = (memWrite a l s).mem ∧ u.out = s.out) ∧
    (fittedBytes s < a + l.length → Gives (.bar2Access true x len l) s fun u =>
      u.mem = s.mem ∧ Counts Reg.DMA_WIN_REJECTS s u ∧ Raised u 0x098 3) ∧
    (fittedBytes s < a + len → Gives (.bar2Access false x len l) s fun u => u = s.emit (.completion none false)) ∧
    (a + len ≤ fittedBytes s → (∀ k < len, staged s (a + k) = false) → Gives (.bar2Access false x len l) s fun u =>
      u = s.emit (.completion (some (memRead s a len)) (poisoned s a len)))) ∧
  (∀ (f : Func) (bme : Bool) (s : State), Gives (.flr f bme) s fun u =>
    u.chanState (2 * f) = 0 ∧ u.chanState (2 * f + 1) = 0 ∧ u.mem = s.mem ∧ u.live = s.live ∧
    (bme = false → ∀ e : Fin 64, Amap.find (64 * f + e) u.pcie.unmasked = none ∧ Amap.find (64 * f + e) u.pcie.pba = none)) ∧
  (∀ (k : PcieResetKind) (s : State),
    (s.pcie.l2 = false → Gives (.pcieReset k) s fun u => (∀ ch : Chan, u.chanState ch = 0) ∧ u.st Reg.DMA_STATUS_LINK_UP = 0 ∧ u.mem = s.mem) ∧
    (s.pcie.l2 = true → Gives (.pcieReset k) s fun u => (∀ ch : Chan, u.chanState ch = s.chanState ch) ∧
      u.st Reg.DMA_STATUS_LINK_UP = 0 ∧ u.pcie.unmasked = [] ∧ u.strm = s.strm)) ∧
  (∀ (f : Func) (e : Fin 64) (s : State),
    (s.mode ≠ 5 → s.asleep f = false → Amap.get s.pcie.pba (64 * f.val + e.val) false = true → Gives (.msixUnmask f e) s fun u =>
      u.out = .msix f e :: s.out ∧ Amap.find (64 * f.val + e.val) u.pcie.pba = none) ∧
    (Amap.get s.pcie.pba (64 * f.val + e.val) false = false → Gives (.msixUnmask f e) s fun u =>
      u.out = s.out ∧ Amap.find (64 * f.val + e.val) u.pcie.unmasked = some true)) ∧
  (∀ (f : Func) (s : State),
    Gives (.d3hotEntry f) s (fun u => f.val ∈ u.pcie.d3 ∧ u.status = s.status) ∧
    (heldItem s f = true → s.pcie.l2 = false → f.val ∈ s.pcie.d3 → Gives (.pme f) s fun u =>
      u.out = .pme f :: s.out ∧ Counts Reg.DMA_PME_SENT s u ∧ Raised u 0x098 0) ∧
    (heldItem s f = true → s.pcie.l2 = true → s.st Reg.DMA_STATUS_WAKE = 0 → Gives (.pme f) s fun u =>
      u.out = .wakeN true :: s.out ∧ u.st Reg.DMA_STATUS_WAKE = 1 ∧ Counts Reg.DMA_WAKES s u ∧ Raised u 0x098 1) ∧
    Gives (.d0Return f) s (fun u => f.val ∉ u.pcie.d3 ∧ u.pcie.l2 = s.pcie.l2)) ∧
  (∀ s : State,
    Gives .l2Entry s (fun u => u.pcie.l2 = true ∧ u.st Reg.DMA_STATUS_LSTATE = 2 ∧ u.st Reg.DMA_STATUS_L2_KEEP = 1 ∧
      u.st Reg.DMA_STATUS_LINK_UP = 0 ∧ ∀ ch : Chan, u.chanState ch = s.chanState ch) ∧
    (s.st Reg.DMA_STATUS_WAKE ≠ 0 → Gives .perstNRelease s fun u => u.out = .wakeN false :: s.out ∧ u.st Reg.DMA_STATUS_WAKE = 0)) ∧
  (∀ (v w : Nat) (s : State), Gives (.pcieLinkUp v w) s fun u =>
    u.st Reg.DMA_STATUS_LINK_UP = 1 ∧ u.st Reg.DMA_STATUS_SPEED = v % 8 ∧ u.st Reg.DMA_STATUS_WIDTH = w % 16 ∧
    u.st Reg.DMA_STATUS_LSTATE = 0 ∧ u.pcie.l2 = false)

/-! ### interrupt controller, stewards, mailboxes, firmware -/

/-- R439, R440, R446, R447, R449, R451: interrupts. A claim answers a deliverable source of the highest priority and pushes it; a completion pops the top of the writer's own stack and otherwise faults with the cause of
R447; software, private and configured sources are set by their writes; a source stranded at an offline target moves on. States completion of: icuClaim, icuComplete, icuSwSet, privSwSet, srcCfgWrite, stranded. -/
def Obligations.InterruptsAreClaimed : Prop :=
  (∀ (t : Fin 66) (s : State),
    (deliverable s t = [] → Gives (.icuClaim t) s fun u => u = s.answer 0x3FF) ∧
    (deliverable s t ≠ [] → Gives (.icuClaim t) s fun u => ∃ v p, (v, p) ∈ deliverable s t ∧ (∀ x ∈ deliverable s t, x.2 ≤ p) ∧
      u.req.data = BitVec.ofNat 32 v ∧ (u.tgt t).stack = (v, p) :: (s.tgt t).stack ∧ (v < 0x400 → Amap.find v u.icu.edges = none) ∧
      u.status = s.status)) ∧
  (∀ (t p : Fin 66) (v : BitVec 11) (s : State) (own : List Nat), own = (s.tgt t).stack.map (·.1) → v.toNat ≠ 0x3FF →
    (own.head? = some v.toNat → Gives (.icuComplete (some t) t v) s fun u =>
      (u.tgt t).stack = (s.tgt t).stack.drop 1 ∧ u.status = s.status ∧ Amap.find v.toNat u.icu.stranded = none) ∧
    (own.head? ≠ some v.toNat → v.toNat ∈ own → Gives (.icuComplete (some t) t v) s fun u => (u.tgt t).stack = (s.tgt t).stack ∧
      Counts Reg.ICU_FAULTS s u ∧ Counts (Reg.ICUTt_FAULTS.pg t) s u ∧ u.st Reg.ICU_FAULT_LAST_CAUSE = 0 ∧ Raised u 0x0A0 0) ∧
    (v.toNat ∉ own → claimer s v.toNat = none → Gives (.icuComplete (some t) t v) s fun u => u.icu = s.icu ∧
      Counts Reg.ICU_FAULTS s u ∧ u.st Reg.ICU_FAULT_LAST_CAUSE = 2 ∧ u.st Reg.ICU_FAULT_LAST_VALUE = v.toNat ∧ Raised u 0x0A0 0) ∧
    (t ≠ p → Gives (.icuComplete (some t) p v) s fun u => u.icu = s.icu ∧ Counts Reg.ICU_FAULTS s u ∧
      u.st Reg.ICU_FAULT_LAST_CAUSE = 1 ∧ u.st Reg.ICU_FAULT_LAST_TARGET = t.val ∧ Raised u 0x0A0 0) ∧
    Gives (.icuComplete none p v) s (fun u => u.icu = s.icu ∧ Counts Reg.ICU_FAULTS s u ∧
      u.st Reg.ICU_FAULT_LAST_CAUSE = 1 ∧ u.st Reg.ICU_FAULT_LAST_TARGET = 0x7F ∧ Raised u 0x0A0 0)) ∧
  (∀ (tg : Option (Fin 66)) (p : Fin 66) (s : State), Gives (.icuComplete tg p 0x3FF#11) s fun u => u = s) ∧
  (∀ (q : Requester) (w : Word) (t : Fin 66) (s : State),
    (s.reaches q 0x0A0 = true → 0x100 ≤ w.toNat % 1024 → w.toNat % 1024 < 0x300 → Gives (.icuSwSet q w) s fun u =>
      Amap.find (w.toNat % 1024) u.icu.edges = some true ∧ u.icu.targets = s.icu.targets ∧ u.status = s.status) ∧
    (s.reaches q (0x200 + t.val) = true → Gives (.privSwSet q t w) s fun u =>
      (u.tgt t).edges = (s.tgt t).edges ||| (w.toNat &&& 0xFFF0) ∧ (u.tgt t).stack = (s.tgt t).stack ∧ u.status = s.status) ∧
    (s.reaches q 0x0A0 = true → Gives (.srcCfgWrite q w) s fun u =>
      srcCfg u (s.winIndex q 0x0A0 % 1024) = w.toNat &&& 0xF7F7F ∧ u.icu.edges = s.icu.edges ∧ u.status = s.status)) ∧
  (∀ (i : Fin 1024) (s : State), srcPending s i = true → icuOnline s (srcAt s i) = false → Gives (.stranded i) s fun u =>
    srcAt u i = (if Amap.find i.val s.icu.stranded = none then srcFallback s i else if icuOnline s 0 = true then 0 else 1) ∧
    Counts Reg.ICU_STRANDED s u ∧ u.st Reg.ICU_STRAND_LAST_SOURCE = i.val ∧ u.st Reg.ICU_STRAND_LAST_FROM = srcAt s i % 128 ∧
    u.st Reg.ICU_STRAND_LAST_TO = srcAt u i % 128 ∧ Raised u 0x0A0 1)

/-- R439, R454, R455, R457 to R459, R470, R565: the steward cores, their timers, watchdogs and loads, and the pins. States completion of: stewardTimer, wdtService, wdtWarning, wdt, mcheck, stewardRestartDone, loadWindow, gpioEdge, uartReceive, twinLinkCommand. The model's readings here: log entries 80, 81. -/
def Obligations.StewardsRun : Prop :=
  (∀ (c : Fin 2) (t : Time) (s : State) (v : Time), Amap.find c.val s.stew.timers = some v →
    (tBefore t v = false → Gives (.stewardTimer c t) s fun u =>
      Amap.find c.val u.stew.timers = none ∧ (u.tgt c).edges = (s.tgt c).edges ||| 1) ∧
    (tBefore t v = true → Gives (.stewardTimer c t) s fun u => u = advance t s)) ∧
  (∀ (q : Requester) (c : Fin 2) (t : Time) (s : State), s.reaches q (0x200 + c.val) = true → Gives (.wdtService q c t) s fun u =>
    Amap.get u.stew.warned c.val false = false ∧ u.status = (advance t s).status) ∧
  (∀ (c : Fin 2) (s : State), s.st (stewUp c) ≠ 0 →
    Gives (.wdtWarning c) s (fun u => Amap.get u.stew.warned c.val false = true ∧ (u.tgt c).edges = (s.tgt c).edges ||| 2) ∧
    (Amap.get s.stew.warned c.val false = true → Gives (.wdt c) s fun u =>
      u.st (stewUp c) = 0 ∧ Counts Reg.MGMT_WDT_RESETS s u ∧ Raised u 0x0A8 16 ∧ (u.tgt c).stack = [] ∧
      Amap.get u.stew.warned c.val false = false ∧ u.live = s.live ∧ u.strm = s.strm ∧ u.mem = s.mem) ∧
    Gives (.mcheck c) s (fun u =>
      u.st (stewUp c) = 0 ∧ Counts Reg.MGMT_MCHECKS s u ∧ Raised u 0x0A8 17 ∧ (u.tgt c).stack = [] ∧
      (u.tgt (1 - c.val)).edges = (s.tgt (1 - c.val)).edges ||| 8 ∧ u.live = s.live ∧ u.strm = s.strm ∧ u.mem = s.mem)) ∧
  (∀ (c : Fin 2) (s : State), Gives (.stewardRestartDone c) s fun u => u.st (stewUp c) = 1 ∧ u.stew = s.stew ∧ u.icu = s.icu) ∧
  (∀ (a b : Nat) (s : State), Gives (.loadWindow a b) s fun u =>
    u.st Reg.SYS_STEWARD_LOAD_S0 = min a 1000 ∧ u.st Reg.SYS_STEWARD_LOAD_S1 = min b 1000 ∧
    u.st Reg.SYS_STEWARD_LOAD_SHEDDING = bit (decide (850 < (if s.st Reg.SYS_STEWARD_LOAD_S1_UP = 0 then a else b))) ∧
    (850 < a → Raised u 0x0A8 19)) ∧
  (∀ (p : Fin 16) (up : Bool) (s : State), Gives (.gpioEdge p up) s fun u =>
    u.st Reg.MGMT_GPIO_IN / 2 ^ p.val % 2 = bit up ∧
    (∀ k : Fin 16, k ≠ p → u.st Reg.MGMT_GPIO_IN / 2 ^ k.val % 2 = s.st Reg.MGMT_GPIO_IN / 2 ^ k.val % 2) ∧
    ((s.lv Reg.MGMT_GPIO_IRQ / 4 ^ p.val % 4 = 3 ∨ s.lv Reg.MGMT_GPIO_IRQ / 4 ^ p.val % 4 = (if up then 1 else 2)) → Raised u 0x0A8 p)) ∧
  (∀ (b : Byte) (s : State),
    ((s.mode ≠ 0 ∨ s.st Reg.SYS_STRAPS_BOOT_SEL ≠ 2) → Gives (.uartReceive b) s fun u => Amap.find 0x322 u.icu.edges = some true ∧ u.stew = s.stew) ∧
    (s.mode = 0 → s.st Reg.SYS_STRAPS_BOOT_SEL = 2 → Gives (.uartReceive b) s fun u => u.stew.uart = s.stew.uart ++ [b] ∧ u.icu = s.icu)) ∧
  (∀ s : State, Gives .twinLinkCommand s fun u => Amap.find 0x321 u.icu.edges = some true ∧ u.status = s.status)

/-- The command `cmd` of mailbox `f` is served: allowed to the function, in the code that runs, and not shed. -/
def Sys2Proof.Claims.Serves (f : Option Func) (cmd : Nat) (s : State) : Prop :=
  mbDenied f cmd = false ∧ (s.st Reg.MGMT_BOOT_STATUS_RESIDENT = 0 ∨ cmd ∈ [0x01, 0x30, 0x31, 0x32]) ∧ s.st Reg.SYS_STEWARD_LOAD_SHEDDING = 0

/-- Mailbox `f` holds the answer `r` with a body. -/
def Sys2Proof.Claims.Says (f : Option Func) (r : Nat) (body : List Byte) (s u : State) : Prop :=
  (u.mb (mbKey f)).answer = some (Answer.mk r 0 ((s.mb (mbKey f)).word 1) body)

/-- R316, R456, R460 to R467: mailboxes and their commands. GO takes a request, MBOX_DONE writes its answer; GET_INFO, ZC_LOAD and the firmware commands have their effect and say it; a command a
virtual function may not use is denied. States completion of: mboxGo, mboxDone, getInfo, zcLoad, fwChunk, fwInstall, fwSelect, fwCommitSvn, codeCopy. The model's readings here: log entries 6, 78, 79. -/
def Obligations.MailboxesAndFirmware : Prop :=
  (∀ (f : Option Func) (t : Time) (s : State), s.reaches (mbRequester f) (mbPage f) = true →
    ((s.mb (mbKey f)).busy = false → Gives (.mboxGo f t) s fun u => (u.mb (mbKey f)).busy = true ∧ (u.mb (mbKey f)).done = false ∧
      Amap.find (0x300 + mbKey f) u.icu.edges = some true) ∧
    ((s.mb (mbKey f)).busy = true → Gives (.mboxGo f t) s fun u =>
      (u.mb (mbKey f)).rejects = min 0xFFFF ((s.mb (mbKey f)).rejects + 1) ∧ (u.mb (mbKey f)).busy = true ∧ u.icu = s.icu)) ∧
  (∀ (f : Option Func) (a : Answer) (s : State), (s.mb (mbKey f)).busy = true → (s.mb (mbKey f)).answer = some a →
    Gives (.mboxDone f) s fun u => (u.mb (mbKey f)).busy = false ∧ (u.mb (mbKey f)).done = true ∧
      (u.mb (mbKey f)).rep = bytesWords (mbReply (s.mb (mbKey f)) a) ∧ (f = none → Raised u 0x0A8 20)) ∧
  (∀ (f : Option Func) (s : State), Serves f 0x01 s → Gives (.getInfo f) s fun u =>
    Says f 0 (leBytes 4 (s.st Reg.MGMT_FW_VERSION) ++ leBytes 4 s.flash.svn ++ leBytes 4 0xB0 ++
      (s.flash.serial ++ List.replicate 16 0).take 16 ++ leBytes 2 (freeSubs s)) s u ∧ u.status = s.status) ∧
  (∀ (f : Option Func) (m : BitVec 64) (ra : Nat) (s : State),
    (Serves f 0x10 s → Gives (.zcLoad f m ra) s fun u =>
      (∃ k, Says f (if ∃ n : Fin 64, m.toNat / 2 ^ n.val % 2 = 1 ∧ s.coreState n ∉ [0, 3, 4] then 5 else 0) (leBytes 8 k) s u) ∧
      (∀ n : Fin 64, m.toNat / 2 ^ n.val % 2 = 0 → u.core n = s.core n) ∧
      (∀ n : Fin 64, s.coreState n ∉ [0, 3, 4] → u.core n = s.core n) ∧ u.mem = s.mem) ∧
    (∀ g : Func, g.val ≠ 0 → f = some g → Gives (.zcLoad f m ra) s fun u => Says f 2 [] s u ∧ u.zc = s.zc ∧ u.live = s.live)) ∧
  (∀ (f : Option Func) (off : Nat) (l : List Byte) (s : State), Serves f 0x30 s →
    (off + l.length ≤ (regionBytes s 7).2 → Gives (.fwChunk f off l) s fun u =>
      Says f 0 [] s u ∧ u.mem = (memWrite ((regionBytes s 7).1 + off) l s).mem ∧ u.flash = s.flash) ∧
    ((regionBytes s 7).2 < off + l.length → Gives (.fwChunk f off l) s fun u => Says f 5 [] s u ∧ u.mem = s.mem)) ∧
  (∀ (f : Option Func) (far : Bool) (ra len : Nat) (s : State) (slot : Fin 2) (r : Nat × Nat) (img : List Byte), Serves f 0x31 s →
    slot = (if s.st Reg.MGMT_BOOT_STATUS_SLOT = 0 then 1 else 0) → r = regionBytes s 7 →
    img = (if far = true then imageAt s ra len else if poisoned s r.1 (min len r.2) = true then [] else memRead s r.1 (min len r.2)) →
    (fwVerify s.flash img = 0 → Gives (.fwInstall f far ra len) s fun u =>
      Says f 0 (leBytes 1 slot ++ leBytes 1 0) s u ∧ u.flash.slots.get slot = img ∧
      u.flash.slots.get (1 - slot) = s.flash.slots.get (1 - slot) ∧ Raised u 0x0A8 18) ∧
    (fwVerify s.flash img ≠ 0 → Gives (.fwInstall f far ra len) s fun u =>
      Says f 6 (leBytes 1 slot ++ leBytes 1 (fwVerify s.flash img)) s u ∧ u.flash = s.flash ∧ u.out = s.out)) ∧
  (∀ (f : Option Func) (slot : Fin 2) (s : State), Serves f 0x32 s → Gives (.fwSelect f slot) s fun u =>
    Says f 0 [] s u ∧ preferredSlot u.flash = some slot ∧ u.flash.slots = s.flash.slots) ∧
  (∀ (f : Option Func) (n : Nat) (s : State), Serves f 0x33 s →
    (n ≤ imgNum s.stew.header 8 4 → Gives (.fwCommitSvn f n) s fun u =>
      Says f 0 (leBytes 4 (max s.flash.svn n)) s u ∧ u.flash.svn = max s.flash.svn n) ∧
    (imgNum s.stew.header 8 4 < n → Gives (.fwCommitSvn f n) s fun u => Says f 6 (leBytes 4 s.flash.svn) s u ∧ u.flash = s.flash)) ∧
  (∀ (code : List Byte) (s : State), s.st Reg.MGMT_BOOT_STATUS_RESIDENT ≠ 0 → s.st (Reg.MEMCn_STATUS_READY.pg 0) ≠ 0 →
    s.st Reg.MGMT_BOOT_STATUS_COPY_FAIL = 0 →
    ((s.stew.header.drop 0x18).take 32 = sha256 code → Gives (.codeCopy code) s fun u => u.st Reg.MGMT_BOOT_STATUS_RESIDENT = 0) ∧
    ((s.stew.header.drop 0x18).take 32 ≠ sha256 code → Gives (.codeCopy code) s fun u =>
      u.st Reg.MGMT_BOOT_STATUS_COPY_FAIL = 1 ∧ u.st Reg.MGMT_BOOT_STATUS_RESIDENT = s.st Reg.MGMT_BOOT_STATUS_RESIDENT))

/-! ### almanac and calibration -/

/-- A CAL_RUN of procedure `p` has started on `l` and is answered so. -/
def Sys2Proof.Claims.Begun (f : Option Func) (p : Nat) (l : List Lane) (s u : State) : Prop :=
  u.st Reg.ALM_STATUS_CAL_BUSY = 1 ∧ u.st Reg.ALM_STATUS_PROC = p ∧ u.cal.lanes = l ∧ u.st Reg.ALM_CAL_PROGRESS = 0 ∧ u.alm = s.alm ∧
  ∃ d, Says f 0 (leBytes 1 5 ++ leBytes 3 0 ++ leBytes 4 d) s u

/-- A CAL_RUN is refused with a reason, and nothing else changes. -/
def Sys2Proof.Claims.Denied (f : Option Func) (r : Nat) (s u : State) : Prop :=
  Says f 0 (leBytes 1 3 ++ leBytes 1 r ++ leBytes 6 0) s u ∧ u.status = s.status ∧ u.live = s.live ∧ u.cal = s.cal ∧ u.alm = s.alm

/-- A procedure has ended with an outcome and a cause. -/
def Sys2Proof.Claims.Ended (p o c : Nat) (u : State) : Prop :=
  u.st Reg.ALM_STATUS_CAL_BUSY = 0 ∧ u.st Reg.ALM_STATUS_PROC = 0 ∧ u.st Reg.ALM_CAL_RESULT_PROC = p ∧
  u.st Reg.ALM_CAL_RESULT_OUTCOME = o ∧ u.st Reg.ALM_CAL_RESULT_CAUSE = c ∧ Raised u 0x014 0

/-- The pairs that a procedure's comparison uses. -/
def Sys2Proof.Claims.ofProc (p : Nat) (l : List Lane) (s : State) (x : List CalPair) : List CalPair :=
  x.filter fun y => calSets s p l s.cal.param y.item

/-- The items of a background cycle, and those whose mean lies outside the tolerance about the value in force. -/
def Sys2Proof.Claims.bgProc (p : CalPair) : Nat := if p.item < 0x400 then (if p.item % 0x200 < 0x030 then 1 else 2) else 4
def Sys2Proof.Claims.bgMine (s : State) (x : List CalPair) : List CalPair :=
  x.filter fun p => calSets s (bgProc p) ([(0 : Lane), 1].filter fun n => s.laneState n == 2 && usesSlow s.live n) 0 p.item
def Sys2Proof.Claims.bgOff (s : State) (x : List CalPair) : List CalPair :=
  (bgMine s x).filter fun p => !decide ((pairMean p - almVal s.alm.factory s.alm.eff p.item).natAbs ≤ calTol s (bgProc p) p.item)

/-- R476, R478 to R480, R484: CAL_RUN. In RUN, on the squeezed path, with its lanes RUNNING, each procedure starts; one that finds another running is refused with reason 1, a wrong PATH with 3, an empty set of lanes with 4; RANGE on the main path enters CALIBRATE, and the region table takes effect where it comes from CONFIG (R353). R477 to R482, R485: a procedure runs and ends. Its second run begins, the windows of its frames add up, each once and less the 200 ns after the switch, and at its end runs that agree are applied and runs that do not are counted; an abort or a timeout ends it with nothing applied. R475, R482, R483, R486: the background check and user values. A cycle with an item off makes the calibration SUSPECT, one without makes it VALID again; ALM_USER sets the shadow user value of an item that has one, nothing of another, and is rejected for an item of the procedure that runs. States completion of: calAdcIlv, calIq, calRange, calTdc, calAux, calDtsBath, calRun2Start, calDone, squeezeWindow, calAbort, squeezeTimeout, bgCheck, almUserWrite. The model's readings here: log entries 83, 84, 86. -/
def Obligations.CalibrationRuns : Prop :=
  (∀ (f : Option Func) (w : Fin 4) (l : List Lane) (s : State), Serves f 0x20 s → l = lanesOf w →
    (s.st Reg.ALM_STATUS_CAL_BUSY = 0 → s.mode = 3 →
      (l ≠ [] → (∀ n ∈ l, s.laneState n = 2 ∧ usesSlow s.live n = true) →
        Gives (.calAdcIlv f w 1) s (Begun f 1 l s) ∧ Gives (.calIq f w 1) s (Begun f 2 l s) ∧
        ∀ t, Gives (.calRange f w 1 t) s fun u => Begun f 3 l s u ∧ u.cal.squeeze = true ∧
          ∀ n ∈ l, u.lv (Reg.RXFn_INJ_CFG_MODE.pg n) = 2 ∧ u.lv (Reg.RXFn_INJ_CFG_SRC.pg n) = 2) ∧
      Gives (.calTdc f 1) s (Begun f 4 [] s) ∧
      (∀ r, r < 8 → Gives (.calAux f 1 r) s (Begun f 5 [] s)) ∧
      (∀ (n : Lane) (j : Fin 2), s.laneState n = 2 → Gives (.calDtsBath f 1 n j 1) s (Begun f 6 [n] s)) ∧
      (l = [] → Gives (.calAdcIlv f w 1) s (Denied f 4 s) ∧ Gives (.calIq f w 1) s (Denied f 4 s))) ∧
    (s.st Reg.ALM_STATUS_CAL_BUSY = 0 → l ≠ [] → (s.mode = 1 ∨ s.mode = 3) → (∀ n ∈ l, mainLane s n = true) → ∀ t,
      (s.mode = 1 → regionError (advance t s) (fun _ => false) = none) → Gives (.calRange f w 0 t) s fun u => u.mode = 4 ∧ u.st Reg.ALM_STATUS_CAL_BUSY = 1 ∧ u.st Reg.ALM_STATUS_PROC = 3 ∧ u.cal.lanes = l ∧
        u.cal.back = s.mode ∧ u.alm = s.alm ∧ (s.mode = 1 → u.regions = s.regionShadow)) ∧
    (∀ path, s.st Reg.ALM_STATUS_CAL_BUSY ≠ 0 →
      Gives (.calAdcIlv f w path) s (Denied f 1 s) ∧ Gives (.calIq f w path) s (Denied f 1 s) ∧ Gives (.calTdc f path) s (Denied f 1 s) ∧
      (∀ t, Gives (.calRange f w path t) s (Denied f 1 (advance t s))) ∧ (∀ r, Gives (.calAux f path r) s (Denied f 1 s)) ∧
      (∀ x n j, Gives (.calDtsBath f x n j path) s (Denied f 1 s))) ∧
    (∀ path, s.st Reg.ALM_STATUS_CAL_BUSY = 0 → 1 < path → Gives (.calTdc f path) s (Denied f 3 s) ∧ Gives (.calIq f w path) s (Denied f 3 s))) ∧
  ((∀ (t : Time) (s : State) (n : Lane) (r : List Lane), s.cal.todo = n :: r → s.cal.stage = 2 → Gives (.calRun2Start t) s fun u =>
    u.cal.stage = 3 ∧ u.st (Reg.RXFn_STATUS_RANGE_CUR.pg n) = 1 ∧ u.st Reg.ALM_CAL_PROGRESS = 500 ∧ u.live = s.live) ∧
  (∀ (x : List CalPair) (g : CalFigures) (s : State) (p : Nat), p = s.st Reg.ALM_STATUS_PROC →
    (p = 1 ∨ p = 2 ∨ p = 4 ∨ p = 5 ∨ (p = 3 ∧ s.cal.squeeze = true ∧ squeezeComplete s = true)) →
    ((ofProc p s.cal.lanes s x).all (pairAgrees s p) = true → Gives (.calDone x g) s (Ended p 0 0)) ∧
    ((ofProc p s.cal.lanes s x).all (pairAgrees s p) = false → Gives (.calDone x g) s fun u =>
      Ended p 1 0 u ∧ Counts Reg.ALM_DISAGREES s u ∧ Raised u 0x014 1 ∧ u.alm = s.alm)) ∧
  (∀ (n : Lane) (t : Time) (s : State), (squeezing s n = false ∨ s.laneState n ≠ 2 ∨ (s.dasMode n = 1 ∧ (s.lanes.get n).withheld = false) ∨
      squeezeNs s n = 0 ∨ tBefore s.time (duskWindow s n).2 = false ∨ (advance t s).reached (duskWindow s n).2 = false) → Gives (.squeezeWindow n t) s fun u =>
    u = advance t s) ∧
  (∀ (n : Lane) (t : Time) (s : State), s.st Reg.ALM_STATUS_PROC = 3 → s.cal.squeeze = true → n ∈ s.cal.lanes → s.laneState n = 2 →
    (s.dasMode n ≠ 1 ∨ (s.lanes.get n).withheld = true) → squeezeNs s n ≠ 0 → tBefore s.time (duskWindow s n).2 = true →
    (advance t s).reached (duskWindow s n).2 = true → Gives (.squeezeWindow n t) s fun u =>
      Amap.get u.cal.windows n.val 0 = Amap.get s.cal.windows n.val 0 + 1 ∧ u.st Reg.ALM_CAL_PROGRESS ≤ 1000 ∧
      ∃ k, k < 8 ∧ k % 4 = Amap.get s.cal.windows n.val 0 % 4 ∧
        Amap.get u.cal.acc (8 * n.val + k) 0 = Amap.get s.cal.acc (8 * n.val + k) 0 + squeezeNs s n ∧
        ∀ j, j ≠ 8 * n.val + k → Amap.get u.cal.acc j 0 = Amap.get s.cal.acc j 0) ∧
  (∀ (q : Requester) (s : State), s.st Reg.ALM_STATUS_CAL_BUSY ≠ 0 →
    (s.reaches q 0x014 = true → Gives (.calAbort q) s fun u => Ended (s.st Reg.ALM_STATUS_PROC % 16) 2 1 u ∧ u.alm = s.alm) ∧
    (s.st Reg.ALM_STATUS_PROC = 3 → s.cal.squeeze = true → Gives .squeezeTimeout s fun u => Ended 3 2 3 u ∧ u.alm = s.alm))) ∧
  ((∀ (b t : Time) (x : List CalPair) (g : CalFigures) (s : State), s.mode = 3 → s.lv Reg.ALM_BG_CFG_EN ≠ 0 → s.st Reg.ALM_STATUS_CAL_BUSY = 0 →
    (bgOff s x ≠ [] → Gives (.bgCheck b t x g) s fun u => u.st Reg.ALM_STATUS_CAL_STATE ≠ 0 ∧
      (s.st Reg.ALM_STATUS_CAL_STATE = 0 → u.st Reg.ALM_STATUS_SUSPECT_CAUSE = 2 ∧ Counts Reg.ALM_SUSPECT_ENTRIES s u ∧ Raised u 0x014 2)) ∧
    (bgOff s x = [] → (∀ p ∈ bgMine s x, pairAgrees s (bgProc p) p = false) → bgMine s x ≠ [] → Gives (.bgCheck b t x g) s fun u =>
      Counts Reg.ALM_DISAGREES s u ∧ Raised u 0x014 1 ∧ u.alm = s.alm) ∧
    (bgOff s x = [] → s.st Reg.SYS_SUPPLY_BELOW = 0 → s.cal.railsBack = none → Gives (.bgCheck b t x g) s fun u =>
      u.st Reg.ALM_STATUS_CAL_STATE = 0)) ∧
  (∀ (q : Requester) (w : Word) (s : State) (i : Nat), s.reaches q 0x014 = true → i = s.winIndex q 0x014 % 4096 →
    (almUserItem i = true → s.st Reg.ALM_STATUS_CAL_BUSY = 0 → Gives (.almUserWrite q w) s fun u =>
      Amap.get u.alm.user i 0 = w ∧ u.alm.eff = s.alm.eff ∧ u.winIndex q 0x014 = (i + 1) % 4096 ∧ u.status = s.status) ∧
    (almUserItem i = false → Gives (.almUserWrite q w) s fun u =>
      u.alm = s.alm ∧ u.winIndex q 0x014 = (i + 1) % 4096 ∧ u.status = s.status) ∧
    (almUserItem i = true → s.st Reg.ALM_STATUS_CAL_BUSY ≠ 0 → q ≠ .s0 → q ≠ .s1 →
      calSets s (s.st Reg.ALM_STATUS_PROC) s.cal.lanes s.cal.param i = true → Gives (.almUserWrite q w) s fun u =>
        u.alm = s.alm ∧ Counts Reg.ALM_REJECTS s u ∧ Raised u 0x014 4)))

/-! ### twin operation -/

/-- R496 to R498, R508, R510: the claim. ACT_OUT is asserted once PEER_ACT_IN has been low for 20 µs and the claim completes after a hold of 20 µs; side B gives way, a claim that has not completed TWIN_CLAIM_WAIT µs after the entry to RUN fails, and a claim of the peer closes the gate and leaves ACT_OUT. Addresses taken are announced. R495, R499 to R501, R504, R506, R513: heartbeats, health and the link. A heartbeat carries role and health and whether the firmware is alive; a valid one of the peer is recorded, any other counted; the peer is lost after N ms, and a unit whose own heartbeats say so N times in a row gives up RUN. States completion of: claimAssert, claimHoldEnd, backoff, takeoverFail, peerClaim, addrAnnounce, heartbeatSend, heartbeatReceive, peerLost, selfDemote, healthWord, twinAlive, twinLinkUp, twinLinkDown. The model's readings here: log entries 90, 91, 93. -/
def Obligations.TwinClaimsAndHealth : Prop :=
  (∀ (t : Time) (s w : State), w = advance t s →
    (s.twin.claim = 1 → s.st Reg.LDRV_GATE_STATUS_PEER_ACT_IN = 0 → elapsed 20 s.twin.claimAt w = true → Gives (.claimAssert t) s fun u =>
      u.twin.claim = 2 ∧ u.twin.claimAt = w.time ∧ u.st Reg.LDRV_GATE_STATUS_ACT_OUT ≠ 0 ∧
      (s.st Reg.LDRV_GATE_STATUS_ACT_OUT = 0 → u.out.head? = some (.actOut true))) ∧
    ((elapsed 20 s.twin.claimAt w = false ∨ (s.twin.claim ≠ 1 ∧ s.twin.claim ≠ 2)) →
      Gives (.claimAssert t) s (fun u => u = w) ∧ Gives (.claimHoldEnd t) s fun u => u = w) ∧
    (s.twin.claim = 2 → elapsed 20 s.twin.claimAt w = true → s.st Reg.LDRV_GATE_STATUS_PEER_ACT_IN = 0 → Gives (.claimHoldEnd t) s fun u =>
      u.twin.claim = 3 ∧ (s.lv Reg.TWIN_CFG_EN ≠ 0 → u.st Reg.TWIN_STATUS_ROLE = 3) ∧ u.live = s.live ∧
      (s.twin.takeover ≠ none → s.lv Reg.TWIN_CFG_ADDR_TAKE ≠ 0 → u.twin.adopted = s.twin.addrs ∧ u.twin.announces = 3)) ∧
    (s.twin.claim = 2 → elapsed 20 s.twin.claimAt w = true → s.st Reg.LDRV_GATE_STATUS_PEER_ACT_IN ≠ 0 → Gives (.claimHoldEnd t) s fun u =>
      u.twin.claim = 1 ∧ u.st Reg.LDRV_GATE_STATUS_ACT_OUT = 0) ∧
    (s.twin.claim = 2 → s.st Reg.TWIN_STATUS_SIDE ≠ 0 → Gives (.backoff t) s fun u =>
      u.twin.claim = 1 ∧ u.st Reg.LDRV_GATE_STATUS_ACT_OUT = 0 ∧ Counts Reg.TWIN_BACKOFFS s u ∧ Raised u 0x0B0 4) ∧
    ((s.twin.claim = 0 ∨ s.twin.claim = 3 ∨ elapsed (s.lv Reg.TWIN_CLAIM_WAIT) s.twin.runAt w = false) → Gives (.takeoverFail t) s fun u => u = w) ∧
    ((s.twin.claim = 1 ∨ s.twin.claim = 2) → elapsed (s.lv Reg.TWIN_CLAIM_WAIT) s.twin.runAt w = true → Gives (.takeoverFail t) s fun u =>
      u.twin.claim = 0 ∧ u.twin.takeover = none ∧ u.twin.failed = s.twin.takeover.map (·.1) ∧ u.twin.failedAt = w.time ∧ u.st Reg.LDRV_GATE_STATUS_ACT_OUT = 0 ∧
      Counts Reg.TWIN_TAKEOVER_FAILS s u ∧ Raised u 0x0B0 3) ∧
    (s.twin.claim = 3 → Gives (.peerClaim t) s fun u =>
      u.twin.claim = 3 ∧ u.st Reg.LDRV_GATE_STATUS_PEER_ACT_IN = 1 ∧ u.st Reg.LDRV_GATE_STATUS_ACT_OUT = s.st Reg.LDRV_GATE_STATUS_ACT_OUT ∧
      Raised u 0x0B0 5) ∧
    (s.twin.announces ≠ 0 → Gives (.addrAnnounce t) s fun u => u.twin.announces = s.twin.announces - 1 ∧
      ∀ p m v4 v6, (p, (m, v4, v6)) ∈ s.twin.adopted → .announce m v4 v6 ∈ (u.port (Fin.ofNat 2 p)).stew) ∧
    (s.twin.announces = 0 → Gives (.addrAnnounce t) s fun u => u = advance t s)) ∧
  ((∀ (t : Time) (s : State),
    (s.lv Reg.TWIN_CFG_EN ≠ 0 → s.st Reg.TWIN_STATUS_LINK_UP ≠ 0 → Gives (.heartbeatSend t) s fun u =>
      u.st Reg.TWIN_STATUS_ALIVE = bit (twinIsAlive t s) ∧ u.twin.dead = (if twinIsAlive t s = true then 0 else s.twin.dead + 1) ∧
      ∃ hb, u.out = .heartbeat hb :: s.out ∧ hb.role = s.st Reg.TWIN_STATUS_ROLE ∧ hb.health = BitVec.ofNat 32 (s.st Reg.TWIN_HEALTH) ∧
        hb.alive = twinIsAlive t s ∧ hb.relinquish = s.twin.relinquish) ∧
    (s.lv Reg.TWIN_CFG_EN = 0 → Gives (.heartbeatSend t) s fun u => u = advance t s) ∧
    (s.lv Reg.TWIN_CFG_EN ≠ 0 → ∀ hb, (∀ h, hb = some h → h.alive = false) → Gives (.heartbeatReceive t hb) s fun u =>
      Counts Reg.TWIN_HB_MISSED s u ∧ u.twin = s.twin) ∧
    (s.lv Reg.TWIN_CFG_EN ≠ 0 → ∀ h, h.alive = true → Gives (.heartbeatReceive t (some h)) s fun u =>
      u.st Reg.TWIN_STATUS_PEER_PRESENT = 1 ∧ u.st Reg.TWIN_PEER_HEALTH = h.health.toNat ∧ u.twin.lastBeat = some t ∧
      u.twin.peerRelinquish = h.relinquish ∧ u.twin.peerSeq = h.eventSeq ∧ (peerGone s = true → Raised u 0x0B0 1)) ∧
    (∀ a, s.twin.lastBeat = some a → s.st Reg.TWIN_STATUS_PEER_PRESENT ≠ 0 →
      ((s.lv Reg.TWIN_HB_N * 1000000 * duPerNs : Nat) : Int) ≤ tDiff t a → Gives (.peerLost t) s fun u =>
        u.st Reg.TWIN_STATUS_PEER_PRESENT = 0 ∧ Raised u 0x0B0 0 ∧ u.twin = s.twin) ∧
    (s.st Reg.TWIN_STATUS_ROLE = 3 → s.ticksRun = true → s.lv Reg.TWIN_HB_N ≤ s.twin.dead → Gives (.selfDemote t) s fun u =>
      u.st Reg.LDRV_GATE_STATUS_ACT_OUT = 0 ∧ Raised u 0x0B0 9) ∧
    Gives (.healthWord t) s (fun u => u.st Reg.TWIN_HEALTH = healthOf s % 2 ^ 32 ∧ u.twin.seconds = s.twin.seconds + 1) ∧
    (∀ q, s.reaches q 0x0B0 = true → Gives (.twinAlive q t) s fun u => u.twin.aliveAt = some u.time ∧ u.status = (advance t s).status)) ∧
  (∀ s : State,
    Gives .twinLinkUp s (fun u => u.st Reg.TWIN_STATUS_LINK_UP = 1 ∧ u.twin = s.twin) ∧
    (s.st Reg.TWIN_STATUS_LINK_UP ≠ 0 → Gives .twinLinkDown s fun u => u.st Reg.TWIN_STATUS_LINK_UP = 0 ∧ Raised u 0x0B0 6 ∧ u.twin = s.twin)))

/-- The state in which a takeover is admitted: role TAKEOVER, the nightwatch stopped, images started, mirrored entries adopted. -/
def Sys2Proof.Claims.taking (s : State) : State :=
  s.twin.entries.foldl (fun s e => adoptEntry s.time e s) (startMirrored (stopNightwatch (setRole 2 s)))

/-- A takeover for `cause` from `s`: into RUN with its claim, or back to STANDBY with the reason. -/
def Sys2Proof.Claims.TakesOver (cause : Nat) (s u : State) : Prop :=
  (entryRefusal (taking s) false = none → u.mode = 3 ∧ u.twin.claim = 1 ∧ u.twin.takeover = some (cause, s.time) ∧ u.twin.failed = none ∧
    u.st Reg.ZONE_EVENT_SEQ = (s.twin.peerSeq.toNat + 2 ^ 30) % 2 ^ 32) ∧
  (∀ r, entryRefusal (taking s) false = some r → u.mode = 2 ∧ u.st Reg.SYS_MODE_STATUS_REJECT = r.1 ∧
    (s.lv Reg.TWIN_CFG_EN ≠ 0 → u.st Reg.TWIN_STATUS_ROLE = 1))

/-- R501, R508, R509, R511: takeover and handover. A standby takes over when its peer is lost with AUTO set, has relinquished, or by command, and again 1 s after a failure while the peer stays lost; the active unit hands
over by command; both are refused elsewhere, and STATUS answers role and health. States completion of: takeoverTrigger, takeoverRetry, takeover, handover, twinStatusOp. The model's readings here: log entries 89, 90. -/
def Obligations.TakeoverAndHandover : Prop :=
  ∀ (t : Time) (s : State),
    (s.mode = 2 →
      (peerGone s = true → s.lv Reg.TWIN_CFG_AUTO ≠ 0 → Gives (.takeoverTrigger 0 t) s (TakesOver 0 (advance t s))) ∧
      (s.twin.peerRelinquish = true → Gives (.takeoverTrigger 1 t) s (TakesOver 1 (advance t s))) ∧
      (∀ c, s.twin.failed = some c → peerGone s = true → elapsed 1000000 s.twin.failedAt (advance t s) = true → Gives (.takeoverRetry t) s (TakesOver c (advance t s))) ∧
      (∀ f, Serves f 0x40 s → Gives (.takeover f t) s fun u => TakesOver 2 (advance t s) u ∧ ∃ l, Says f 0 (leBytes 1 0 ++ l) s u)) ∧
    (elapsed 1000000 s.twin.failedAt (advance t s) = false → Gives (.takeoverRetry t) s fun u => u = advance t s) ∧
    (s.mode ≠ 2 →
      (∀ c, Gives (.takeoverTrigger c t) s fun u => u = advance t s) ∧ Gives (.takeoverRetry t) s (fun u => u = advance t s) ∧
      (∀ f, Serves f 0x40 s → Gives (.takeover f t) s fun u => u.status = (advance t s).status ∧ u.twin = s.twin ∧ ∃ l, Says f 0 (leBytes 1 1 ++ l) s u)) ∧
    (∀ f, Serves f 0x40 s →
      (s.mode = 3 → s.st Reg.TWIN_STATUS_ROLE = 3 → s.merid.leaving = none → Gives (.handover f t) s fun u =>
        u.twin.relinquish = true ∧ (∃ l, Says f 0 (leBytes 1 0 ++ l) s u) ∧
        (if s.laneState 0 = 0 ∧ s.laneState 1 = 0 then u.mode = 1 else u.merid.leaving = some 1)) ∧
      ((s.mode ≠ 3 ∨ s.st Reg.TWIN_STATUS_ROLE ≠ 3) → Gives (.handover f t) s fun u =>
        u.status = (advance t s).status ∧ u.twin = s.twin ∧ ∃ l, Says f 0 (leBytes 1 1 ++ l) s u) ∧
      Gives (.twinStatusOp f) s (fun u => u.status = s.status ∧ u.twin = s.twin ∧
        Says f 0 (leBytes 1 0 ++ leBytes 1 (s.st Reg.TWIN_STATUS_ROLE) ++ leBytes 2 0 ++ leBytes 4 (s.st Reg.TWIN_HEALTH) ++
          leBytes 4 (s.st Reg.TWIN_PEER_HEALTH)) s u))

/-- R502, R503, R505, R511: the mirror and the nightwatch. The active unit sends numbered items and resends one or all; the standby takes each kind into its own state; a lost step is raised; a test run by a
standby sets its bits. States completion of: mirrorSend, resync, mirrorResend, outOfStep, mirrorReceive, nwTest. The model's readings here: log entries 88, 92. -/
def Obligations.MirrorAndNightwatch : Prop :=
  (∀ (t : Time) (s : State), s.st Reg.TWIN_STATUS_ROLE = 3 →
    (∀ x, s.st Reg.TWIN_STATUS_LINK_UP ≠ 0 → Gives (.mirrorSend t x) s fun u =>
      u.out = .mirror s.twin.nextSeq (mirrorItem s t x) :: s.out ∧ u.twin.nextSeq = s.twin.nextSeq + 1 ∧
      Amap.find s.twin.nextSeq u.twin.unacked = some (t, false, mirrorItem s t x)) ∧
    (∀ f, Serves f 0x40 s → Gives (.resync f t) s fun u => u.twin.nextSeq = s.twin.nextSeq + (everyItem s).length ∧
      u.out.length = s.out.length + (everyItem s).length ∧ ∃ l, Says f 0 (leBytes 1 0 ++ l) s u)) ∧
  (∀ (t : Time) (s : State) (n : Nat) (e : Time × Bool × MirrorItem), Amap.find n s.twin.unacked = some e → Gives (.mirrorResend t n) s fun u =>
    u.out = .mirror n e.2.2 :: s.out ∧ Counts Reg.TWIN_MIRROR_RESENDS s u ∧ Amap.find n u.twin.unacked = some (t, true, e.2.2)) ∧
  (∀ s : State, s.st Reg.TWIN_STATUS_IN_STEP ≠ 0 → Gives .outOfStep s fun u => u.st Reg.TWIN_STATUS_IN_STEP = 0 ∧ Raised u 0x0B0 7 ∧ u.twin = s.twin) ∧
  (∀ (t : Time) (n : Nat) (s : State), s.mode = 2 →
    (∀ v i w, (v.map (·.1)).Nodup → (i, w) ∈ v → almUserItem i = true → w ≠ 0 → Gives (.mirrorReceive t n (.calibration v)) s fun u =>
      Amap.get u.alm.user i 0 = w ∧ u.alm.userLive = u.alm.user ∧ u.twin.calAt = some t) ∧
    (∀ p a b, pagePresent p = true → p ∉ [0, 0x015, 0x088, 0x089, 0x0B0] → Gives (.mirrorReceive t n (.commitState p a b)) s fun u =>
      u.st (commitState p) = 2) ∧
    (∀ es ks, Gives (.mirrorReceive t n (.subscribers es ks)) s fun u => u.twin.entries = es ∧ u.twin.entriesAt = some t ∧ u.strm.subs = s.strm.subs) ∧
    (∀ c sid l h, Gives (.mirrorReceive t n (.codecContext c sid l h)) s fun u =>
      Amap.get u.twin.lastSeqs sid 0 = l ∧ Amap.find sid u.twin.ctxAt = some t ∧ u.cmp = s.cmp) ∧
    (∀ m img, Gives (.mirrorReceive t n (.zcImage m img)) s fun u => u.twin.images = s.twin.images ||| m.toNat ∧ u.mem = s.mem) ∧
    (∀ (p : Fin 2) a b c, Gives (.mirrorReceive t n (.addresses p a b c)) s fun u => Amap.find p.val u.twin.addrs = some (a, b, c))) ∧
  (∀ (i : Fin 6) (ok : Bool) (c : Fin 8) (s : State), s.mode = 2 → s.lv Reg.TWIN_NW_TESTS / 2 ^ i.val % 2 = 1 → Gives (.nwTest i ok c) s fun u =>
    u.twin.pass / 2 ^ i.val % 2 = bit ok ∧ u.twin.ran / 2 ^ i.val % 2 = 1 ∧ (i = 0 → u.twin.injFail / 2 ^ c.val % 2 = bit !ok) ∧
    (ok = false → Counts Reg.TWIN_NW_FAILS s u ∧ Raised u 0x0B0 8) ∧ u.live = s.live)

/-! ### B50 mode -/

/-- What a read of the ring's descriptor makes of the ring. -/
def Sys2Proof.Claims.RingRead (c : Completion) (u : State) : Prop :=
  match c with
  | .failed => u.chanState 0 = 3 ∧ u.st Reg.B50_DMA_STATUS_STATE = 3 ∧ u.st (Reg.DMACHn_STATUS_ERR.pg 0) = 1
  | .poisoned => u.chanState 0 = 3 ∧ u.st Reg.B50_DMA_STATUS_STATE = 3 ∧ u.st (Reg.DMACHn_STATUS_ERR.pg 0) = 2
  | .ok l =>
    u.chanState 0 = 1 ∧ (u.chan 0).fetch = false ∧
    (if leNat ((l.drop 12).take 4) / 2 ^ 31 = 0 then u.st (Reg.DMACHn_STATUS_WAITING_DESC.pg 0) = 1
     else u.st (Reg.DMACHn_STATUS_WAITING_DATA.pg 0) = 1 ∧ (u.chan 0).off = 0 ∧
       ∃ d, (u.chan 0).desc = some d ∧ d.addr = leNat (l.take 8) ∧ d.len = leNat ((l.drop 8).take 4) % 2 ^ 24)

/-- R534 to R536, R539, R540: the lane of B50 mode. RUN starts a lane that is OFF and whose window passes R535, else says why; a draining lane starts again; RUN 0 stops it; each shot's samples make one frame; SOFT_RESET of a stopped lane gives every window field its reset value; interrupt bits clear as written. R426, R427, R431, R538: the ring of B50 mode. EN starts it at its first descriptor; a descriptor that the device owns is taken, one that it does not is waited for, a failed read halts; polls and the doorbell read it again; an abort of a waiting or halted ring stops it at once. States completion of: b50Run, b50Stop, b50SoftReset, b50IrqClear, b50Shot, b50DmaEn, b50DescPoll, b50Doorbell, descFetch, b50DmaAbort, abortDone. The model's readings here: log entries 95, 96, 97. -/
def Obligations.B50Runs : Prop :=
  (∀ (q : Requester) (s : State), s.mode = 5 → s.reaches q 0 = true →
    (∀ t, s.laneState 0 = 0 → b50Refusal s = none → Gives (.b50Run q t) s fun u =>
      u.laneState 0 = 1 ∧ u.lv Reg.B50_CTRL_RUN = 1 ∧ u.st Reg.B50_STATUS_REJECT = 0 ∧ u.st Reg.B50_FRAMES = 0 ∧ u.twin.claim = 1 ∧
      u.st Reg.MERID_STATUS_RUNNING = 1 ∧ u.mode = 5) ∧
    (∀ t c, s.laneState 0 = 0 → b50Refusal s = some c → Gives (.b50Run q t) s fun u =>
      u.laneState 0 = 0 ∧ u.lv Reg.B50_CTRL_RUN = 0 ∧ u.st Reg.B50_STATUS_REJECT = c ∧ u.st Reg.B50_IRQ_STATUS / 2 ^ 7 % 2 = 1) ∧
    (∀ t, s.laneState 0 = 3 → Gives (.b50Run q t) s fun u => u.b50.again = true ∧ u.laneState 0 = 3) ∧
    (∀ t, s.laneState 0 ≠ 0 → Gives (.b50Stop q t) s fun u =>
      u.b50.stop = true ∧ u.b50.again = false ∧ u.lv Reg.B50_CTRL_RUN = 0 ∧ u.laneState 0 = s.laneState 0) ∧
    (s.laneState 0 = 0 → Gives (.b50SoftReset q) s fun u => u.chanState 0 = 0 ∧ u.mode = 5 ∧
      ∀ f : Fld, f.key < 131072 → u.lv f = f.reset ∧ u.sh f = f.reset) ∧
    (s.laneState 0 ≠ 0 → Gives (.b50SoftReset q) s fun u => u = s) ∧
    (∀ bits sets, Gives (.b50IrqClear q bits sets) s fun u => u.live = s.live ∧
      ∀ k : Fin 8, u.st Reg.B50_IRQ_STATUS / 2 ^ k.val % 2 =
        (if sets.getLsbD k.val = true ∨ (s.st Reg.B50_IRQ_STATUS / 2 ^ k.val % 2 = 1 ∧ bits.getLsbD k.val = false) then 1 else 0)) ∧
    (∀ codes x, oldestShot s 0 0 = some x → Gives (.b50Shot codes) s fun u =>
      Counts Reg.B50_FRAMES s u ∧ (∀ y ∈ (u.shots.get 0).shots, y.id ≠ x.id)) ∧
    (∀ codes, oldestShot s 0 0 = none → Gives (.b50Shot codes) s fun u => u = s)) ∧
  (∀ (q : Requester) (s : State), s.mode = 5 → s.reaches q 0 = true →
    (s.chanState 0 = 0 → Gives (.b50DmaEn q) s fun u =>
      u.chanState 0 = 1 ∧ u.st Reg.B50_DMA_STATUS_STATE = 1 ∧ u.st Reg.B50_DMA_STATUS_INDEX = 0 ∧ u.lv Reg.B50_DMA_CTRL_EN = 1 ∧
      u.out = .hostRead 0 (s.lv Reg.B50_RING_LO + 2 ^ 32 * s.lv Reg.B50_RING_HI) 16 :: s.out) ∧
    (s.chanState 0 ≠ 0 → Gives (.b50DmaEn q) s fun u => u = s) ∧
    (∀ c, b50Waits s = true →
      Gives (.b50DescPoll c) s (fun u => RingRead c u ∧ u.out = .hostRead 0 (b50DescAt s) 16 :: s.out) ∧
      Gives (.b50Doorbell q c) s (fun u => RingRead c u ∧ u.out = .hostRead 0 (b50DescAt s) 16 :: s.out)) ∧
    (∀ c, s.chanState 0 = 1 → (s.chan 0).fetch = true → Gives (.descFetch 0 c) s (RingRead c)) ∧
    ((s.chanState 0 = 3 ∨ (s.chanState 0 = 1 ∧ ((s.chan 0).desc = none ∨ (nextRec s 0 = none ∧ s.asleep 0 = false)))) → Gives (.b50DmaAbort q) s fun u =>
      u.chanState 0 = 0 ∧ u.lv Reg.B50_DMA_CTRL_EN = 0 ∧ u.st Reg.B50_IRQ_STATUS % 4 = 3 ∧ u.st (Reg.DMACHn_HELD.pg 0) = 0 ∧ u.mem = s.mem) ∧
    (s.chanState 0 = 1 → (s.chan 0).desc ≠ none → nextRec s 0 ≠ none → Gives (.b50DmaAbort q) s fun u => u.chanState 0 = 2 ∧ u.out = s.out) ∧
    (s.chanState 0 = 2 → s.asleep 0 = false → Gives (.abortDone 0) s fun u =>
      u.chanState 0 = 0 ∧ u.lv Reg.B50_DMA_CTRL_EN = 0 ∧ u.st Reg.B50_IRQ_STATUS % 4 = 3))

/-! ### register pages -/

/-- R4, R5, R518, R548: reads and clears with effects of their own. An interrupt bit clears where 1 is written and is not set in the same clock; an RC register answers what it has counted and keeps what came too late; the
low word of a pair holds its high word for the requester that reads it; a high word is staged until its low word commits the pair. States completion of: irqStatusClear, rcRead, pairLoRead, pairHiWrite, pairLoWrite. The model's readings here: log entry 100. -/
def Obligations.StatusCountersAndPairs : Prop :=
  ∀ (q : Requester) (p : Nat) (s : State), s.reaches q p = true →
    (∀ bits sets, pagePresent p = true → p ≠ 0 → Gives (.irqStatusClear q p bits sets) s fun u => u.live = s.live ∧
      ∀ k : Fin 32, u.st (irqStatus p) / 2 ^ k.val % 2 =
        (if sets.getLsbD k.val = true ∨ (s.st (irqStatus p) / 2 ^ k.val % 2 = 1 ∧ bits.getLsbD k.val = false) then 1 else 0)) ∧
    (∀ off m f, off < 0xC00 → ((wordFields p off).find? fun f => f.ty == .rc) = some f →
      ¬ (p = 0x010 ∧ 0x820 ≤ off ∧ off < 0x82C) → Gives (.rcRead q p off m) s fun u =>
        u.req.data = BitVec.ofNat 32 (s.st f - min (s.st f) m) ∧ u.st f = min (s.st f) m % 2 ^ f.width ∧
        ∀ g : Fld, g.key ≠ f.key → u.st g = s.st g) ∧
    (∀ off m f, p = 0x010 → 0x820 ≤ off → off < 0x82C → ((wordFields p off).find? fun f => f.ty == .rc) = some f →
      Gives (.rcRead q p off m) s fun u => u.req.data = BitVec.ofNat 32 (s.st f) ∧ u.st f = m % 2 ^ f.width) ∧
    (∀ off, off < 0xC00 → Gives (.pairLoRead q p off) s fun u =>
      u.req.data = BitVec.ofNat 32 (readWord s q p off) ∧ u.status = s.status ∧ u.live = s.live ∧
      u.snapOf q (regAddr p (off + 4)) =
        some (BitVec.ofNat 32 (readWord { s with req := { s.req with snap := [] } } q p (off + 4)))) ∧
    (∀ off w, ((p = 0x011 ∧ off = 0x05C) ∨ (0x040 ≤ p ∧ p < 0x080 ∧ off = 0xC08)) → Gives (.pairHiWrite q p off w) s fun u =>
      u.staged q (regAddr p off) = some (BitVec.ofNat 32 (w.toNat % 256)) ∧ u.live = s.live ∧ u.zc = s.zc) ∧
    (∀ w, (p = 0x200 ∨ p = 0x201) → Gives (.pairHiWrite q p 0x060 w) s fun u =>
      u.staged q (regAddr p 0x060) = some w ∧ u.live = s.live ∧ u.stew = s.stew) ∧
    (∀ t w hi, (p = 0x200 ∨ p = 0x201) → hi = ((s.staged q (regAddr p 0x060)).map (·.toNat)).getD (s.lv (Reg.ICUTt_TIMER_HI.pg (p - 0x200))) →
      Gives (.pairLoWrite q t p 0x05C w) s fun u =>
        u.lv (Reg.ICUTt_TIMER_LO.pg (p - 0x200)) = w.toNat ∧ u.lv (Reg.ICUTt_TIMER_HI.pg (p - 0x200)) = hi % 2 ^ 32 ∧
        u.staged q (regAddr p 0x060) = none) ∧
    (∀ t w, p = 0x011 → exec (.pairLoWrite q t p 0x058 w) s = exec (.applyTickWrite q t w) s) ∧
    (∀ (t : Time) (w : Word) (n : Fin 64) (i a : Nat), p = 0x040 + n.val → i = s.winIndex q p → a = i % 8192 → i / 65536 % 4 = 1 → a < 4096 →
      Gives (.pairLoWrite q t p 0xC04 w) s fun u =>
        Amap.get (u.core n).xm a 0 = (w.toNat + 2 ^ 32 * ((s.staged q (regAddr p 0xC08)).map (·.toNat % 256)).getD (zcWindow s n 1 a / 2 ^ 32)) % 2 ^ 40 ∧
        u.winIndex q p = zcNextIndex i % 2 ^ 32 ∧ (u.core n).pm = (s.core n).pm)

/-- R33, R37, R314, R543, R544, R546, R549 to R552: writes by address, and windows. A word of an absent page is ignored; the interrupt enables and NOW fields follow at once and COMMIT fields only as shadow; a word that has a command of its own has
its effect; a window's index is what is written and its data what stands there, 0 for an uncorrectable word of a zone core; the peak of a budget restarts at its read; a page soft reset of an idle page gives its fields their reset values, one of a busy page is rejected. States completion of: registerWrite, windowAccess, pageSoftReset. The model's readings here: log entries 19, 77. -/
def Obligations.WritesByAddress : Prop :=
  ∀ (q : Requester) (t : Time) (p : Nat) (w : Word) (s : State), s.reaches q p = true →
    (∀ off, p ≠ 0 → (off % 4 ≠ 0 ∨ 0x1000 ≤ off ∨ pagePresent p = false) → Gives (.registerWrite q t p off w) s fun u => u = advance t s) ∧
    (pagePresent p = true → p ≠ 0 → p < 0x200 → Gives (.registerWrite q t p 0x014 w) s fun u =>
      u.lv (irqEnable p) = w.toNat ∧ u.status = (advance t s).status) ∧
    (p = 0x0A0 → Gives (.registerWrite q t p 0x040 w) s fun u =>
      u.lv Reg.ICU_STRAND_TIME = w.toNat % 2 ^ 16 ∧ u.sh Reg.ICU_STRAND_TIME = w.toNat % 2 ^ 16 ∧ u.status = (advance t s).status) ∧
    (p = 0x014 → Gives (.registerWrite q t p 0x048 w) s fun u =>
      u.sh Reg.ALM_SQZ_LIMIT = w.toNat % 2 ^ 16 ∧ u.live = s.live ∧ u.status = (advance t s).status) ∧
    (p = 0x0A0 → exec (.registerWrite q t p 0x044 w) s = exec (.icuSwSet q w) (advance t s)) ∧
    (p = 0x012 → exec (.registerWrite q t p 0x050 w) s = exec (.epochSet q t w) (advance t s)) ∧
    (pagePresent p = true → p ≠ 0 → exec (.registerWrite q t p 0x010 w) s = exec (.irqStatusClear q p w 0) (advance t s)) ∧
    (pagePresent p = true → p ≠ 0 → exec (.registerWrite q t p 0x018 w) s = exec (.pageCommit q t p w) (advance t s)) ∧
    Gives (.windowAccess q p 0xC00 (some w)) s (fun u => u.winIndex q p = (w.toNat &&& indexMask p 0xC00) ∧ u.live = s.live ∧ u.status = s.status) ∧
    Gives (.windowAccess q p 0xC00 none) s (fun u => u = s.answer (s.winIndex q p)) ∧
    (p ≠ 0x013 → Gives (.windowAccess q p 0xC04 none) s fun u =>
      u.req.data = BitVec.ofNat 32 (winWord s q p 0xC04 (s.winIndex q p)) ∧
      u.winIndex q p = nextIndex p 0xC04 false (s.winIndex q p) % 2 ^ 32 ∧ u.live = s.live ∧
      ((p < 0x040 ∨ 0x080 ≤ p) → u.status = s.status)) ∧
    (p = 0x011 → Gives (.windowAccess q p 0xC08 none) s fun u =>
      u.req.data = BitVec.ofNat 32 (Amap.get s.budget (s.winIndex q p) (0, 0)).2 ∧
      Amap.get u.budget (s.winIndex q p) (0, 0) = ((Amap.get s.budget (s.winIndex q p) (0, 0)).1, 0)) ∧
    (∀ (n : Fin 64) (a : Nat), p = 0x040 + n.val → s.winIndex q p = 0x10000 + a → a < 4096 → (s.core n).bad.contains a = true →
      Gives (.windowAccess q p 0xC04 none) s fun u => u.req.data = 0 ∧ Counts Reg.SYS_SRAM_UE s u) ∧
    (p = 0x080 → Gives (.windowAccess q p 0xC08 (some w)) s fun u =>
      (u.ctx (s.winIndex q p)).quota = w.toNat % 65536 ∧ u.live = s.live ∧ u.status = s.status) ∧
    (∀ off, off < 0xC00 → Gives (.windowAccess q p off (some w)) s fun u => u = s) ∧
    (pagePresent p = true → p ≠ 0x010 → pageIdle s p = true → Gives (.pageSoftReset q p) s fun u =>
      ∀ f : Fld, f.key / 131072 = p → u.sh f = f.reset) ∧
    (pagePresent p = true → p ≠ 0x010 → pageIdle s p = false → Gives (.pageSoftReset q p) s fun u =>
      u.st (pageResetRejected p) = 1 ∧ u.live = s.live ∧ u.shadow = s.shadow) ∧
    (p = 0x010 → exec (.pageSoftReset q p) s = exec (.sysSoftReset q) s)

/-! ### resets, start-up, supplies, temperature -/

/-- R551, R560, R561, R565, R567, R568: resets and start-up. POR_N, RESET_N and a supply leave every page at reset values, in mode RESET, with the cause; the flash stands. A soft reset keeps time and record memory. Start-up with valid firmware ends in CONFIG, or in B50 by the strap; without it the device stays in RESET. R561 to R563, R570, R571: supplies and temperature. A dip is counted, raised, recorded and makes the calibration SUSPECT, and holds emission off where LIGHT_HOLD says so; the last rail's recovery ends it; the hold ends 100 µs later; the hottest sensor warns, trips and holds, and the hold ends when it has cooled and TRIP is cleared. States completion of: por, resetN, supplyReset, sysSoftReset, startUp, dip, recover, lightHoldEnd, thermWarn, thermTrip, thermHoldEnd. The model's readings here: log entries 6, 94, 102, 103, 104. -/
def Obligations.ResetsAndSupplies : Prop :=
  ((∀ (x : Straps) (s : State),
    Gives (.por x) s (fun u => u.mode = 0 ∧ u.live = [] ∧ u.shadow = [] ∧ u.mem = [] ∧ u.time = 0 ∧ u.zc = [] ∧ u.strm = State.reset.strm ∧
      u.st Reg.SYS_RESET_CAUSE_CAUSE = 1 ∧ u.st Reg.SYS_STRAPS_SIDE = bit x.side ∧ u.st Reg.SYS_STRAPS_COMPAT = bit x.compat ∧
      u.st Reg.SYS_STRAPS_BOOT_SEL = x.bootSel % 4 ∧ u.flash = s.flash ∧ u.alm.factory = s.alm.factory ∧
      u.st Reg.LDRV_GATE_STATUS_ACT_OUT = 0) ∧
    Gives (.resetN x) s (fun u => u.mode = 0 ∧ u.live = [] ∧ u.shadow = [] ∧ u.mem = [] ∧ u.time = 0 ∧
      u.st Reg.SYS_RESET_CAUSE_CAUSE = 2 ∧ u.st Reg.SYS_STRAPS_SIDE = s.st Reg.SYS_STRAPS_SIDE % 2 ∧
      u.st Reg.SYS_STRAPS_COMPAT = bit x.compat ∧ u.flash = s.flash)) ∧
  (∀ (r : Rail) (s : State), Gives (.supplyReset r) s fun u => u.mode = 0 ∧ u.live = [] ∧ u.shadow = [] ∧ u.mem = [] ∧
    u.st Reg.SYS_RESET_CAUSE_CAUSE = 3 ∧ u.st Reg.SYS_RESET_CAUSE_RAIL = railNo r ∧ u.flash = s.flash) ∧
  (∀ (q : Requester) (s : State), s.reaches q 0x010 = true → Gives (.sysSoftReset q) s fun u =>
    u.mode = 0 ∧ u.shadow = [] ∧ u.mem = s.mem ∧ u.time = s.time ∧ u.st Reg.SYS_RESET_CAUSE_CAUSE = 4 ∧ u.flash = s.flash ∧
    u.st Reg.LDRV_GATE_STATUS_ACT_OUT = 0 ∧ u.st Reg.SYS_STRAPS_COMPAT = s.st Reg.SYS_STRAPS_COMPAT) ∧
  (∀ (e : StartEnv) (s : State), s.mode = 0 → s.st Reg.SYS_RESET_CAUSE_CAUSE ≠ 4 →
    ((bootStep s).2 = true → Gives (.startUp e) s fun u => u.mode = (if s.st Reg.SYS_STRAPS_COMPAT = 0 then 1 else 5) ∧ u.time = 0 ∧
      u.st Reg.SYS_START_STEP = 7 ∧ u.st Reg.SYS_START_TIME = min e.startTimeUs 0xFFFFF ∧ u.st Reg.TBASE_STATUS_PLL_LOCK = 1) ∧
    ((bootStep s).2 = false → Gives (.startUp e) s fun u => u.mode = 0 ∧ u.live = s.live ∧ u.mem = s.mem)) ∧
  (∀ (e : StartEnv) (s : State), s.mode = 0 → s.st Reg.SYS_RESET_CAUSE_CAUSE = 4 → Gives (.startUp e) s fun u =>
    u.mode = (if s.st Reg.SYS_STRAPS_COMPAT = 0 then 1 else 5) ∧ u.st Reg.SYS_START_STEP = 7 ∧ u.time = s.time)) ∧
  ((∀ (r : Rail) (mv : Nat) (t : Time) (s : State), Gives (.dip r mv t) s fun u =>
    u.st Reg.SYS_SUPPLY_DIP = 1 ∧ u.st Reg.SYS_SUPPLY_BELOW / 2 ^ railNo r % 2 = 1 ∧ Counts (dipCount r) s u ∧ Raised u 0x010 (railNo r) ∧
    u.st (Reg.SYS_SUPPLY_MINj.ix (railNo r)) ≤ mv ∧ u.st Reg.ALM_STATUS_CAL_STATE ≠ 0 ∧ (u.memc.get 0).training = false ∧
    (u.memc.get 1).training = false ∧ (s.lv Reg.SYS_SUPPLY_LIGHT_HOLD ≠ 0 → u.st Reg.SYS_SUPPLY_HOLDING ≠ 0 ∧ u.holds.fst = true) ∧ u.mem = s.mem) ∧
  (∀ (r : Rail) (t : Time) (s : State), s.st Reg.SYS_SUPPLY_DIP ≠ 0 →
    (s.st Reg.SYS_SUPPLY_BELOW = 2 ^ railNo r → Gives (.recover r t) s fun u =>
      u.st Reg.SYS_SUPPLY_DIP = 0 ∧ u.st Reg.SYS_SUPPLY_BELOW = 0 ∧ Raised u 0x010 3 ∧ u.cal.railsBack = some t) ∧
    (∀ x : Rail, x ≠ r → s.st Reg.SYS_SUPPLY_BELOW / 2 ^ railNo x % 2 = 1 → Gives (.recover r t) s fun u =>
      u.st Reg.SYS_SUPPLY_DIP = s.st Reg.SYS_SUPPLY_DIP ∧ u.st Reg.SYS_SUPPLY_BELOW / 2 ^ railNo r % 2 = 0 ∧
      u.st Reg.SYS_SUPPLY_BELOW / 2 ^ railNo x % 2 = 1)) ∧
  (∀ (t r : Time) (s : State), s.holds.fst = true → s.st Reg.SYS_SUPPLY_DIP = 0 → s.cal.railsBack = some r →
    (((100000 * duPerNs : Nat) : Int) ≤ tDiff t r → Gives (.lightHoldEnd t) s fun u => u.holds.fst = false ∧ u.holds.snd = s.holds.snd ∧
      (s.holds.snd = false → u.st Reg.SYS_SUPPLY_HOLDING = 0)) ∧
    (tDiff t r < ((100000 * duPerNs : Nat) : Int) → Gives (.lightHoldEnd t) s fun u => u = advance t s)) ∧
  (∀ (l : List Int) (s : State),
    (((10 * s.lv Reg.SYS_THERM_WARN : Nat) : Int) ≤ hottest (tempsOf s l) → Gives (.thermWarn l) s fun u => Raised u 0x010 4 ∧
      ∀ k : Fin 4, u.stS (Reg.SYS_TEMPk.ix k) = satS 16 ((tempsOf s l).getD k 0)) ∧
    (hottest (tempsOf s l) < ((10 * s.lv Reg.SYS_THERM_WARN : Nat) : Int) → Gives (.thermWarn l) s fun u => u.st (irqStatus 0x010) = s.st (irqStatus 0x010)) ∧
    (1150 ≤ hottest (tempsOf s l) → Gives (.thermTrip l) s fun u =>
      u.st Reg.SYS_THERM_STATUS_TRIP = 1 ∧ Raised u 0x010 5 ∧ u.holds.snd = true ∧ u.st Reg.SYS_SUPPLY_HOLDING ≠ 0) ∧
    (s.holds.snd = true → s.st Reg.SYS_THERM_STATUS_TRIP = 0 → hottest (tempsOf s l) < 10 * ((s.lv Reg.SYS_THERM_WARN : Int) - 5) →
      Gives (.thermHoldEnd l) s fun u => u.holds.snd = false ∧ u.holds.fst = s.holds.fst ∧
        (s.holds.fst = false → u.st Reg.SYS_SUPPLY_HOLDING = 0))))

/-! ### the whole machine -/

/-- R55, R57, R349, R551, R565: what reset leaves. The device is in RESET with device time 0, every field of every page as written, in force and as status at its reset value (a few of them in numbers), the lanes
OFF, the zone cores in RESET, no interrupt pending, record memory listing nothing, no command waiting. What record memory reads as before training and what flash holds are the model's choices. The model's readings here: log entries 4, 5, 6. -/
def Obligations.ResetLeaves : Prop :=
  State.reset.mode = 0 ∧ State.reset.time = 0 ∧ State.reset.pending = [] ∧ State.reset.mem = [] ∧ memWf State.reset.mem = true ∧
  (∀ f : Fld, State.reset.st f = f.reset ∧ State.reset.sh f = f.reset ∧ State.reset.lv f = f.reset) ∧
  (∀ n : Lane, State.reset.laneState n = 0) ∧ (∀ n : Core, State.reset.coreState n = 0 ∧ State.reset.core n = {}) ∧
  (∀ p b, ¬ Raised State.reset p b) ∧ (∀ t, deliverable State.reset t = []) ∧
  State.reset.lv Reg.SYS_MODE_DEV = 1 ∧ State.reset.lv Reg.MERID_PERIOD_PERIOD_NS = 1000000 ∧ State.reset.lv Reg.SYS_THERM_WARN = 100 ∧
  State.reset.lv (Reg.DMACHn_CFG_RING_K.pg 63) = 12 ∧ State.reset.lv Reg.STRM_LEASE_MAX = 3600 ∧ State.reset.lv (Reg.PHZn_GAUGE_G.pg 1) = 8 ∧
  State.reset.st Reg.LDRV_GATE_STATUS_PEER_ACT_IN = 1 ∧ State.reset.st Reg.LDRV_GATE_STATUS_ACT_OUT = 0 ∧
  State.reset.st Reg.PTP_STATUS_STATE = 3 ∧ State.reset.lv Reg.B50_POINTS = 8192 ∧ srcFallback State.reset 0x105 = 1

/-- The queue: a step takes the command in front and runs it on the state with the queue's rest; with nothing waiting the block idles. The model's readings here: log entry 1. -/
def Obligations.StepRunsTheFrontCommand : Prop :=
  ∀ (c : Instr) (r : List Instr) (s : State),
    (s.pending = c :: r → step s = exec c { s with pending := r }) ∧ (s.pending = [] → step s = .next s)

/-- Every command, in every state, has its effect: `exec` answers a next state, and it leaves the queue alone. The model's readings here: log entry 3. -/
def Obligations.EveryCommandRuns : Prop := ∀ (c : Instr) (s : State), ∃ t, exec c s = .next t ∧ t.pending = s.pending

/-- R298 to R301: words of zone-core instructions written out bit by bit. -/
def Obligations.ZoneWordsDecode : Prop :=
  ∀ n : Core,
    -- MAC A0, D0.M, D0.M ‖ X:(P0)+ → D0; D1 and D1; D0.M, D0.M alone
    zcDecode n 0xC8212200 = some (.mac n ⟨0, 0, .m, 0, .m, .ss, true, 0, .inc, 0, false, 0, .none, 0⟩) ∧
    zcDecode n 0xC8A52280 = some (.mac n ⟨0, 1, .m, 1, .m, .ss, true, 0, .inc, 1, false, 0, .none, 0⟩) ∧
    zcDecode n 0xC8210000 = some (.mac n ⟨0, 0, .m, 0, .m, .ss, false, 0, .none, 0, false, 0, .none, 0⟩) ∧
    -- 00 0000 …: NOP; 10 001000 011 101 000 imm: ADDI D3, D5, −1; 10 110010 110 010 … 10: ST D6, (P2)−; 10 111010 001 … 00010: MOVS D1, IPC
    zcDecode n 0 = some (.nop n) ∧ zcDecode n 0x88747FFF = some (.addi n 3 5 0x7FFF) ∧ zcDecode n 0xB2C80002 = some (.st n 6 2 .dec) ∧
    zcDecode n 0xBA200002 = some (.movs n 1 2) ∧
    -- 00 0001 0101 …: BR GT; 00 0101 count LE: LOOPI 170, 0x206
    zcDecode n 0x05401ABC = some (.br n .gt 0x1ABC) ∧ zcDecode n 0x14154206 = some (.loopi n 170 0x206) ∧
    -- reserved: a format, an operation, a condition, a special register, a field code
    zcDecode n 0x40000000 = none ∧ zcDecode n 0x9D000000 = none ∧ zcDecode n 0x07400000 = none ∧ zcDecode n 0xBA20000B = none ∧
    zcDecode n 0xC8612200 = none

/-- The instruction that a word spells, without what a load of it meets in the core's memories. -/
def Sys2Proof.Claims.plain (i : Instr) : Instr := match i with | .ld n d a u _ => .ld n d a u noSram | _ => i

/-- R298 to R301: every zone-core instruction, with every operand, reads back from the word that its encoding gives; the word has 32 bits. -/
def Obligations.ZoneCodeReadsBack : Prop :=
  ∀ (i : Instr) (n : Core) (w : Nat), zcEncode i = some (n, w) → w < 2 ^ 32 ∧ zcDecode n w = some (plain i)

/-- R349, R351: record memory keeps its canonical form, whatever command is in front. The model's readings here: log entry 4. -/
def Obligations.MemoryStaysCanonical : Prop := ∀ s t : State, s.memOk → step s = .next t → t.memOk

/-- The commands that may change record memory: those that store records, rows, traces or contexts, clear a context, or set down a segment's header after a copy, writes by address, host and firmware writes, requests, training, and the resets that lose its contents. -/
def Sys2Proof.Claims.storesTo : Instr → Bool
  | .meridianTick .. | .phzProcess .. | .laneDrainEnd .. | .traceFrame .. | .slowPart .. | .segmentClose .. | .rearm .. | .holdExpired .. |
    .segCopyDone .. | .dcmpGo .. | .dcmpRecord .. | .registerWrite .. | .pageSoftReset .. | .cmpCodeDone .. | .cmpSaveDone .. | .abandoned .. | .trainDone .. | .memcRequest .. | .bar2Access .. | .copyTransfer .. | .fwChunk .. |
    .b50Shot .. | .por .. | .resetN .. | .supplyReset .. | .startUp .. => true
  | _ => false

/-- The commands that program flash or one-time-programmable memory. -/
def Sys2Proof.Claims.programs : Instr → Bool
  | .fwInstall .. | .fwSelect .. | .fwCommitSvn .. => true
  | _ => false

/-- The frame of storage: every other command leaves every byte of record memory, and every byte of flash, as it was. The model's readings here: log entry 64. -/
def Obligations.StorageChangesOnlyByItsCommands : Prop :=
  ∀ (c : Instr) (s t : State), exec c s = .next t →
    (storesTo c = false → t.mem = s.mem) ∧ (programs c = false → t.flash = s.flash)

/-- R47: from B50 mode no command leads to any mode but RESET. -/
def Obligations.B50IsLeftOnlyByReset : Prop :=
  ∀ (c : Instr) (s t : State), s.mode = 5 → exec c s = .next t → t.mode = 5 ∨ t.mode = 0

/-- One bit of a message enters the CRC register (R319): the register moves down, and where the bit that leaves it differs from the message's, the reflected polynomial is added. -/
def Sys2Proof.Claims.crcBit (c : BitVec 32) (b : Bool) : BitVec 32 := (c >>> 1) ^^^ (if c.getLsbD 0 == b then 0 else 0x82F63B78)

/-- R319: CRC-32C: from 0xFFFF_FFFF, the message's bits in order, each byte least significant bit first, and the register inverted at the end; that of the string 123456789 is 0xE306_9283. -/
def Obligations.CrcIsCastagnoli : Prop :=
  (∀ l : List Byte, crc32c l =
    (((l.flatMap fun b => (List.range 8).map fun k => b.getLsbD k).foldl crcBit 0xFFFFFFFF#32) ^^^ 0xFFFFFFFF#32).toNat) ∧
  crc32c [0x31, 0x32, 0x33, 0x34, 0x35, 0x36, 0x37, 0x38, 0x39] = 0xE3069283

/-! ### frames -/

/-- The registers that a zone-core instruction writes as it issues, beside the program counter: SR where it sets flags, the pointers that it updates, XC, and the register it names. None for instructions that
do more than compute, load and store. -/
def Sys2Proof.Claims.zoneWrites (i : Instr) : Option (List Nat) :=
  match i with
  | .mpy _ p | .mac _ p | .msu _ p => some (zX 0 :: (if p.xe then [zP p.xp.val] else []) ++ if p.ye then [zP (4 + p.yp.val)] else [])
  | .move _ p => some ((if p.xe then [zP p.xp.val] else []) ++ if p.ye then [zP (4 + p.yp.val)] else [])
  | .add .. | .sub .. | .and .. | .or .. | .xor .. | .asr .. | .lsr .. | .lsl .. | .addi .. | .cmp .. | .cmpi .. | .abs .. | .neg .. | .extu .. | .exts .. |
    .adda .. | .sha .. | .clrv .. | .setie .. => some [zX 0]
  | .min .. | .max .. | .movi .. | .orsh .. | .mov .. | .mova .. | .movta .. | .clra .. | .rdp .. | .rdb .. | .rdl .. | .ldo .. | .sto .. | .ldd .. |
    .std .. | .movs .. | .nop .. => some []
  | .minx .. | .maxx .. | .minxu .. | .maxxu .. => some [zX 4]
  | .movp _ d _ | .ldpi _ d _ | .addp _ d _ => some [zP d]
  | .movb _ d _ | .ldbi _ d _ => some [zB d]
  | .movl _ d _ | .ldli _ d _ => some [zL d]
  | .ld _ _ p _ _ | .lda _ _ p _ | .st _ _ p _ | .sta _ _ p _ => some [zP p]
  | .movsr _ _ x => some [zX x]
  | _ => none

/-- The words of a core's memories that an instruction reads. -/
def Sys2Proof.Claims.zoneReads (i : Instr) (c : ZCore) : List Nat :=
  match i with
  | .mpy _ p | .mac _ p | .msu _ p | .move _ p => ZCore.parAddrs p c
  | .ld _ _ a _ _ | .lda _ _ a _ => [c.ptr a]
  | .ldo _ _ a off => [c.offAddr a off]
  | .ldd _ _ y addr => [(if y then 4096 else 0) + addr.toNat]
  | _ => []

/-- The instruction meets no error in the core's memories (R314). -/
def Sys2Proof.Claims.clean (i : Instr) (c : ZCore) : Prop := plain i = i ∧ ∀ m ∈ zoneReads i c, c.bad.contains m = false

/-- R293, R294, R300, R314: the frame of the zone cores. An instruction, IN and OUT apart, leaves every other core, every register outside its core's page and, where it meets no SRAM error, every other part of the machine
as they were; one that meets one touches the error counts of the SYS page as well. One that computes, loads or stores leaves its core as it saw it but for registers, the writes under way and its position, and of the registers it changes at once only the program counter and those it is to write. The model's readings here: log entry 53. -/
def Obligations.ZoneInstructionsKeepTheRest : Prop :=
  ∀ (i : Instr) (n : Core) (w : Nat) (s : State), zcEncode i = some (n, w) → ∃ u, exec i s = .next u ∧
    (∀ l, issues n i s → clean i (s.core n) → zoneWrites i = some l →
      u.core n = { seen n s with
        regs := (u.core n).regs, regW := (u.core n).regW, memW := (u.core n).memW, loopW := (u.core n).loopW, pos := (s.core n).pos + 1 } ∧
      ∀ r, r ≠ zPC → r ∉ l → (u.core n).reg r = (seen n s).reg r) ∧
    ((match i with | .inp .. => false | .out .. => false | _ => true) = true →
      u = { s with status := u.status, zc := u.zc } ∧ (∀ m, m ≠ n → u.core m = s.core m) ∧
      ∀ f : Fld, f.key / 131072 ≠ 0x040 + n → (f.key / 131072 ≠ 0x010 ∨ clean i (s.core n)) → u.st f = s.st f)

/-- What each command of the lanes, of time, of light, of the front end, of the slow-time chain, of the sensors and of the zones may change: the state `s` with those parts taken from `u`. -/
def Sys2Proof.Claims.withinPipeline (c : Instr) (s u : State) : State :=
  match c with
  | .loopSat .. | .servoSat .. | .pdbLimit .. | .throttle .. | .settleEnd .. =>
    { s with status := u.status }
  | .arcDecision .. =>
    { s with status := u.status, rxf := u.rxf }
  | .segmentFree .. =>
    { s with status := u.status, capt := u.capt }
  | .ramanReturn .. =>
    { s with status := u.status, raman := u.raman }
  | .epochWrap .. =>
    { s with status := u.status, time := u.time, tbase := u.tbase }
  | .ivResultRead .. =>
    { s with req := u.req, tdc := u.tdc, out := u.out }
  | .loopUpdate .. =>
    { s with status := u.status, loops := u.loops, drive := u.drive }
  | .auxResultRead .. =>
    { s with status := u.status, req := u.req, out := u.out }
  | .inLost .. | .holdoverChangeover .. | .adjDone .. | .ppsLost .. | .ivWindowEnd .. | .dlUnlock .. | .scanGapEnd .. =>
    { s with status := u.status, time := u.time, tbase := u.tbase, tdc := u.tdc }
  | .faultClear .. =>
    { s with status := u.status, loops := u.loops, drive := u.drive, out := u.out }
  | .mfDataWrite .. =>
    { s with status := u.status, req := u.req, shotp := u.shotp, out := u.out }
  | .coefWrite .. =>
    { s with status := u.status, req := u.req, slow := u.slow, out := u.out }
  | .captRelease .. =>
    { s with status := u.status, commits := u.commits, capt := u.capt, out := u.out }
  | .holdExpired .. =>
    { s with status := u.status, capt := u.capt, mem := u.mem, poison := u.poison }
  | .zoneDataWrite .. =>
    { s with commits := u.commits, req := u.req, zone := u.zone, out := u.out }
  | .overrun .. =>
    { s with status := u.status, shots := u.shots, budget := u.budget, shotp := u.shotp, free := u.free }
  | .refBack .. =>
    { s with status := u.status, time := u.time, tbase := u.tbase, tdc := u.tdc, causes := u.causes }
  | .ppsOutFall .. =>
    { s with status := u.status, time := u.time, tbase := u.tbase, tdc := u.tdc, out := u.out }
  | .launchWindowEnd .. =>
    { s with status := u.status, time := u.time, tbase := u.tbase, tdc := u.tdc, shots := u.shots }
  | .dtsPeriodEnd .. =>
    { s with status := u.status, time := u.time, tbase := u.tbase, tdc := u.tdc, raman := u.raman }
  | .auxConversionStart .. | .dwellEnd .. =>
    { s with status := u.status, time := u.time, tbase := u.tbase, tdc := u.tdc, aux := u.aux }
  | .pageCommit .. | .tbaseAdj .. =>
    { s with status := u.status, commits := u.commits, time := u.time, tbase := u.tbase, tdc := u.tdc, out := u.out }
  | .shotProcess .. =>
    { s with status := u.status, shots := u.shots, budget := u.budget, rxf := u.rxf, shotp := u.shotp, free := u.free }
  | .meridOutPulse .. =>
    { s with status := u.status, time := u.time, tbase := u.tbase, tdc := u.tdc, merid := u.merid, out := u.out }
  | .ppsInEdge .. | .tdcEdge .. | .evtFlush .. =>
    { s with status := u.status, time := u.time, tbase := u.tbase, tdc := u.tdc, cmp := u.cmp, strm := u.strm }
  | .qdataPop .. | .timeSnapshotRead .. =>
    { s with status := u.status, req := u.req, time := u.time, tbase := u.tbase, tdc := u.tdc, out := u.out }
  | .rampDone .. =>
    { s with status := u.status, time := u.time, tbase := u.tbase, tdc := u.tdc, loops := u.loops, drive := u.drive }
  | .rangeChange .. =>
    { s with status := u.status, time := u.time, tbase := u.tbase, tdc := u.tdc, shots := u.shots, rxf := u.rxf }
  | .duskInjection .. =>
    { s with status := u.status, time := u.time, tbase := u.tbase, tdc := u.tdc, rxf := u.rxf, out := u.out }
  | .segmentClose .. =>
    { s with status := u.status, cmp := u.cmp, strm := u.strm, capt := u.capt, mem := u.mem, poison := u.poison }
  | .integrationEnd .. =>
    { s with status := u.status, time := u.time, tbase := u.tbase, tdc := u.tdc, aux := u.aux, free := u.free }
  | .meridInEdge .. =>
    { s with status := u.status, time := u.time, tbase := u.tbase, tdc := u.tdc, merid := u.merid, cmp := u.cmp, strm := u.strm }
  | .restartLane .. | .stopLane .. =>
    { s with status := u.status, tickQ := u.tickQ, commits := u.commits, time := u.time, tbase := u.tbase, tdc := u.tdc, out := u.out }
  | .refWindow .. | .refLost .. =>
    { s with status := u.status, time := u.time, tbase := u.tbase, tdc := u.tdc, pcie := u.pcie, causes := u.causes, out := u.out }
  | .ppsOutRise .. =>
    { s with status := u.status, time := u.time, tbase := u.tbase, tdc := u.tdc, cmp := u.cmp, strm := u.strm, out := u.out }
  | .profile .. =>
    { s with status := u.status, cmp := u.cmp, strm := u.strm, budget := u.budget, raman := u.raman, cal := u.cal, free := u.free }
  | .auxStartEdge .. =>
    { s with status := u.status, time := u.time, tbase := u.tbase, tdc := u.tdc, cmp := u.cmp, strm := u.strm, aux := u.aux }
  | .auxReq .. =>
    { s with status := u.status, commits := u.commits, time := u.time, tbase := u.tbase, tdc := u.tdc, aux := u.aux, out := u.out }
  | .forceHoldClear .. =>
    { s with shadow := u.shadow, live := u.live, status := u.status, commits := u.commits, time := u.time, tbase := u.tbase, tdc := u.tdc, out := u.out }
  | .overcurrent .. | .outputCheck .. =>
    { s with status := u.status, pcie := u.pcie, shots := u.shots, loops := u.loops, drive := u.drive, rxf := u.rxf, raman := u.raman, out := u.out }
  | .rearm .. =>
    { s with status := u.status, cmp := u.cmp, strm := u.strm, zone := u.zone, capt := u.capt, zc := u.zc, mem := u.mem, poison := u.poison }
  | .ramanLaunch .. =>
    { s with status := u.status, time := u.time, tbase := u.tbase, tdc := u.tdc, cmp := u.cmp, strm := u.strm, raman := u.raman, out := u.out }
  | .applyHoldWrite .. =>
    { s with shadow := u.shadow, live := u.live, status := u.status, commits := u.commits, time := u.time, tbase := u.tbase, tdc := u.tdc, merid := u.merid, out := u.out }
  | .traceFrame .. =>
    { s with status := u.status, cmp := u.cmp, strm := u.strm, rxf := u.rxf, shotp := u.shotp, trace := u.trace, mem := u.mem, poison := u.poison, free := u.free }
  | .auxSrcWrite .. | .auxEnable .. | .auxDisable .. =>
    { s with shadow := u.shadow, live := u.live, status := u.status, commits := u.commits, time := u.time, tbase := u.tbase, tdc := u.tdc, aux := u.aux, out := u.out }
  | .result .. =>
    { s with status := u.status, time := u.time, tbase := u.tbase, tdc := u.tdc, cmp := u.cmp, strm := u.strm, raman := u.raman, aux := u.aux, free := u.free }
  | .applyTickWrite .. =>
    { s with shadow := u.shadow, live := u.live, status := u.status, commits := u.commits, req := u.req, time := u.time, tbase := u.tbase, tdc := u.tdc, merid := u.merid, out := u.out }
  | .forceHoldSet .. =>
    { s with shadow := u.shadow, live := u.live, status := u.status, commits := u.commits, time := u.time, tbase := u.tbase, tdc := u.tdc, pcie := u.pcie, causes := u.causes, out := u.out }
  | .slotLaunch .. =>
    { s with status := u.status, time := u.time, tbase := u.tbase, tdc := u.tdc, lanes := u.lanes, cmp := u.cmp, strm := u.strm, pcie := u.pcie, shots := u.shots, rxf := u.rxf, out := u.out }
  | .phzProcess .. =>
    { s with status := u.status, cmp := u.cmp, strm := u.strm, budget := u.budget, shotp := u.shotp, phz := u.phz, slow := u.slow, capt := u.capt, mem := u.mem, poison := u.poison, free := u.free }
  | .epochSet .. =>
    { s with shadow := u.shadow, live := u.live, status := u.status, commits := u.commits, time := u.time, tbase := u.tbase, tdc := u.tdc, cmp := u.cmp, strm := u.strm, slow := u.slow, out := u.out }
  | .slowPart .. =>
    { s with status := u.status, cmp := u.cmp, strm := u.strm, budget := u.budget, slow := u.slow, zone := u.zone, capt := u.capt, zc := u.zc, mem := u.mem, poison := u.poison, free := u.free }
  | .modeStandby .. =>
    { s with shadow := u.shadow, live := u.live, status := u.status, commits := u.commits, time := u.time, tbase := u.tbase, tdc := u.tdc, rxf := u.rxf, aux := u.aux, twin := u.twin, regions := u.regions, out := u.out }
  | .gateClosed .. | .gateOpen .. =>
    { s with status := u.status, time := u.time, tbase := u.tbase, tdc := u.tdc, pcie := u.pcie, shots := u.shots, loops := u.loops, drive := u.drive, rxf := u.rxf, raman := u.raman, twin := u.twin, out := u.out }
  | .modeCalibrate .. =>
    { s with shadow := u.shadow, live := u.live, status := u.status, commits := u.commits, time := u.time, tbase := u.tbase, tdc := u.tdc, rxf := u.rxf, aux := u.aux, cal := u.cal, twin := u.twin, regions := u.regions, out := u.out }
  | _ => u

/-- The frame of chapters 2 to 11: a command answers a next state and changes the parts of the state that the table lists for it and no other part. The commands that reach most of the machine are free here: those that begin or end RUN, the tick and the end of a drain. The model's readings here: log entry 2. -/
def Obligations.PipelineCommandsKeepTheRest : Prop :=
  ∀ (c : Instr) (s : State), ∃ u, exec c s = .next u ∧ u = withinPipeline c s u

/-- What each command of the codec, memory, the network, PCIe, interrupts, stewards, calibration, twin operation, B50 and power may change: the state `s` with those parts taken from `u`. -/
def Sys2Proof.Claims.withinServices (c : Instr) (s u : State) : State :=
  match c with
  | .evqPop .. | .segGo .. =>
    { s with zc := u.zc }
  | .chainLinkAvailable .. =>
    { s with cmp := u.cmp }
  | .refreshDue .. =>
    { s with memc := u.memc }
  | .zqShort .. =>
    { s with out := u.out }
  | .addrBound .. | .announceTimeout .. | .stewardRestartDone .. | .loadWindow .. | .codeCopy .. | .outOfStep .. | .thermWarn .. | .gpioEdge .. |
    .twinLinkUp .. =>
    { s with status := u.status }
  | .twinLinkCommand .. =>
    { s with icu := u.icu }
  | .d3hotEntry .. =>
    { s with pcie := u.pcie }
  | .zcInterrupt .. | .bkptHit .. | .illegalInstruction .. =>
    { s with status := u.status, zc := u.zc }
  | .segRel .. =>
    { s with status := u.status, capt := u.capt }
  | .pauseDrop .. =>
    { s with status := u.status, cmp := u.cmp }
  | .ctxReset .. | .ctxCfgWrite .. =>
    { s with cmp := u.cmp, out := u.out }
  | .ready .. =>
    { s with status := u.status, memc := u.memc }
  | .entryFree .. =>
    { s with status := u.status, strm := u.strm }
  | .pme .. | .irqStatusClear .. | .perstNRelease .. =>
    { s with status := u.status, out := u.out }
  | .l2Entry .. =>
    { s with status := u.status, pcie := u.pcie }
  | .icuClaim .. =>
    { s with req := u.req, icu := u.icu }
  | .icuComplete .. | .stranded .. =>
    { s with status := u.status, icu := u.icu }
  | .srcCfgWrite .. =>
    { s with icu := u.icu, out := u.out }
  | .wdtWarning .. | .uartReceive .. =>
    { s with icu := u.icu, stew := u.stew }
  | .twinLinkDown .. =>
    { s with status := u.status, req := u.req }
  | .pairHiWrite .. =>
    { s with req := u.req, out := u.out }
  | .msixUnmask .. =>
    { s with pcie := u.pcie, out := u.out }
  | .cmpTake .. | .cmpRestoreDone .. | .linkUp .. | .auxRecordFlush .. =>
    { s with status := u.status, cmp := u.cmp, strm := u.strm }
  | .dcmpAbort .. =>
    { s with commits := u.commits, cmp := u.cmp, out := u.out }
  | .dcmpClear .. =>
    { s with status := u.status, commits := u.commits, out := u.out }
  | .regionWrite .. =>
    { s with status := u.status, regionShadow := u.regionShadow, out := u.out }
  | .descFetch .. | .modTimeout .. | .b50DescPoll .. | .b50Doorbell .. | .b50IrqClear .. | .completionTimeout .. =>
    { s with status := u.status, pcie := u.pcie, out := u.out }
  | .icuSwSet .. | .privSwSet .. =>
    { s with commits := u.commits, icu := u.icu, out := u.out }
  | .wdt .. | .mcheck .. =>
    { s with status := u.status, icu := u.icu, stew := u.stew }
  | .getInfo .. | .twinStatusOp .. =>
    { s with strm := u.strm, mbox := u.mbox, free := u.free }
  | .zcStart .. | .haltReq .. | .zcStep .. | .clrFault .. =>
    { s with status := u.status, commits := u.commits, zc := u.zc, out := u.out }
  | .zcMemWrite .. =>
    { s with status := u.status, req := u.req, zc := u.zc, out := u.out }
  | .memcTrain .. =>
    { s with status := u.status, commits := u.commits, memc := u.memc, out := u.out }
  | .db .. =>
    { s with status := u.status, commits := u.commits, pcie := u.pcie, out := u.out }
  | .mboxDone .. =>
    { s with status := u.status, pcie := u.pcie, mbox := u.mbox, out := u.out }
  | .peerLost .. | .dlLock .. =>
    { s with status := u.status, time := u.time, tbase := u.tbase, tdc := u.tdc }
  | .nwTest .. =>
    { s with status := u.status, rxf := u.rxf, twin := u.twin, out := u.out }
  | .cmpSaveDone .. | .abandoned .. =>
    { s with status := u.status, cmp := u.cmp, capt := u.capt, mem := u.mem, poison := u.poison }
  | .trainDone .. =>
    { s with live := u.live, status := u.status, mem := u.mem, poison := u.poison, memc := u.memc }
  | .agePromote .. | .scrubRead .. | .scrubUrgent .. =>
    { s with status := u.status, time := u.time, tbase := u.tbase, tdc := u.tdc, memc := u.memc }
  | .readData .. =>
    { s with status := u.status, mem := u.mem, poison := u.poison, memc := u.memc, free := u.free }
  | .data .. | .linkDown .. =>
    { s with status := u.status, cmp := u.cmp, strm := u.strm, pcie := u.pcie, out := u.out }
  | .ptpMessageSend .. =>
    { s with status := u.status, time := u.time, tbase := u.tbase, tdc := u.tdc, strm := u.strm }
  | .bar2Access .. =>
    { s with status := u.status, mem := u.mem, poison := u.poison, free := u.free, out := u.out }
  | .flr .. | .pcieReset .. =>
    { s with status := u.status, req := u.req, cmp := u.cmp, strm := u.strm, pcie := u.pcie }
  | .fwChunk .. =>
    { s with strm := u.strm, mbox := u.mbox, mem := u.mem, poison := u.poison, free := u.free }
  | .fwSelect .. =>
    { s with strm := u.strm, mbox := u.mbox, flash := u.flash, free := u.free, out := u.out }
  | .fwCommitSvn .. =>
    { s with status := u.status, strm := u.strm, mbox := u.mbox, flash := u.flash, free := u.free }
  | .calAdcIlv .. | .calIq .. | .calTdc .. | .calAux .. | .calDtsBath .. =>
    { s with status := u.status, strm := u.strm, mbox := u.mbox, cal := u.cal, free := u.free }
  | .calRun2Start .. | .squeezeWindow .. =>
    { s with status := u.status, time := u.time, tbase := u.tbase, tdc := u.tdc, cal := u.cal }
  | .almUserWrite .. =>
    { s with status := u.status, commits := u.commits, req := u.req, alm := u.alm, out := u.out }
  | .b50DmaAbort .. =>
    { s with shadow := u.shadow, live := u.live, status := u.status, pcie := u.pcie, out := u.out }
  | .thermHoldEnd .. =>
    { s with status := u.status, loops := u.loops, drive := u.drive, holds := u.holds, out := u.out }
  | .segCopyDone .. =>
    { s with status := u.status, capt := u.capt, zc := u.zc, icu := u.icu, mem := u.mem, poison := u.poison }
  | .tmrCommit .. | .zcTimer .. =>
    { s with status := u.status, time := u.time, tbase := u.tbase, tdc := u.tdc, zc := u.zc, icu := u.icu }
  | .dcmpRecord .. =>
    { s with status := u.status, cmp := u.cmp, pcie := u.pcie, mem := u.mem, poison := u.poison, out := u.out }
  | .hello .. | .renew .. | .status .. =>
    { s with status := u.status, time := u.time, tbase := u.tbase, tdc := u.tdc, strm := u.strm, mbox := u.mbox }
  | .joinHoldoffEnd .. =>
    { s with status := u.status, time := u.time, tbase := u.tbase, tdc := u.tdc, cmp := u.cmp, strm := u.strm }
  | .dmaGo .. | .rpWrite .. =>
    { s with shadow := u.shadow, live := u.live, status := u.status, commits := u.commits, pcie := u.pcie, out := u.out }
  | .dmaAbort .. =>
    { s with status := u.status, commits := u.commits, cmp := u.cmp, strm := u.strm, pcie := u.pcie, out := u.out }
  | .stewardTimer .. =>
    { s with status := u.status, time := u.time, tbase := u.tbase, tdc := u.tdc, icu := u.icu, stew := u.stew }
  | .zcLoad .. =>
    { s with shadow := u.shadow, live := u.live, strm := u.strm, zc := u.zc, mbox := u.mbox, free := u.free }
  | .fwInstall .. =>
    { s with status := u.status, strm := u.strm, mbox := u.mbox, flash := u.flash, free := u.free, out := u.out }
  | .heartbeatSend .. | .mirrorSend .. | .mirrorResend .. =>
    { s with status := u.status, time := u.time, tbase := u.tbase, tdc := u.tdc, twin := u.twin, out := u.out }
  | .addrAnnounce .. =>
    { s with status := u.status, time := u.time, tbase := u.tbase, tdc := u.tdc, strm := u.strm, twin := u.twin }
  | .b50DmaEn .. =>
    { s with shadow := u.shadow, live := u.live, status := u.status, pcie := u.pcie, b50 := u.b50, out := u.out }
  | .recover .. =>
    { s with status := u.status, time := u.time, tbase := u.tbase, tdc := u.tdc, cal := u.cal, causes := u.causes }
  | .dcmpGo .. =>
    { s with status := u.status, commits := u.commits, cmp := u.cmp, pcie := u.pcie, mem := u.mem, poison := u.poison, out := u.out }
  | .memcRequest .. =>
    { s with status := u.status, time := u.time, tbase := u.tbase, tdc := u.tdc, mem := u.mem, poison := u.poison, memc := u.memc }
  | .memcIssue .. =>
    { s with status := u.status, time := u.time, tbase := u.tbase, tdc := u.tdc, memc := u.memc, free := u.free, out := u.out }
  | .unsubscribe .. =>
    { s with status := u.status, time := u.time, tbase := u.tbase, tdc := u.tdc, cmp := u.cmp, strm := u.strm, mbox := u.mbox }
  | .ethTxFrame .. =>
    { s with status := u.status, time := u.time, tbase := u.tbase, tdc := u.tdc, cmp := u.cmp, strm := u.strm, out := u.out }
  | .abortDone .. | .d0Return .. | .pcieLinkUp .. =>
    { s with shadow := u.shadow, live := u.live, status := u.status, cmp := u.cmp, strm := u.strm, pcie := u.pcie, out := u.out }
  | .dmaCfgWrite .. =>
    { s with shadow := u.shadow, live := u.live, status := u.status, tickQ := u.tickQ, commits := u.commits, pcie := u.pcie, out := u.out }
  | .wdtService .. =>
    { s with status := u.status, commits := u.commits, time := u.time, tbase := u.tbase, tdc := u.tdc, stew := u.stew, out := u.out }
  | .squeezeTimeout .. =>
    { s with live := u.live, status := u.status, rxf := u.rxf, aux := u.aux, cal := u.cal, twin := u.twin, out := u.out }
  | .twinAlive .. =>
    { s with status := u.status, commits := u.commits, time := u.time, tbase := u.tbase, tdc := u.tdc, twin := u.twin, out := u.out }
  | .healthWord .. =>
    { s with status := u.status, time := u.time, tbase := u.tbase, tdc := u.tdc, cmp := u.cmp, strm := u.strm, twin := u.twin }
  | .vdPost .. =>
    { s with status := u.status, time := u.time, tbase := u.tbase, tdc := u.tdc, cmp := u.cmp, strm := u.strm, zc := u.zc, free := u.free }
  | .subscribe .. | .ethRxFrame .. =>
    { s with status := u.status, time := u.time, tbase := u.tbase, tdc := u.tdc, cmp := u.cmp, strm := u.strm, mbox := u.mbox, free := u.free }
  | .leaseExpiry .. =>
    { s with status := u.status, time := u.time, tbase := u.tbase, tdc := u.tdc, cmp := u.cmp, strm := u.strm, pcie := u.pcie, out := u.out }
  | .copyTransfer .. =>
    { s with shadow := u.shadow, live := u.live, status := u.status, pcie := u.pcie, mem := u.mem, poison := u.poison, free := u.free, out := u.out }
  | .calAbort .. =>
    { s with live := u.live, status := u.status, commits := u.commits, rxf := u.rxf, aux := u.aux, cal := u.cal, twin := u.twin, out := u.out }
  | .heartbeatReceive .. =>
    { s with status := u.status, time := u.time, tbase := u.tbase, tdc := u.tdc, cmp := u.cmp, strm := u.strm, twin := u.twin, free := u.free }
  | .b50Stop .. =>
    { s with shadow := u.shadow, live := u.live, status := u.status, time := u.time, tbase := u.tbase, tdc := u.tdc, b50 := u.b50, out := u.out }
  | .b50SoftReset .. =>
    { s with shadow := u.shadow, live := u.live, status := u.status, tickQ := u.tickQ, pcie := u.pcie, loops := u.loops, drive := u.drive, out := u.out }
  | .lightHoldEnd .. =>
    { s with status := u.status, time := u.time, tbase := u.tbase, tdc := u.tdc, loops := u.loops, drive := u.drive, holds := u.holds, out := u.out }
  | .ethCfgWrite .. =>
    { s with shadow := u.shadow, live := u.live, status := u.status, tickQ := u.tickQ, commits := u.commits, cmp := u.cmp, strm := u.strm, pcie := u.pcie, out := u.out }
  | .dmaRecordWrite .. =>
    { s with status := u.status, time := u.time, tbase := u.tbase, tdc := u.tdc, cmp := u.cmp, strm := u.strm, pcie := u.pcie, b50 := u.b50, out := u.out }
  | .mboxGo .. =>
    { s with status := u.status, time := u.time, tbase := u.tbase, tdc := u.tdc, strm := u.strm, icu := u.icu, mbox := u.mbox, free := u.free, out := u.out }
  | .resync .. =>
    { s with status := u.status, time := u.time, tbase := u.tbase, tdc := u.tdc, strm := u.strm, mbox := u.mbox, twin := u.twin, free := u.free, out := u.out }
  | .thermTrip .. =>
    { s with status := u.status, pcie := u.pcie, shots := u.shots, loops := u.loops, drive := u.drive, rxf := u.rxf, raman := u.raman, holds := u.holds, out := u.out }
  | .cmpCodeDone .. =>
    { s with status := u.status, cmp := u.cmp, strm := u.strm, pcie := u.pcie, budget := u.budget, capt := u.capt, mem := u.mem, poison := u.poison, free := u.free, out := u.out }
  | .ptpEventMessage .. =>
    { s with shadow := u.shadow, live := u.live, status := u.status, time := u.time, tbase := u.tbase, tdc := u.tdc, cmp := u.cmp, strm := u.strm, slow := u.slow, free := u.free }
  | .b50Shot .. =>
    { s with status := u.status, cmp := u.cmp, strm := u.strm, pcie := u.pcie, shots := u.shots, rxf := u.rxf, b50 := u.b50, mem := u.mem, poison := u.poison, out := u.out }
  | .claimAssert .. | .claimHoldEnd .. | .backoff .. | .peerClaim .. =>
    { s with status := u.status, time := u.time, tbase := u.tbase, tdc := u.tdc, pcie := u.pcie, shots := u.shots, loops := u.loops, drive := u.drive, rxf := u.rxf, raman := u.raman, twin := u.twin, out := u.out }
  | .pairLoWrite .. =>
    { s with shadow := u.shadow, live := u.live, status := u.status, commits := u.commits, req := u.req, time := u.time, tbase := u.tbase, tdc := u.tdc, merid := u.merid, zc := u.zc, icu := u.icu, stew := u.stew, out := u.out }
  | .calRange .. =>
    { s with live := u.live, status := u.status, time := u.time, tbase := u.tbase, tdc := u.tdc, strm := u.strm, rxf := u.rxf, aux := u.aux, mbox := u.mbox, cal := u.cal, twin := u.twin, regions := u.regions, free := u.free, out := u.out }
  | .bgCheck .. =>
    { s with live := u.live, status := u.status, commits := u.commits, time := u.time, tbase := u.tbase, tdc := u.tdc, loops := u.loops, drive := u.drive, rxf := u.rxf, phz := u.phz, slow := u.slow, raman := u.raman, zone := u.zone, alm := u.alm, stew := u.stew, causes := u.causes }
  | .b50Run .. =>
    { s with shadow := u.shadow, live := u.live, status := u.status, time := u.time, tbase := u.tbase, tdc := u.tdc, merid := u.merid, lanes := u.lanes, cmp := u.cmp, strm := u.strm, pcie := u.pcie, shots := u.shots, rxf := u.rxf, twin := u.twin, b50 := u.b50, out := u.out }
  | _ => u

/-- The frame of chapters 12 to 23: a command answers a next state and changes the parts of the state that the table lists for it and no other part. The commands that reach most of the machine are free here: a takeover, a mirror message, reads and writes by address, and resets. The model's readings here: log entry 2. -/
def Obligations.ServiceCommandsKeepTheRest : Prop :=
  ∀ (c : Instr) (s : State), ∃ u, exec c s = .next u ∧ u = withinServices c s u
end

