-- ==== Sys2Proof/Laws/State.lean ====
section
/-!
SUPPORT. What each update of State leaves alone, field by field, and what a status field or a field in force reads after one.
-/

namespace Sys2Proof.Machine

/-! ### each shared update, by the field it leaves alone -/
@[simp] theorem setSt_shadow (f : Fld) (v : Nat) (s : State) : (s.setSt f v).shadow = s.shadow := rfl
@[simp] theorem setSt_live (f : Fld) (v : Nat) (s : State) : (s.setSt f v).live = s.live := rfl
@[simp] theorem setSt_tickQ (f : Fld) (v : Nat) (s : State) : (s.setSt f v).tickQ = s.tickQ := rfl
@[simp] theorem setSt_commits (f : Fld) (v : Nat) (s : State) : (s.setSt f v).commits = s.commits := rfl
@[simp] theorem setSt_req (f : Fld) (v : Nat) (s : State) : (s.setSt f v).req = s.req := rfl
@[simp] theorem setSt_time (f : Fld) (v : Nat) (s : State) : (s.setSt f v).time = s.time := rfl
@[simp] theorem setSt_tbase (f : Fld) (v : Nat) (s : State) : (s.setSt f v).tbase = s.tbase := rfl
@[simp] theorem setSt_tdc (f : Fld) (v : Nat) (s : State) : (s.setSt f v).tdc = s.tdc := rfl
@[simp] theorem setSt_merid (f : Fld) (v : Nat) (s : State) : (s.setSt f v).merid = s.merid := rfl
@[simp] theorem setSt_lanes (f : Fld) (v : Nat) (s : State) : (s.setSt f v).lanes = s.lanes := rfl
@[simp] theorem setSt_cmp (f : Fld) (v : Nat) (s : State) : (s.setSt f v).cmp = s.cmp := rfl
@[simp] theorem setSt_strm (f : Fld) (v : Nat) (s : State) : (s.setSt f v).strm = s.strm := rfl
@[simp] theorem setSt_pcie (f : Fld) (v : Nat) (s : State) : (s.setSt f v).pcie = s.pcie := rfl
@[simp] theorem setSt_shots (f : Fld) (v : Nat) (s : State) : (s.setSt f v).shots = s.shots := rfl
@[simp] theorem setSt_loops (f : Fld) (v : Nat) (s : State) : (s.setSt f v).loops = s.loops := rfl
@[simp] theorem setSt_drive (f : Fld) (v : Nat) (s : State) : (s.setSt f v).drive = s.drive := rfl
@[simp] theorem setSt_budget (f : Fld) (v : Nat) (s : State) : (s.setSt f v).budget = s.budget := rfl
@[simp] theorem setSt_rxf (f : Fld) (v : Nat) (s : State) : (s.setSt f v).rxf = s.rxf := rfl
@[simp] theorem setSt_shotp (f : Fld) (v : Nat) (s : State) : (s.setSt f v).shotp = s.shotp := rfl
@[simp] theorem setSt_trace (f : Fld) (v : Nat) (s : State) : (s.setSt f v).trace = s.trace := rfl
@[simp] theorem setSt_phz (f : Fld) (v : Nat) (s : State) : (s.setSt f v).phz = s.phz := rfl
@[simp] theorem setSt_slow (f : Fld) (v : Nat) (s : State) : (s.setSt f v).slow = s.slow := rfl
@[simp] theorem setSt_raman (f : Fld) (v : Nat) (s : State) : (s.setSt f v).raman = s.raman := rfl
@[simp] theorem setSt_aux (f : Fld) (v : Nat) (s : State) : (s.setSt f v).aux = s.aux := rfl
@[simp] theorem setSt_zone (f : Fld) (v : Nat) (s : State) : (s.setSt f v).zone = s.zone := rfl
@[simp] theorem setSt_capt (f : Fld) (v : Nat) (s : State) : (s.setSt f v).capt = s.capt := rfl
@[simp] theorem setSt_zc (f : Fld) (v : Nat) (s : State) : (s.setSt f v).zc = s.zc := rfl
@[simp] theorem setSt_icu (f : Fld) (v : Nat) (s : State) : (s.setSt f v).icu = s.icu := rfl
@[simp] theorem setSt_mbox (f : Fld) (v : Nat) (s : State) : (s.setSt f v).mbox = s.mbox := rfl
@[simp] theorem setSt_alm (f : Fld) (v : Nat) (s : State) : (s.setSt f v).alm = s.alm := rfl
@[simp] theorem setSt_cal (f : Fld) (v : Nat) (s : State) : (s.setSt f v).cal = s.cal := rfl
@[simp] theorem setSt_flash (f : Fld) (v : Nat) (s : State) : (s.setSt f v).flash = s.flash := rfl
@[simp] theorem setSt_stew (f : Fld) (v : Nat) (s : State) : (s.setSt f v).stew = s.stew := rfl
@[simp] theorem setSt_twin (f : Fld) (v : Nat) (s : State) : (s.setSt f v).twin = s.twin := rfl
@[simp] theorem setSt_b50 (f : Fld) (v : Nat) (s : State) : (s.setSt f v).b50 = s.b50 := rfl
@[simp] theorem setSt_holds (f : Fld) (v : Nat) (s : State) : (s.setSt f v).holds = s.holds := rfl
@[simp] theorem setSt_causes (f : Fld) (v : Nat) (s : State) : (s.setSt f v).causes = s.causes := rfl
@[simp] theorem setSt_mem (f : Fld) (v : Nat) (s : State) : (s.setSt f v).mem = s.mem := rfl
@[simp] theorem setSt_poison (f : Fld) (v : Nat) (s : State) : (s.setSt f v).poison = s.poison := rfl
@[simp] theorem setSt_regions (f : Fld) (v : Nat) (s : State) : (s.setSt f v).regions = s.regions := rfl
@[simp] theorem setSt_regionShadow (f : Fld) (v : Nat) (s : State) : (s.setSt f v).regionShadow = s.regionShadow := rfl
@[simp] theorem setSt_memc (f : Fld) (v : Nat) (s : State) : (s.setSt f v).memc = s.memc := rfl
@[simp] theorem setSt_free (f : Fld) (v : Nat) (s : State) : (s.setSt f v).free = s.free := rfl
@[simp] theorem setSt_out (f : Fld) (v : Nat) (s : State) : (s.setSt f v).out = s.out := rfl
@[simp] theorem setSt_pending (f : Fld) (v : Nat) (s : State) : (s.setSt f v).pending = s.pending := rfl

@[simp] theorem setLive_shadow (f : Fld) (v : Nat) (s : State) : (s.setLive f v).shadow = s.shadow := rfl
@[simp] theorem setLive_status (f : Fld) (v : Nat) (s : State) : (s.setLive f v).status = s.status := rfl
@[simp] theorem setLive_tickQ (f : Fld) (v : Nat) (s : State) : (s.setLive f v).tickQ = s.tickQ := rfl
@[simp] theorem setLive_commits (f : Fld) (v : Nat) (s : State) : (s.setLive f v).commits = s.commits := rfl
@[simp] theorem setLive_req (f : Fld) (v : Nat) (s : State) : (s.setLive f v).req = s.req := rfl
@[simp] theorem setLive_time (f : Fld) (v : Nat) (s : State) : (s.setLive f v).time = s.time := rfl
@[simp] theorem setLive_tbase (f : Fld) (v : Nat) (s : State) : (s.setLive f v).tbase = s.tbase := rfl
@[simp] theorem setLive_tdc (f : Fld) (v : Nat) (s : State) : (s.setLive f v).tdc = s.tdc := rfl
@[simp] theorem setLive_merid (f : Fld) (v : Nat) (s : State) : (s.setLive f v).merid = s.merid := rfl
@[simp] theorem setLive_lanes (f : Fld) (v : Nat) (s : State) : (s.setLive f v).lanes = s.lanes := rfl
@[simp] theorem setLive_cmp (f : Fld) (v : Nat) (s : State) : (s.setLive f v).cmp = s.cmp := rfl
@[simp] theorem setLive_strm (f : Fld) (v : Nat) (s : State) : (s.setLive f v).strm = s.strm := rfl
@[simp] theorem setLive_pcie (f : Fld) (v : Nat) (s : State) : (s.setLive f v).pcie = s.pcie := rfl
@[simp] theorem setLive_shots (f : Fld) (v : Nat) (s : State) : (s.setLive f v).shots = s.shots := rfl
@[simp] theorem setLive_loops (f : Fld) (v : Nat) (s : State) : (s.setLive f v).loops = s.loops := rfl
@[simp] theorem setLive_drive (f : Fld) (v : Nat) (s : State) : (s.setLive f v).drive = s.drive := rfl
@[simp] theorem setLive_budget (f : Fld) (v : Nat) (s : State) : (s.setLive f v).budget = s.budget := rfl
@[simp] theorem setLive_rxf (f : Fld) (v : Nat) (s : State) : (s.setLive f v).rxf = s.rxf := rfl
@[simp] theorem setLive_shotp (f : Fld) (v : Nat) (s : State) : (s.setLive f v).shotp = s.shotp := rfl
@[simp] theorem setLive_trace (f : Fld) (v : Nat) (s : State) : (s.setLive f v).trace = s.trace := rfl
@[simp] theorem setLive_phz (f : Fld) (v : Nat) (s : State) : (s.setLive f v).phz = s.phz := rfl
@[simp] theorem setLive_slow (f : Fld) (v : Nat) (s : State) : (s.setLive f v).slow = s.slow := rfl
@[simp] theorem setLive_raman (f : Fld) (v : Nat) (s : State) : (s.setLive f v).raman = s.raman := rfl
@[simp] theorem setLive_aux (f : Fld) (v : Nat) (s : State) : (s.setLive f v).aux = s.aux := rfl
@[simp] theorem setLive_zone (f : Fld) (v : Nat) (s : State) : (s.setLive f v).zone = s.zone := rfl
@[simp] theorem setLive_capt (f : Fld) (v : Nat) (s : State) : (s.setLive f v).capt = s.capt := rfl
@[simp] theorem setLive_zc (f : Fld) (v : Nat) (s : State) : (s.setLive f v).zc = s.zc := rfl
@[simp] theorem setLive_icu (f : Fld) (v : Nat) (s : State) : (s.setLive f v).icu = s.icu := rfl
@[simp] theorem setLive_mbox (f : Fld) (v : Nat) (s : State) : (s.setLive f v).mbox = s.mbox := rfl
@[simp] theorem setLive_alm (f : Fld) (v : Nat) (s : State) : (s.setLive f v).alm = s.alm := rfl
@[simp] theorem setLive_cal (f : Fld) (v : Nat) (s : State) : (s.setLive f v).cal = s.cal := rfl
@[simp] theorem setLive_flash (f : Fld) (v : Nat) (s : State) : (s.setLive f v).flash = s.flash := rfl
@[simp] theorem setLive_stew (f : Fld) (v : Nat) (s : State) : (s.setLive f v).stew = s.stew := rfl
@[simp] theorem setLive_twin (f : Fld) (v : Nat) (s : State) : (s.setLive f v).twin = s.twin := rfl
@[simp] theorem setLive_b50 (f : Fld) (v : Nat) (s : State) : (s.setLive f v).b50 = s.b50 := rfl
@[simp] theorem setLive_holds (f : Fld) (v : Nat) (s : State) : (s.setLive f v).holds = s.holds := rfl
@[simp] theorem setLive_causes (f : Fld) (v : Nat) (s : State) : (s.setLive f v).causes = s.causes := rfl
@[simp] theorem setLive_mem (f : Fld) (v : Nat) (s : State) : (s.setLive f v).mem = s.mem := rfl
@[simp] theorem setLive_poison (f : Fld) (v : Nat) (s : State) : (s.setLive f v).poison = s.poison := rfl
@[simp] theorem setLive_regions (f : Fld) (v : Nat) (s : State) : (s.setLive f v).regions = s.regions := rfl
@[simp] theorem setLive_regionShadow (f : Fld) (v : Nat) (s : State) : (s.setLive f v).regionShadow = s.regionShadow := rfl
@[simp] theorem setLive_memc (f : Fld) (v : Nat) (s : State) : (s.setLive f v).memc = s.memc := rfl
@[simp] theorem setLive_free (f : Fld) (v : Nat) (s : State) : (s.setLive f v).free = s.free := rfl
@[simp] theorem setLive_out (f : Fld) (v : Nat) (s : State) : (s.setLive f v).out = s.out := rfl
@[simp] theorem setLive_pending (f : Fld) (v : Nat) (s : State) : (s.setLive f v).pending = s.pending := rfl

@[simp] theorem setNow_status (f : Fld) (v : Nat) (s : State) : (s.setNow f v).status = s.status := rfl
@[simp] theorem setNow_tickQ (f : Fld) (v : Nat) (s : State) : (s.setNow f v).tickQ = s.tickQ := rfl
@[simp] theorem setNow_commits (f : Fld) (v : Nat) (s : State) : (s.setNow f v).commits = s.commits := rfl
@[simp] theorem setNow_req (f : Fld) (v : Nat) (s : State) : (s.setNow f v).req = s.req := rfl
@[simp] theorem setNow_time (f : Fld) (v : Nat) (s : State) : (s.setNow f v).time = s.time := rfl
@[simp] theorem setNow_tbase (f : Fld) (v : Nat) (s : State) : (s.setNow f v).tbase = s.tbase := rfl
@[simp] theorem setNow_tdc (f : Fld) (v : Nat) (s : State) : (s.setNow f v).tdc = s.tdc := rfl
@[simp] theorem setNow_merid (f : Fld) (v : Nat) (s : State) : (s.setNow f v).merid = s.merid := rfl
@[simp] theorem setNow_lanes (f : Fld) (v : Nat) (s : State) : (s.setNow f v).lanes = s.lanes := rfl
@[simp] theorem setNow_cmp (f : Fld) (v : Nat) (s : State) : (s.setNow f v).cmp = s.cmp := rfl
@[simp] theorem setNow_strm (f : Fld) (v : Nat) (s : State) : (s.setNow f v).strm = s.strm := rfl
@[simp] theorem setNow_pcie (f : Fld) (v : Nat) (s : State) : (s.setNow f v).pcie = s.pcie := rfl
@[simp] theorem setNow_shots (f : Fld) (v : Nat) (s : State) : (s.setNow f v).shots = s.shots := rfl
@[simp] theorem setNow_loops (f : Fld) (v : Nat) (s : State) : (s.setNow f v).loops = s.loops := rfl
@[simp] theorem setNow_drive (f : Fld) (v : Nat) (s : State) : (s.setNow f v).drive = s.drive := rfl
@[simp] theorem setNow_budget (f : Fld) (v : Nat) (s : State) : (s.setNow f v).budget = s.budget := rfl
@[simp] theorem setNow_rxf (f : Fld) (v : Nat) (s : State) : (s.setNow f v).rxf = s.rxf := rfl
@[simp] theorem setNow_shotp (f : Fld) (v : Nat) (s : State) : (s.setNow f v).shotp = s.shotp := rfl
@[simp] theorem setNow_trace (f : Fld) (v : Nat) (s : State) : (s.setNow f v).trace = s.trace := rfl
@[simp] theorem setNow_phz (f : Fld) (v : Nat) (s : State) : (s.setNow f v).phz = s.phz := rfl
@[simp] theorem setNow_slow (f : Fld) (v : Nat) (s : State) : (s.setNow f v).slow = s.slow := rfl
@[simp] theorem setNow_raman (f : Fld) (v : Nat) (s : State) : (s.setNow f v).raman = s.raman := rfl
@[simp] theorem setNow_aux (f : Fld) (v : Nat) (s : State) : (s.setNow f v).aux = s.aux := rfl
@[simp] theorem setNow_zone (f : Fld) (v : Nat) (s : State) : (s.setNow f v).zone = s.zone := rfl
@[simp] theorem setNow_capt (f : Fld) (v : Nat) (s : State) : (s.setNow f v).capt = s.capt := rfl
@[simp] theorem setNow_zc (f : Fld) (v : Nat) (s : State) : (s.setNow f v).zc = s.zc := rfl
@[simp] theorem setNow_icu (f : Fld) (v : Nat) (s : State) : (s.setNow f v).icu = s.icu := rfl
@[simp] theorem setNow_mbox (f : Fld) (v : Nat) (s : State) : (s.setNow f v).mbox = s.mbox := rfl
@[simp] theorem setNow_alm (f : Fld) (v : Nat) (s : State) : (s.setNow f v).alm = s.alm := rfl
@[simp] theorem setNow_cal (f : Fld) (v : Nat) (s : State) : (s.setNow f v).cal = s.cal := rfl
@[simp] theorem setNow_flash (f : Fld) (v : Nat) (s : State) : (s.setNow f v).flash = s.flash := rfl
@[simp] theorem setNow_stew (f : Fld) (v : Nat) (s : State) : (s.setNow f v).stew = s.stew := rfl
@[simp] theorem setNow_twin (f : Fld) (v : Nat) (s : State) : (s.setNow f v).twin = s.twin := rfl
@[simp] theorem setNow_b50 (f : Fld) (v : Nat) (s : State) : (s.setNow f v).b50 = s.b50 := rfl
@[simp] theorem setNow_holds (f : Fld) (v : Nat) (s : State) : (s.setNow f v).holds = s.holds := rfl
@[simp] theorem setNow_causes (f : Fld) (v : Nat) (s : State) : (s.setNow f v).causes = s.causes := rfl
@[simp] theorem setNow_mem (f : Fld) (v : Nat) (s : State) : (s.setNow f v).mem = s.mem := rfl
@[simp] theorem setNow_poison (f : Fld) (v : Nat) (s : State) : (s.setNow f v).poison = s.poison := rfl
@[simp] theorem setNow_regions (f : Fld) (v : Nat) (s : State) : (s.setNow f v).regions = s.regions := rfl
@[simp] theorem setNow_regionShadow (f : Fld) (v : Nat) (s : State) : (s.setNow f v).regionShadow = s.regionShadow := rfl
@[simp] theorem setNow_memc (f : Fld) (v : Nat) (s : State) : (s.setNow f v).memc = s.memc := rfl
@[simp] theorem setNow_free (f : Fld) (v : Nat) (s : State) : (s.setNow f v).free = s.free := rfl
@[simp] theorem setNow_out (f : Fld) (v : Nat) (s : State) : (s.setNow f v).out = s.out := rfl
@[simp] theorem setNow_pending (f : Fld) (v : Nat) (s : State) : (s.setNow f v).pending = s.pending := rfl

@[simp] theorem emit_shadow (o : Output) (s : State) : (s.emit o).shadow = s.shadow := rfl
@[simp] theorem emit_live (o : Output) (s : State) : (s.emit o).live = s.live := rfl
@[simp] theorem emit_status (o : Output) (s : State) : (s.emit o).status = s.status := rfl
@[simp] theorem emit_tickQ (o : Output) (s : State) : (s.emit o).tickQ = s.tickQ := rfl
@[simp] theorem emit_commits (o : Output) (s : State) : (s.emit o).commits = s.commits := rfl
@[simp] theorem emit_req (o : Output) (s : State) : (s.emit o).req = s.req := rfl
@[simp] theorem emit_time (o : Output) (s : State) : (s.emit o).time = s.time := rfl
@[simp] theorem emit_tbase (o : Output) (s : State) : (s.emit o).tbase = s.tbase := rfl
@[simp] theorem emit_tdc (o : Output) (s : State) : (s.emit o).tdc = s.tdc := rfl
@[simp] theorem emit_merid (o : Output) (s : State) : (s.emit o).merid = s.merid := rfl
@[simp] theorem emit_lanes (o : Output) (s : State) : (s.emit o).lanes = s.lanes := rfl
@[simp] theorem emit_cmp (o : Output) (s : State) : (s.emit o).cmp = s.cmp := rfl
@[simp] theorem emit_strm (o : Output) (s : State) : (s.emit o).strm = s.strm := rfl
@[simp] theorem emit_pcie (o : Output) (s : State) : (s.emit o).pcie = s.pcie := rfl
@[simp] theorem emit_shots (o : Output) (s : State) : (s.emit o).shots = s.shots := rfl
@[simp] theorem emit_loops (o : Output) (s : State) : (s.emit o).loops = s.loops := rfl
@[simp] theorem emit_drive (o : Output) (s : State) : (s.emit o).drive = s.drive := rfl
@[simp] theorem emit_budget (o : Output) (s : State) : (s.emit o).budget = s.budget := rfl
@[simp] theorem emit_rxf (o : Output) (s : State) : (s.emit o).rxf = s.rxf := rfl
@[simp] theorem emit_shotp (o : Output) (s : State) : (s.emit o).shotp = s.shotp := rfl
@[simp] theorem emit_trace (o : Output) (s : State) : (s.emit o).trace = s.trace := rfl
@[simp] theorem emit_phz (o : Output) (s : State) : (s.emit o).phz = s.phz := rfl
@[simp] theorem emit_slow (o : Output) (s : State) : (s.emit o).slow = s.slow := rfl
@[simp] theorem emit_raman (o : Output) (s : State) : (s.emit o).raman = s.raman := rfl
@[simp] theorem emit_aux (o : Output) (s : State) : (s.emit o).aux = s.aux := rfl
@[simp] theorem emit_zone (o : Output) (s : State) : (s.emit o).zone = s.zone := rfl
@[simp] theorem emit_capt (o : Output) (s : State) : (s.emit o).capt = s.capt := rfl
@[simp] theorem emit_zc (o : Output) (s : State) : (s.emit o).zc = s.zc := rfl
@[simp] theorem emit_icu (o : Output) (s : State) : (s.emit o).icu = s.icu := rfl
@[simp] theorem emit_mbox (o : Output) (s : State) : (s.emit o).mbox = s.mbox := rfl
@[simp] theorem emit_alm (o : Output) (s : State) : (s.emit o).alm = s.alm := rfl
@[simp] theorem emit_cal (o : Output) (s : State) : (s.emit o).cal = s.cal := rfl
@[simp] theorem emit_flash (o : Output) (s : State) : (s.emit o).flash = s.flash := rfl
@[simp] theorem emit_stew (o : Output) (s : State) : (s.emit o).stew = s.stew := rfl
@[simp] theorem emit_twin (o : Output) (s : State) : (s.emit o).twin = s.twin := rfl
@[simp] theorem emit_b50 (o : Output) (s : State) : (s.emit o).b50 = s.b50 := rfl
@[simp] theorem emit_holds (o : Output) (s : State) : (s.emit o).holds = s.holds := rfl
@[simp] theorem emit_causes (o : Output) (s : State) : (s.emit o).causes = s.causes := rfl
@[simp] theorem emit_mem (o : Output) (s : State) : (s.emit o).mem = s.mem := rfl
@[simp] theorem emit_poison (o : Output) (s : State) : (s.emit o).poison = s.poison := rfl
@[simp] theorem emit_regions (o : Output) (s : State) : (s.emit o).regions = s.regions := rfl
@[simp] theorem emit_regionShadow (o : Output) (s : State) : (s.emit o).regionShadow = s.regionShadow := rfl
@[simp] theorem emit_memc (o : Output) (s : State) : (s.emit o).memc = s.memc := rfl
@[simp] theorem emit_free (o : Output) (s : State) : (s.emit o).free = s.free := rfl
@[simp] theorem emit_pending (o : Output) (s : State) : (s.emit o).pending = s.pending := rfl

@[simp] theorem setWinIndex_shadow (q : Requester) (p v : Nat) (s : State) : (s.setWinIndex q p v).shadow = s.shadow := rfl
@[simp] theorem setWinIndex_live (q : Requester) (p v : Nat) (s : State) : (s.setWinIndex q p v).live = s.live := rfl
@[simp] theorem setWinIndex_status (q : Requester) (p v : Nat) (s : State) : (s.setWinIndex q p v).status = s.status := rfl
@[simp] theorem setWinIndex_tickQ (q : Requester) (p v : Nat) (s : State) : (s.setWinIndex q p v).tickQ = s.tickQ := rfl
@[simp] theorem setWinIndex_commits (q : Requester) (p v : Nat) (s : State) : (s.setWinIndex q p v).commits = s.commits := rfl
@[simp] theorem setWinIndex_time (q : Requester) (p v : Nat) (s : State) : (s.setWinIndex q p v).time = s.time := rfl
@[simp] theorem setWinIndex_tbase (q : Requester) (p v : Nat) (s : State) : (s.setWinIndex q p v).tbase = s.tbase := rfl
@[simp] theorem setWinIndex_tdc (q : Requester) (p v : Nat) (s : State) : (s.setWinIndex q p v).tdc = s.tdc := rfl
@[simp] theorem setWinIndex_merid (q : Requester) (p v : Nat) (s : State) : (s.setWinIndex q p v).merid = s.merid := rfl
@[simp] theorem setWinIndex_lanes (q : Requester) (p v : Nat) (s : State) : (s.setWinIndex q p v).lanes = s.lanes := rfl
@[simp] theorem setWinIndex_cmp (q : Requester) (p v : Nat) (s : State) : (s.setWinIndex q p v).cmp = s.cmp := rfl
@[simp] theorem setWinIndex_strm (q : Requester) (p v : Nat) (s : State) : (s.setWinIndex q p v).strm = s.strm := rfl
@[simp] theorem setWinIndex_pcie (q : Requester) (p v : Nat) (s : State) : (s.setWinIndex q p v).pcie = s.pcie := rfl
@[simp] theorem setWinIndex_shots (q : Requester) (p v : Nat) (s : State) : (s.setWinIndex q p v).shots = s.shots := rfl
@[simp] theorem setWinIndex_loops (q : Requester) (p v : Nat) (s : State) : (s.setWinIndex q p v).loops = s.loops := rfl
@[simp] theorem setWinIndex_drive (q : Requester) (p v : Nat) (s : State) : (s.setWinIndex q p v).drive = s.drive := rfl
@[simp] theorem setWinIndex_budget (q : Requester) (p v : Nat) (s : State) : (s.setWinIndex q p v).budget = s.budget := rfl
@[simp] theorem setWinIndex_rxf (q : Requester) (p v : Nat) (s : State) : (s.setWinIndex q p v).rxf = s.rxf := rfl
@[simp] theorem setWinIndex_shotp (q : Requester) (p v : Nat) (s : State) : (s.setWinIndex q p v).shotp = s.shotp := rfl
@[simp] theorem setWinIndex_trace (q : Requester) (p v : Nat) (s : State) : (s.setWinIndex q p v).trace = s.trace := rfl
@[simp] theorem setWinIndex_phz (q : Requester) (p v : Nat) (s : State) : (s.setWinIndex q p v).phz = s.phz := rfl
@[simp] theorem setWinIndex_slow (q : Requester) (p v : Nat) (s : State) : (s.setWinIndex q p v).slow = s.slow := rfl
@[simp] theorem setWinIndex_raman (q : Requester) (p v : Nat) (s : State) : (s.setWinIndex q p v).raman = s.raman := rfl
@[simp] theorem setWinIndex_aux (q : Requester) (p v : Nat) (s : State) : (s.setWinIndex q p v).aux = s.aux := rfl
@[simp] theorem setWinIndex_zone (q : Requester) (p v : Nat) (s : State) : (s.setWinIndex q p v).zone = s.zone := rfl
@[simp] theorem setWinIndex_capt (q : Requester) (p v : Nat) (s : State) : (s.setWinIndex q p v).capt = s.capt := rfl
@[simp] theorem setWinIndex_zc (q : Requester) (p v : Nat) (s : State) : (s.setWinIndex q p v).zc = s.zc := rfl
@[simp] theorem setWinIndex_icu (q : Requester) (p v : Nat) (s : State) : (s.setWinIndex q p v).icu = s.icu := rfl
@[simp] theorem setWinIndex_mbox (q : Requester) (p v : Nat) (s : State) : (s.setWinIndex q p v).mbox = s.mbox := rfl
@[simp] theorem setWinIndex_alm (q : Requester) (p v : Nat) (s : State) : (s.setWinIndex q p v).alm = s.alm := rfl
@[simp] theorem setWinIndex_cal (q : Requester) (p v : Nat) (s : State) : (s.setWinIndex q p v).cal = s.cal := rfl
@[simp] theorem setWinIndex_flash (q : Requester) (p v : Nat) (s : State) : (s.setWinIndex q p v).flash = s.flash := rfl
@[simp] theorem setWinIndex_stew (q : Requester) (p v : Nat) (s : State) : (s.setWinIndex q p v).stew = s.stew := rfl
@[simp] theorem setWinIndex_twin (q : Requester) (p v : Nat) (s : State) : (s.setWinIndex q p v).twin = s.twin := rfl
@[simp] theorem setWinIndex_b50 (q : Requester) (p v : Nat) (s : State) : (s.setWinIndex q p v).b50 = s.b50 := rfl
@[simp] theorem setWinIndex_holds (q : Requester) (p v : Nat) (s : State) : (s.setWinIndex q p v).holds = s.holds := rfl
@[simp] theorem setWinIndex_causes (q : Requester) (p v : Nat) (s : State) : (s.setWinIndex q p v).causes = s.causes := rfl
@[simp] theorem setWinIndex_mem (q : Requester) (p v : Nat) (s : State) : (s.setWinIndex q p v).mem = s.mem := rfl
@[simp] theorem setWinIndex_poison (q : Requester) (p v : Nat) (s : State) : (s.setWinIndex q p v).poison = s.poison := rfl
@[simp] theorem setWinIndex_regions (q : Requester) (p v : Nat) (s : State) : (s.setWinIndex q p v).regions = s.regions := rfl
@[simp] theorem setWinIndex_regionShadow (q : Requester) (p v : Nat) (s : State) : (s.setWinIndex q p v).regionShadow = s.regionShadow := rfl
@[simp] theorem setWinIndex_memc (q : Requester) (p v : Nat) (s : State) : (s.setWinIndex q p v).memc = s.memc := rfl
@[simp] theorem setWinIndex_free (q : Requester) (p v : Nat) (s : State) : (s.setWinIndex q p v).free = s.free := rfl
@[simp] theorem setWinIndex_out (q : Requester) (p v : Nat) (s : State) : (s.setWinIndex q p v).out = s.out := rfl
@[simp] theorem setWinIndex_pending (q : Requester) (p v : Nat) (s : State) : (s.setWinIndex q p v).pending = s.pending := rfl

@[simp] theorem takeSnap_shadow (q : Requester) (a v : Nat) (s : State) : (s.takeSnap q a v).shadow = s.shadow := rfl
@[simp] theorem takeSnap_live (q : Requester) (a v : Nat) (s : State) : (s.takeSnap q a v).live = s.live := rfl
@[simp] theorem takeSnap_status (q : Requester) (a v : Nat) (s : State) : (s.takeSnap q a v).status = s.status := rfl
@[simp] theorem takeSnap_tickQ (q : Requester) (a v : Nat) (s : State) : (s.takeSnap q a v).tickQ = s.tickQ := rfl
@[simp] theorem takeSnap_commits (q : Requester) (a v : Nat) (s : State) : (s.takeSnap q a v).commits = s.commits := rfl
@[simp] theorem takeSnap_time (q : Requester) (a v : Nat) (s : State) : (s.takeSnap q a v).time = s.time := rfl
@[simp] theorem takeSnap_tbase (q : Requester) (a v : Nat) (s : State) : (s.takeSnap q a v).tbase = s.tbase := rfl
@[simp] theorem takeSnap_tdc (q : Requester) (a v : Nat) (s : State) : (s.takeSnap q a v).tdc = s.tdc := rfl
@[simp] theorem takeSnap_merid (q : Requester) (a v : Nat) (s : State) : (s.takeSnap q a v).merid = s.merid := rfl
@[simp] theorem takeSnap_lanes (q : Requester) (a v : Nat) (s : State) : (s.takeSnap q a v).lanes = s.lanes := rfl
@[simp] theorem takeSnap_cmp (q : Requester) (a v : Nat) (s : State) : (s.takeSnap q a v).cmp = s.cmp := rfl
@[simp] theorem takeSnap_strm (q : Requester) (a v : Nat) (s : State) : (s.takeSnap q a v).strm = s.strm := rfl
@[simp] theorem takeSnap_pcie (q : Requester) (a v : Nat) (s : State) : (s.takeSnap q a v).pcie = s.pcie := rfl
@[simp] theorem takeSnap_shots (q : Requester) (a v : Nat) (s : State) : (s.takeSnap q a v).shots = s.shots := rfl
@[simp] theorem takeSnap_loops (q : Requester) (a v : Nat) (s : State) : (s.takeSnap q a v).loops = s.loops := rfl
@[simp] theorem takeSnap_drive (q : Requester) (a v : Nat) (s : State) : (s.takeSnap q a v).drive = s.drive := rfl
@[simp] theorem takeSnap_budget (q : Requester) (a v : Nat) (s : State) : (s.takeSnap q a v).budget = s.budget := rfl
@[simp] theorem takeSnap_rxf (q : Requester) (a v : Nat) (s : State) : (s.takeSnap q a v).rxf = s.rxf := rfl
@[simp] theorem takeSnap_shotp (q : Requester) (a v : Nat) (s : State) : (s.takeSnap q a v).shotp = s.shotp := rfl
@[simp] theorem takeSnap_trace (q : Requester) (a v : Nat) (s : State) : (s.takeSnap q a v).trace = s.trace := rfl
@[simp] theorem takeSnap_phz (q : Requester) (a v : Nat) (s : State) : (s.takeSnap q a v).phz = s.phz := rfl
@[simp] theorem takeSnap_slow (q : Requester) (a v : Nat) (s : State) : (s.takeSnap q a v).slow = s.slow := rfl
@[simp] theorem takeSnap_raman (q : Requester) (a v : Nat) (s : State) : (s.takeSnap q a v).raman = s.raman := rfl
@[simp] theorem takeSnap_aux (q : Requester) (a v : Nat) (s : State) : (s.takeSnap q a v).aux = s.aux := rfl
@[simp] theorem takeSnap_zone (q : Requester) (a v : Nat) (s : State) : (s.takeSnap q a v).zone = s.zone := rfl
@[simp] theorem takeSnap_capt (q : Requester) (a v : Nat) (s : State) : (s.takeSnap q a v).capt = s.capt := rfl
@[simp] theorem takeSnap_zc (q : Requester) (a v : Nat) (s : State) : (s.takeSnap q a v).zc = s.zc := rfl
@[simp] theorem takeSnap_icu (q : Requester) (a v : Nat) (s : State) : (s.takeSnap q a v).icu = s.icu := rfl
@[simp] theorem takeSnap_mbox (q : Requester) (a v : Nat) (s : State) : (s.takeSnap q a v).mbox = s.mbox := rfl
@[simp] theorem takeSnap_alm (q : Requester) (a v : Nat) (s : State) : (s.takeSnap q a v).alm = s.alm := rfl
@[simp] theorem takeSnap_cal (q : Requester) (a v : Nat) (s : State) : (s.takeSnap q a v).cal = s.cal := rfl
@[simp] theorem takeSnap_flash (q : Requester) (a v : Nat) (s : State) : (s.takeSnap q a v).flash = s.flash := rfl
@[simp] theorem takeSnap_stew (q : Requester) (a v : Nat) (s : State) : (s.takeSnap q a v).stew = s.stew := rfl
@[simp] theorem takeSnap_twin (q : Requester) (a v : Nat) (s : State) : (s.takeSnap q a v).twin = s.twin := rfl
@[simp] theorem takeSnap_b50 (q : Requester) (a v : Nat) (s : State) : (s.takeSnap q a v).b50 = s.b50 := rfl
@[simp] theorem takeSnap_holds (q : Requester) (a v : Nat) (s : State) : (s.takeSnap q a v).holds = s.holds := rfl
@[simp] theorem takeSnap_causes (q : Requester) (a v : Nat) (s : State) : (s.takeSnap q a v).causes = s.causes := rfl
@[simp] theorem takeSnap_mem (q : Requester) (a v : Nat) (s : State) : (s.takeSnap q a v).mem = s.mem := rfl
@[simp] theorem takeSnap_poison (q : Requester) (a v : Nat) (s : State) : (s.takeSnap q a v).poison = s.poison := rfl
@[simp] theorem takeSnap_regions (q : Requester) (a v : Nat) (s : State) : (s.takeSnap q a v).regions = s.regions := rfl
@[simp] theorem takeSnap_regionShadow (q : Requester) (a v : Nat) (s : State) : (s.takeSnap q a v).regionShadow = s.regionShadow := rfl
@[simp] theorem takeSnap_memc (q : Requester) (a v : Nat) (s : State) : (s.takeSnap q a v).memc = s.memc := rfl
@[simp] theorem takeSnap_free (q : Requester) (a v : Nat) (s : State) : (s.takeSnap q a v).free = s.free := rfl
@[simp] theorem takeSnap_out (q : Requester) (a v : Nat) (s : State) : (s.takeSnap q a v).out = s.out := rfl
@[simp] theorem takeSnap_pending (q : Requester) (a v : Nat) (s : State) : (s.takeSnap q a v).pending = s.pending := rfl

@[simp] theorem stageWord_shadow (q : Requester) (a : Nat) (v : Word) (s : State) : (s.stageWord q a v).shadow = s.shadow := rfl
@[simp] theorem stageWord_live (q : Requester) (a : Nat) (v : Word) (s : State) : (s.stageWord q a v).live = s.live := rfl
@[simp] theorem stageWord_status (q : Requester) (a : Nat) (v : Word) (s : State) : (s.stageWord q a v).status = s.status := rfl
@[simp] theorem stageWord_tickQ (q : Requester) (a : Nat) (v : Word) (s : State) : (s.stageWord q a v).tickQ = s.tickQ := rfl
@[simp] theorem stageWord_commits (q : Requester) (a : Nat) (v : Word) (s : State) : (s.stageWord q a v).commits = s.commits := rfl
@[simp] theorem stageWord_time (q : Requester) (a : Nat) (v : Word) (s : State) : (s.stageWord q a v).time = s.time := rfl
@[simp] theorem stageWord_tbase (q : Requester) (a : Nat) (v : Word) (s : State) : (s.stageWord q a v).tbase = s.tbase := rfl
@[simp] theorem stageWord_tdc (q : Requester) (a : Nat) (v : Word) (s : State) : (s.stageWord q a v).tdc = s.tdc := rfl
@[simp] theorem stageWord_merid (q : Requester) (a : Nat) (v : Word) (s : State) : (s.stageWord q a v).merid = s.merid := rfl
@[simp] theorem stageWord_lanes (q : Requester) (a : Nat) (v : Word) (s : State) : (s.stageWord q a v).lanes = s.lanes := rfl
@[simp] theorem stageWord_cmp (q : Requester) (a : Nat) (v : Word) (s : State) : (s.stageWord q a v).cmp = s.cmp := rfl
@[simp] theorem stageWord_strm (q : Requester) (a : Nat) (v : Word) (s : State) : (s.stageWord q a v).strm = s.strm := rfl
@[simp] theorem stageWord_pcie (q : Requester) (a : Nat) (v : Word) (s : State) : (s.stageWord q a v).pcie = s.pcie := rfl
@[simp] theorem stageWord_shots (q : Requester) (a : Nat) (v : Word) (s : State) : (s.stageWord q a v).shots = s.shots := rfl
@[simp] theorem stageWord_loops (q : Requester) (a : Nat) (v : Word) (s : State) : (s.stageWord q a v).loops = s.loops := rfl
@[simp] theorem stageWord_drive (q : Requester) (a : Nat) (v : Word) (s : State) : (s.stageWord q a v).drive = s.drive := rfl
@[simp] theorem stageWord_budget (q : Requester) (a : Nat) (v : Word) (s : State) : (s.stageWord q a v).budget = s.budget := rfl
@[simp] theorem stageWord_rxf (q : Requester) (a : Nat) (v : Word) (s : State) : (s.stageWord q a v).rxf = s.rxf := rfl
@[simp] theorem stageWord_shotp (q : Requester) (a : Nat) (v : Word) (s : State) : (s.stageWord q a v).shotp = s.shotp := rfl
@[simp] theorem stageWord_trace (q : Requester) (a : Nat) (v : Word) (s : State) : (s.stageWord q a v).trace = s.trace := rfl
@[simp] theorem stageWord_phz (q : Requester) (a : Nat) (v : Word) (s : State) : (s.stageWord q a v).phz = s.phz := rfl
@[simp] theorem stageWord_slow (q : Requester) (a : Nat) (v : Word) (s : State) : (s.stageWord q a v).slow = s.slow := rfl
@[simp] theorem stageWord_raman (q : Requester) (a : Nat) (v : Word) (s : State) : (s.stageWord q a v).raman = s.raman := rfl
@[simp] theorem stageWord_aux (q : Requester) (a : Nat) (v : Word) (s : State) : (s.stageWord q a v).aux = s.aux := rfl
@[simp] theorem stageWord_zone (q : Requester) (a : Nat) (v : Word) (s : State) : (s.stageWord q a v).zone = s.zone := rfl
@[simp] theorem stageWord_capt (q : Requester) (a : Nat) (v : Word) (s : State) : (s.stageWord q a v).capt = s.capt := rfl
@[simp] theorem stageWord_zc (q : Requester) (a : Nat) (v : Word) (s : State) : (s.stageWord q a v).zc = s.zc := rfl
@[simp] theorem stageWord_icu (q : Requester) (a : Nat) (v : Word) (s : State) : (s.stageWord q a v).icu = s.icu := rfl
@[simp] theorem stageWord_mbox (q : Requester) (a : Nat) (v : Word) (s : State) : (s.stageWord q a v).mbox = s.mbox := rfl
@[simp] theorem stageWord_alm (q : Requester) (a : Nat) (v : Word) (s : State) : (s.stageWord q a v).alm = s.alm := rfl
@[simp] theorem stageWord_cal (q : Requester) (a : Nat) (v : Word) (s : State) : (s.stageWord q a v).cal = s.cal := rfl
@[simp] theorem stageWord_flash (q : Requester) (a : Nat) (v : Word) (s : State) : (s.stageWord q a v).flash = s.flash := rfl
@[simp] theorem stageWord_stew (q : Requester) (a : Nat) (v : Word) (s : State) : (s.stageWord q a v).stew = s.stew := rfl
@[simp] theorem stageWord_twin (q : Requester) (a : Nat) (v : Word) (s : State) : (s.stageWord q a v).twin = s.twin := rfl
@[simp] theorem stageWord_b50 (q : Requester) (a : Nat) (v : Word) (s : State) : (s.stageWord q a v).b50 = s.b50 := rfl
@[simp] theorem stageWord_holds (q : Requester) (a : Nat) (v : Word) (s : State) : (s.stageWord q a v).holds = s.holds := rfl
@[simp] theorem stageWord_causes (q : Requester) (a : Nat) (v : Word) (s : State) : (s.stageWord q a v).causes = s.causes := rfl
@[simp] theorem stageWord_mem (q : Requester) (a : Nat) (v : Word) (s : State) : (s.stageWord q a v).mem = s.mem := rfl
@[simp] theorem stageWord_poison (q : Requester) (a : Nat) (v : Word) (s : State) : (s.stageWord q a v).poison = s.poison := rfl
@[simp] theorem stageWord_regions (q : Requester) (a : Nat) (v : Word) (s : State) : (s.stageWord q a v).regions = s.regions := rfl
@[simp] theorem stageWord_regionShadow (q : Requester) (a : Nat) (v : Word) (s : State) : (s.stageWord q a v).regionShadow = s.regionShadow := rfl
@[simp] theorem stageWord_memc (q : Requester) (a : Nat) (v : Word) (s : State) : (s.stageWord q a v).memc = s.memc := rfl
@[simp] theorem stageWord_free (q : Requester) (a : Nat) (v : Word) (s : State) : (s.stageWord q a v).free = s.free := rfl
@[simp] theorem stageWord_out (q : Requester) (a : Nat) (v : Word) (s : State) : (s.stageWord q a v).out = s.out := rfl
@[simp] theorem stageWord_pending (q : Requester) (a : Nat) (v : Word) (s : State) : (s.stageWord q a v).pending = s.pending := rfl

@[simp] theorem unstage_shadow (q : Requester) (a : Nat) (s : State) : (s.unstage q a).shadow = s.shadow := rfl
@[simp] theorem unstage_live (q : Requester) (a : Nat) (s : State) : (s.unstage q a).live = s.live := rfl
@[simp] theorem unstage_status (q : Requester) (a : Nat) (s : State) : (s.unstage q a).status = s.status := rfl
@[simp] theorem unstage_tickQ (q : Requester) (a : Nat) (s : State) : (s.unstage q a).tickQ = s.tickQ := rfl
@[simp] theorem unstage_commits (q : Requester) (a : Nat) (s : State) : (s.unstage q a).commits = s.commits := rfl
@[simp] theorem unstage_time (q : Requester) (a : Nat) (s : State) : (s.unstage q a).time = s.time := rfl
@[simp] theorem unstage_tbase (q : Requester) (a : Nat) (s : State) : (s.unstage q a).tbase = s.tbase := rfl
@[simp] theorem unstage_tdc (q : Requester) (a : Nat) (s : State) : (s.unstage q a).tdc = s.tdc := rfl
@[simp] theorem unstage_merid (q : Requester) (a : Nat) (s : State) : (s.unstage q a).merid = s.merid := rfl
@[simp] theorem unstage_lanes (q : Requester) (a : Nat) (s : State) : (s.unstage q a).lanes = s.lanes := rfl
@[simp] theorem unstage_cmp (q : Requester) (a : Nat) (s : State) : (s.unstage q a).cmp = s.cmp := rfl
@[simp] theorem unstage_strm (q : Requester) (a : Nat) (s : State) : (s.unstage q a).strm = s.strm := rfl
@[simp] theorem unstage_pcie (q : Requester) (a : Nat) (s : State) : (s.unstage q a).pcie = s.pcie := rfl
@[simp] theorem unstage_shots (q : Requester) (a : Nat) (s : State) : (s.unstage q a).shots = s.shots := rfl
@[simp] theorem unstage_loops (q : Requester) (a : Nat) (s : State) : (s.unstage q a).loops = s.loops := rfl
@[simp] theorem unstage_drive (q : Requester) (a : Nat) (s : State) : (s.unstage q a).drive = s.drive := rfl
@[simp] theorem unstage_budget (q : Requester) (a : Nat) (s : State) : (s.unstage q a).budget = s.budget := rfl
@[simp] theorem unstage_rxf (q : Requester) (a : Nat) (s : State) : (s.unstage q a).rxf = s.rxf := rfl
@[simp] theorem unstage_shotp (q : Requester) (a : Nat) (s : State) : (s.unstage q a).shotp = s.shotp := rfl
@[simp] theorem unstage_trace (q : Requester) (a : Nat) (s : State) : (s.unstage q a).trace = s.trace := rfl
@[simp] theorem unstage_phz (q : Requester) (a : Nat) (s : State) : (s.unstage q a).phz = s.phz := rfl
@[simp] theorem unstage_slow (q : Requester) (a : Nat) (s : State) : (s.unstage q a).slow = s.slow := rfl
@[simp] theorem unstage_raman (q : Requester) (a : Nat) (s : State) : (s.unstage q a).raman = s.raman := rfl
@[simp] theorem unstage_aux (q : Requester) (a : Nat) (s : State) : (s.unstage q a).aux = s.aux := rfl
@[simp] theorem unstage_zone (q : Requester) (a : Nat) (s : State) : (s.unstage q a).zone = s.zone := rfl
@[simp] theorem unstage_capt (q : Requester) (a : Nat) (s : State) : (s.unstage q a).capt = s.capt := rfl
@[simp] theorem unstage_zc (q : Requester) (a : Nat) (s : State) : (s.unstage q a).zc = s.zc := rfl
@[simp] theorem unstage_icu (q : Requester) (a : Nat) (s : State) : (s.unstage q a).icu = s.icu := rfl
@[simp] theorem unstage_mbox (q : Requester) (a : Nat) (s : State) : (s.unstage q a).mbox = s.mbox := rfl
@[simp] theorem unstage_alm (q : Requester) (a : Nat) (s : State) : (s.unstage q a).alm = s.alm := rfl
@[simp] theorem unstage_cal (q : Requester) (a : Nat) (s : State) : (s.unstage q a).cal = s.cal := rfl
@[simp] theorem unstage_flash (q : Requester) (a : Nat) (s : State) : (s.unstage q a).flash = s.flash := rfl
@[simp] theorem unstage_stew (q : Requester) (a : Nat) (s : State) : (s.unstage q a).stew = s.stew := rfl
@[simp] theorem unstage_twin (q : Requester) (a : Nat) (s : State) : (s.unstage q a).twin = s.twin := rfl
@[simp] theorem unstage_b50 (q : Requester) (a : Nat) (s : State) : (s.unstage q a).b50 = s.b50 := rfl
@[simp] theorem unstage_holds (q : Requester) (a : Nat) (s : State) : (s.unstage q a).holds = s.holds := rfl
@[simp] theorem unstage_causes (q : Requester) (a : Nat) (s : State) : (s.unstage q a).causes = s.causes := rfl
@[simp] theorem unstage_mem (q : Requester) (a : Nat) (s : State) : (s.unstage q a).mem = s.mem := rfl
@[simp] theorem unstage_poison (q : Requester) (a : Nat) (s : State) : (s.unstage q a).poison = s.poison := rfl
@[simp] theorem unstage_regions (q : Requester) (a : Nat) (s : State) : (s.unstage q a).regions = s.regions := rfl
@[simp] theorem unstage_regionShadow (q : Requester) (a : Nat) (s : State) : (s.unstage q a).regionShadow = s.regionShadow := rfl
@[simp] theorem unstage_memc (q : Requester) (a : Nat) (s : State) : (s.unstage q a).memc = s.memc := rfl
@[simp] theorem unstage_free (q : Requester) (a : Nat) (s : State) : (s.unstage q a).free = s.free := rfl
@[simp] theorem unstage_out (q : Requester) (a : Nat) (s : State) : (s.unstage q a).out = s.out := rfl
@[simp] theorem unstage_pending (q : Requester) (a : Nat) (s : State) : (s.unstage q a).pending = s.pending := rfl

@[simp] theorem answer_shadow (v : Nat) (s : State) : (s.answer v).shadow = s.shadow := rfl
@[simp] theorem answer_live (v : Nat) (s : State) : (s.answer v).live = s.live := rfl
@[simp] theorem answer_status (v : Nat) (s : State) : (s.answer v).status = s.status := rfl
@[simp] theorem answer_tickQ (v : Nat) (s : State) : (s.answer v).tickQ = s.tickQ := rfl
@[simp] theorem answer_commits (v : Nat) (s : State) : (s.answer v).commits = s.commits := rfl
@[simp] theorem answer_time (v : Nat) (s : State) : (s.answer v).time = s.time := rfl
@[simp] theorem answer_tbase (v : Nat) (s : State) : (s.answer v).tbase = s.tbase := rfl
@[simp] theorem answer_tdc (v : Nat) (s : State) : (s.answer v).tdc = s.tdc := rfl
@[simp] theorem answer_merid (v : Nat) (s : State) : (s.answer v).merid = s.merid := rfl
@[simp] theorem answer_lanes (v : Nat) (s : State) : (s.answer v).lanes = s.lanes := rfl
@[simp] theorem answer_cmp (v : Nat) (s : State) : (s.answer v).cmp = s.cmp := rfl
@[simp] theorem answer_strm (v : Nat) (s : State) : (s.answer v).strm = s.strm := rfl
@[simp] theorem answer_pcie (v : Nat) (s : State) : (s.answer v).pcie = s.pcie := rfl
@[simp] theorem answer_shots (v : Nat) (s : State) : (s.answer v).shots = s.shots := rfl
@[simp] theorem answer_loops (v : Nat) (s : State) : (s.answer v).loops = s.loops := rfl
@[simp] theorem answer_drive (v : Nat) (s : State) : (s.answer v).drive = s.drive := rfl
@[simp] theorem answer_budget (v : Nat) (s : State) : (s.answer v).budget = s.budget := rfl
@[simp] theorem answer_rxf (v : Nat) (s : State) : (s.answer v).rxf = s.rxf := rfl
@[simp] theorem answer_shotp (v : Nat) (s : State) : (s.answer v).shotp = s.shotp := rfl
@[simp] theorem answer_trace (v : Nat) (s : State) : (s.answer v).trace = s.trace := rfl
@[simp] theorem answer_phz (v : Nat) (s : State) : (s.answer v).phz = s.phz := rfl
@[simp] theorem answer_slow (v : Nat) (s : State) : (s.answer v).slow = s.slow := rfl
@[simp] theorem answer_raman (v : Nat) (s : State) : (s.answer v).raman = s.raman := rfl
@[simp] theorem answer_aux (v : Nat) (s : State) : (s.answer v).aux = s.aux := rfl
@[simp] theorem answer_zone (v : Nat) (s : State) : (s.answer v).zone = s.zone := rfl
@[simp] theorem answer_capt (v : Nat) (s : State) : (s.answer v).capt = s.capt := rfl
@[simp] theorem answer_zc (v : Nat) (s : State) : (s.answer v).zc = s.zc := rfl
@[simp] theorem answer_icu (v : Nat) (s : State) : (s.answer v).icu = s.icu := rfl
@[simp] theorem answer_mbox (v : Nat) (s : State) : (s.answer v).mbox = s.mbox := rfl
@[simp] theorem answer_alm (v : Nat) (s : State) : (s.answer v).alm = s.alm := rfl
@[simp] theorem answer_cal (v : Nat) (s : State) : (s.answer v).cal = s.cal := rfl
@[simp] theorem answer_flash (v : Nat) (s : State) : (s.answer v).flash = s.flash := rfl
@[simp] theorem answer_stew (v : Nat) (s : State) : (s.answer v).stew = s.stew := rfl
@[simp] theorem answer_twin (v : Nat) (s : State) : (s.answer v).twin = s.twin := rfl
@[simp] theorem answer_b50 (v : Nat) (s : State) : (s.answer v).b50 = s.b50 := rfl
@[simp] theorem answer_holds (v : Nat) (s : State) : (s.answer v).holds = s.holds := rfl
@[simp] theorem answer_causes (v : Nat) (s : State) : (s.answer v).causes = s.causes := rfl
@[simp] theorem answer_mem (v : Nat) (s : State) : (s.answer v).mem = s.mem := rfl
@[simp] theorem answer_poison (v : Nat) (s : State) : (s.answer v).poison = s.poison := rfl
@[simp] theorem answer_regions (v : Nat) (s : State) : (s.answer v).regions = s.regions := rfl
@[simp] theorem answer_regionShadow (v : Nat) (s : State) : (s.answer v).regionShadow = s.regionShadow := rfl
@[simp] theorem answer_memc (v : Nat) (s : State) : (s.answer v).memc = s.memc := rfl
@[simp] theorem answer_free (v : Nat) (s : State) : (s.answer v).free = s.free := rfl
@[simp] theorem answer_out (v : Nat) (s : State) : (s.answer v).out = s.out := rfl
@[simp] theorem answer_pending (v : Nat) (s : State) : (s.answer v).pending = s.pending := rfl

@[simp] theorem touch_shadow (p : Nat) (s : State) : (s.touch p).shadow = s.shadow := rfl
@[simp] theorem touch_live (p : Nat) (s : State) : (s.touch p).live = s.live := rfl
@[simp] theorem touch_status (p : Nat) (s : State) : (s.touch p).status = s.status := rfl
@[simp] theorem touch_tickQ (p : Nat) (s : State) : (s.touch p).tickQ = s.tickQ := rfl
@[simp] theorem touch_req (p : Nat) (s : State) : (s.touch p).req = s.req := rfl
@[simp] theorem touch_time (p : Nat) (s : State) : (s.touch p).time = s.time := rfl
@[simp] theorem touch_tbase (p : Nat) (s : State) : (s.touch p).tbase = s.tbase := rfl
@[simp] theorem touch_tdc (p : Nat) (s : State) : (s.touch p).tdc = s.tdc := rfl
@[simp] theorem touch_merid (p : Nat) (s : State) : (s.touch p).merid = s.merid := rfl
@[simp] theorem touch_lanes (p : Nat) (s : State) : (s.touch p).lanes = s.lanes := rfl
@[simp] theorem touch_cmp (p : Nat) (s : State) : (s.touch p).cmp = s.cmp := rfl
@[simp] theorem touch_strm (p : Nat) (s : State) : (s.touch p).strm = s.strm := rfl
@[simp] theorem touch_pcie (p : Nat) (s : State) : (s.touch p).pcie = s.pcie := rfl
@[simp] theorem touch_shots (p : Nat) (s : State) : (s.touch p).shots = s.shots := rfl
@[simp] theorem touch_loops (p : Nat) (s : State) : (s.touch p).loops = s.loops := rfl
@[simp] theorem touch_drive (p : Nat) (s : State) : (s.touch p).drive = s.drive := rfl
@[simp] theorem touch_budget (p : Nat) (s : State) : (s.touch p).budget = s.budget := rfl
@[simp] theorem touch_rxf (p : Nat) (s : State) : (s.touch p).rxf = s.rxf := rfl
@[simp] theorem touch_shotp (p : Nat) (s : State) : (s.touch p).shotp = s.shotp := rfl
@[simp] theorem touch_trace (p : Nat) (s : State) : (s.touch p).trace = s.trace := rfl
@[simp] theorem touch_phz (p : Nat) (s : State) : (s.touch p).phz = s.phz := rfl
@[simp] theorem touch_slow (p : Nat) (s : State) : (s.touch p).slow = s.slow := rfl
@[simp] theorem touch_raman (p : Nat) (s : State) : (s.touch p).raman = s.raman := rfl
@[simp] theorem touch_aux (p : Nat) (s : State) : (s.touch p).aux = s.aux := rfl
@[simp] theorem touch_zone (p : Nat) (s : State) : (s.touch p).zone = s.zone := rfl
@[simp] theorem touch_capt (p : Nat) (s : State) : (s.touch p).capt = s.capt := rfl
@[simp] theorem touch_zc (p : Nat) (s : State) : (s.touch p).zc = s.zc := rfl
@[simp] theorem touch_icu (p : Nat) (s : State) : (s.touch p).icu = s.icu := rfl
@[simp] theorem touch_mbox (p : Nat) (s : State) : (s.touch p).mbox = s.mbox := rfl
@[simp] theorem touch_alm (p : Nat) (s : State) : (s.touch p).alm = s.alm := rfl
@[simp] theorem touch_cal (p : Nat) (s : State) : (s.touch p).cal = s.cal := rfl
@[simp] theorem touch_flash (p : Nat) (s : State) : (s.touch p).flash = s.flash := rfl
@[simp] theorem touch_stew (p : Nat) (s : State) : (s.touch p).stew = s.stew := rfl
@[simp] theorem touch_twin (p : Nat) (s : State) : (s.touch p).twin = s.twin := rfl
@[simp] theorem touch_b50 (p : Nat) (s : State) : (s.touch p).b50 = s.b50 := rfl
@[simp] theorem touch_holds (p : Nat) (s : State) : (s.touch p).holds = s.holds := rfl
@[simp] theorem touch_causes (p : Nat) (s : State) : (s.touch p).causes = s.causes := rfl
@[simp] theorem touch_mem (p : Nat) (s : State) : (s.touch p).mem = s.mem := rfl
@[simp] theorem touch_poison (p : Nat) (s : State) : (s.touch p).poison = s.poison := rfl
@[simp] theorem touch_regions (p : Nat) (s : State) : (s.touch p).regions = s.regions := rfl
@[simp] theorem touch_regionShadow (p : Nat) (s : State) : (s.touch p).regionShadow = s.regionShadow := rfl
@[simp] theorem touch_memc (p : Nat) (s : State) : (s.touch p).memc = s.memc := rfl
@[simp] theorem touch_free (p : Nat) (s : State) : (s.touch p).free = s.free := rfl
@[simp] theorem touch_out (p : Nat) (s : State) : (s.touch p).out = s.out := rfl
@[simp] theorem touch_pending (p : Nat) (s : State) : (s.touch p).pending = s.pending := rfl

@[simp] theorem causeOn_shadow (g : Nat) (s : State) : (causeOn g s).shadow = s.shadow := rfl
@[simp] theorem causeOn_live (g : Nat) (s : State) : (causeOn g s).live = s.live := rfl
@[simp] theorem causeOn_status (g : Nat) (s : State) : (causeOn g s).status = s.status := rfl
@[simp] theorem causeOn_tickQ (g : Nat) (s : State) : (causeOn g s).tickQ = s.tickQ := rfl
@[simp] theorem causeOn_commits (g : Nat) (s : State) : (causeOn g s).commits = s.commits := rfl
@[simp] theorem causeOn_req (g : Nat) (s : State) : (causeOn g s).req = s.req := rfl
@[simp] theorem causeOn_time (g : Nat) (s : State) : (causeOn g s).time = s.time := rfl
@[simp] theorem causeOn_tbase (g : Nat) (s : State) : (causeOn g s).tbase = s.tbase := rfl
@[simp] theorem causeOn_tdc (g : Nat) (s : State) : (causeOn g s).tdc = s.tdc := rfl
@[simp] theorem causeOn_merid (g : Nat) (s : State) : (causeOn g s).merid = s.merid := rfl
@[simp] theorem causeOn_lanes (g : Nat) (s : State) : (causeOn g s).lanes = s.lanes := rfl
@[simp] theorem causeOn_cmp (g : Nat) (s : State) : (causeOn g s).cmp = s.cmp := rfl
@[simp] theorem causeOn_strm (g : Nat) (s : State) : (causeOn g s).strm = s.strm := rfl
@[simp] theorem causeOn_pcie (g : Nat) (s : State) : (causeOn g s).pcie = s.pcie := rfl
@[simp] theorem causeOn_shots (g : Nat) (s : State) : (causeOn g s).shots = s.shots := rfl
@[simp] theorem causeOn_loops (g : Nat) (s : State) : (causeOn g s).loops = s.loops := rfl
@[simp] theorem causeOn_drive (g : Nat) (s : State) : (causeOn g s).drive = s.drive := rfl
@[simp] theorem causeOn_budget (g : Nat) (s : State) : (causeOn g s).budget = s.budget := rfl
@[simp] theorem causeOn_rxf (g : Nat) (s : State) : (causeOn g s).rxf = s.rxf := rfl
@[simp] theorem causeOn_shotp (g : Nat) (s : State) : (causeOn g s).shotp = s.shotp := rfl
@[simp] theorem causeOn_trace (g : Nat) (s : State) : (causeOn g s).trace = s.trace := rfl
@[simp] theorem causeOn_phz (g : Nat) (s : State) : (causeOn g s).phz = s.phz := rfl
@[simp] theorem causeOn_slow (g : Nat) (s : State) : (causeOn g s).slow = s.slow := rfl
@[simp] theorem causeOn_raman (g : Nat) (s : State) : (causeOn g s).raman = s.raman := rfl
@[simp] theorem causeOn_aux (g : Nat) (s : State) : (causeOn g s).aux = s.aux := rfl
@[simp] theorem causeOn_zone (g : Nat) (s : State) : (causeOn g s).zone = s.zone := rfl
@[simp] theorem causeOn_capt (g : Nat) (s : State) : (causeOn g s).capt = s.capt := rfl
@[simp] theorem causeOn_zc (g : Nat) (s : State) : (causeOn g s).zc = s.zc := rfl
@[simp] theorem causeOn_icu (g : Nat) (s : State) : (causeOn g s).icu = s.icu := rfl
@[simp] theorem causeOn_mbox (g : Nat) (s : State) : (causeOn g s).mbox = s.mbox := rfl
@[simp] theorem causeOn_alm (g : Nat) (s : State) : (causeOn g s).alm = s.alm := rfl
@[simp] theorem causeOn_cal (g : Nat) (s : State) : (causeOn g s).cal = s.cal := rfl
@[simp] theorem causeOn_flash (g : Nat) (s : State) : (causeOn g s).flash = s.flash := rfl
@[simp] theorem causeOn_stew (g : Nat) (s : State) : (causeOn g s).stew = s.stew := rfl
@[simp] theorem causeOn_twin (g : Nat) (s : State) : (causeOn g s).twin = s.twin := rfl
@[simp] theorem causeOn_b50 (g : Nat) (s : State) : (causeOn g s).b50 = s.b50 := rfl
@[simp] theorem causeOn_holds (g : Nat) (s : State) : (causeOn g s).holds = s.holds := rfl
@[simp] theorem causeOn_mem (g : Nat) (s : State) : (causeOn g s).mem = s.mem := rfl
@[simp] theorem causeOn_poison (g : Nat) (s : State) : (causeOn g s).poison = s.poison := rfl
@[simp] theorem causeOn_regions (g : Nat) (s : State) : (causeOn g s).regions = s.regions := rfl
@[simp] theorem causeOn_regionShadow (g : Nat) (s : State) : (causeOn g s).regionShadow = s.regionShadow := rfl
@[simp] theorem causeOn_memc (g : Nat) (s : State) : (causeOn g s).memc = s.memc := rfl
@[simp] theorem causeOn_free (g : Nat) (s : State) : (causeOn g s).free = s.free := rfl
@[simp] theorem causeOn_out (g : Nat) (s : State) : (causeOn g s).out = s.out := rfl
@[simp] theorem causeOn_pending (g : Nat) (s : State) : (causeOn g s).pending = s.pending := rfl

@[simp] theorem causeOff_shadow (g : Nat) (s : State) : (causeOff g s).shadow = s.shadow := rfl
@[simp] theorem causeOff_live (g : Nat) (s : State) : (causeOff g s).live = s.live := rfl
@[simp] theorem causeOff_status (g : Nat) (s : State) : (causeOff g s).status = s.status := rfl
@[simp] theorem causeOff_tickQ (g : Nat) (s : State) : (causeOff g s).tickQ = s.tickQ := rfl
@[simp] theorem causeOff_commits (g : Nat) (s : State) : (causeOff g s).commits = s.commits := rfl
@[simp] theorem causeOff_req (g : Nat) (s : State) : (causeOff g s).req = s.req := rfl
@[simp] theorem causeOff_time (g : Nat) (s : State) : (causeOff g s).time = s.time := rfl
@[simp] theorem causeOff_tbase (g : Nat) (s : State) : (causeOff g s).tbase = s.tbase := rfl
@[simp] theorem causeOff_tdc (g : Nat) (s : State) : (causeOff g s).tdc = s.tdc := rfl
@[simp] theorem causeOff_merid (g : Nat) (s : State) : (causeOff g s).merid = s.merid := rfl
@[simp] theorem causeOff_lanes (g : Nat) (s : State) : (causeOff g s).lanes = s.lanes := rfl
@[simp] theorem causeOff_cmp (g : Nat) (s : State) : (causeOff g s).cmp = s.cmp := rfl
@[simp] theorem causeOff_strm (g : Nat) (s : State) : (causeOff g s).strm = s.strm := rfl
@[simp] theorem causeOff_pcie (g : Nat) (s : State) : (causeOff g s).pcie = s.pcie := rfl
@[simp] theorem causeOff_shots (g : Nat) (s : State) : (causeOff g s).shots = s.shots := rfl
@[simp] theorem causeOff_loops (g : Nat) (s : State) : (causeOff g s).loops = s.loops := rfl
@[simp] theorem causeOff_drive (g : Nat) (s : State) : (causeOff g s).drive = s.drive := rfl
@[simp] theorem causeOff_budget (g : Nat) (s : State) : (causeOff g s).budget = s.budget := rfl
@[simp] theorem causeOff_rxf (g : Nat) (s : State) : (causeOff g s).rxf = s.rxf := rfl
@[simp] theorem causeOff_shotp (g : Nat) (s : State) : (causeOff g s).shotp = s.shotp := rfl
@[simp] theorem causeOff_trace (g : Nat) (s : State) : (causeOff g s).trace = s.trace := rfl
@[simp] theorem causeOff_phz (g : Nat) (s : State) : (causeOff g s).phz = s.phz := rfl
@[simp] theorem causeOff_slow (g : Nat) (s : State) : (causeOff g s).slow = s.slow := rfl
@[simp] theorem causeOff_raman (g : Nat) (s : State) : (causeOff g s).raman = s.raman := rfl
@[simp] theorem causeOff_aux (g : Nat) (s : State) : (causeOff g s).aux = s.aux := rfl
@[simp] theorem causeOff_zone (g : Nat) (s : State) : (causeOff g s).zone = s.zone := rfl
@[simp] theorem causeOff_capt (g : Nat) (s : State) : (causeOff g s).capt = s.capt := rfl
@[simp] theorem causeOff_zc (g : Nat) (s : State) : (causeOff g s).zc = s.zc := rfl
@[simp] theorem causeOff_icu (g : Nat) (s : State) : (causeOff g s).icu = s.icu := rfl
@[simp] theorem causeOff_mbox (g : Nat) (s : State) : (causeOff g s).mbox = s.mbox := rfl
@[simp] theorem causeOff_alm (g : Nat) (s : State) : (causeOff g s).alm = s.alm := rfl
@[simp] theorem causeOff_cal (g : Nat) (s : State) : (causeOff g s).cal = s.cal := rfl
@[simp] theorem causeOff_flash (g : Nat) (s : State) : (causeOff g s).flash = s.flash := rfl
@[simp] theorem causeOff_stew (g : Nat) (s : State) : (causeOff g s).stew = s.stew := rfl
@[simp] theorem causeOff_twin (g : Nat) (s : State) : (causeOff g s).twin = s.twin := rfl
@[simp] theorem causeOff_b50 (g : Nat) (s : State) : (causeOff g s).b50 = s.b50 := rfl
@[simp] theorem causeOff_holds (g : Nat) (s : State) : (causeOff g s).holds = s.holds := rfl
@[simp] theorem causeOff_mem (g : Nat) (s : State) : (causeOff g s).mem = s.mem := rfl
@[simp] theorem causeOff_poison (g : Nat) (s : State) : (causeOff g s).poison = s.poison := rfl
@[simp] theorem causeOff_regions (g : Nat) (s : State) : (causeOff g s).regions = s.regions := rfl
@[simp] theorem causeOff_regionShadow (g : Nat) (s : State) : (causeOff g s).regionShadow = s.regionShadow := rfl
@[simp] theorem causeOff_memc (g : Nat) (s : State) : (causeOff g s).memc = s.memc := rfl
@[simp] theorem causeOff_free (g : Nat) (s : State) : (causeOff g s).free = s.free := rfl
@[simp] theorem causeOff_out (g : Nat) (s : State) : (causeOff g s).out = s.out := rfl
@[simp] theorem causeOff_pending (g : Nat) (s : State) : (causeOff g s).pending = s.pending := rfl

@[simp] theorem memWrite_shadow (a : Nat) (l : List Byte) (s : State) : (memWrite a l s).shadow = s.shadow := rfl
@[simp] theorem memWrite_live (a : Nat) (l : List Byte) (s : State) : (memWrite a l s).live = s.live := rfl
@[simp] theorem memWrite_status (a : Nat) (l : List Byte) (s : State) : (memWrite a l s).status = s.status := rfl
@[simp] theorem memWrite_tickQ (a : Nat) (l : List Byte) (s : State) : (memWrite a l s).tickQ = s.tickQ := rfl
@[simp] theorem memWrite_commits (a : Nat) (l : List Byte) (s : State) : (memWrite a l s).commits = s.commits := rfl
@[simp] theorem memWrite_req (a : Nat) (l : List Byte) (s : State) : (memWrite a l s).req = s.req := rfl
@[simp] theorem memWrite_time (a : Nat) (l : List Byte) (s : State) : (memWrite a l s).time = s.time := rfl
@[simp] theorem memWrite_tbase (a : Nat) (l : List Byte) (s : State) : (memWrite a l s).tbase = s.tbase := rfl
@[simp] theorem memWrite_tdc (a : Nat) (l : List Byte) (s : State) : (memWrite a l s).tdc = s.tdc := rfl
@[simp] theorem memWrite_merid (a : Nat) (l : List Byte) (s : State) : (memWrite a l s).merid = s.merid := rfl
@[simp] theorem memWrite_lanes (a : Nat) (l : List Byte) (s : State) : (memWrite a l s).lanes = s.lanes := rfl
@[simp] theorem memWrite_cmp (a : Nat) (l : List Byte) (s : State) : (memWrite a l s).cmp = s.cmp := rfl
@[simp] theorem memWrite_strm (a : Nat) (l : List Byte) (s : State) : (memWrite a l s).strm = s.strm := rfl
@[simp] theorem memWrite_pcie (a : Nat) (l : List Byte) (s : State) : (memWrite a l s).pcie = s.pcie := rfl
@[simp] theorem memWrite_shots (a : Nat) (l : List Byte) (s : State) : (memWrite a l s).shots = s.shots := rfl
@[simp] theorem memWrite_loops (a : Nat) (l : List Byte) (s : State) : (memWrite a l s).loops = s.loops := rfl
@[simp] theorem memWrite_drive (a : Nat) (l : List Byte) (s : State) : (memWrite a l s).drive = s.drive := rfl
@[simp] theorem memWrite_budget (a : Nat) (l : List Byte) (s : State) : (memWrite a l s).budget = s.budget := rfl
@[simp] theorem memWrite_rxf (a : Nat) (l : List Byte) (s : State) : (memWrite a l s).rxf = s.rxf := rfl
@[simp] theorem memWrite_shotp (a : Nat) (l : List Byte) (s : State) : (memWrite a l s).shotp = s.shotp := rfl
@[simp] theorem memWrite_trace (a : Nat) (l : List Byte) (s : State) : (memWrite a l s).trace = s.trace := rfl
@[simp] theorem memWrite_phz (a : Nat) (l : List Byte) (s : State) : (memWrite a l s).phz = s.phz := rfl
@[simp] theorem memWrite_slow (a : Nat) (l : List Byte) (s : State) : (memWrite a l s).slow = s.slow := rfl
@[simp] theorem memWrite_raman (a : Nat) (l : List Byte) (s : State) : (memWrite a l s).raman = s.raman := rfl
@[simp] theorem memWrite_aux (a : Nat) (l : List Byte) (s : State) : (memWrite a l s).aux = s.aux := rfl
@[simp] theorem memWrite_zone (a : Nat) (l : List Byte) (s : State) : (memWrite a l s).zone = s.zone := rfl
@[simp] theorem memWrite_capt (a : Nat) (l : List Byte) (s : State) : (memWrite a l s).capt = s.capt := rfl
@[simp] theorem memWrite_zc (a : Nat) (l : List Byte) (s : State) : (memWrite a l s).zc = s.zc := rfl
@[simp] theorem memWrite_icu (a : Nat) (l : List Byte) (s : State) : (memWrite a l s).icu = s.icu := rfl
@[simp] theorem memWrite_mbox (a : Nat) (l : List Byte) (s : State) : (memWrite a l s).mbox = s.mbox := rfl
@[simp] theorem memWrite_alm (a : Nat) (l : List Byte) (s : State) : (memWrite a l s).alm = s.alm := rfl
@[simp] theorem memWrite_cal (a : Nat) (l : List Byte) (s : State) : (memWrite a l s).cal = s.cal := rfl
@[simp] theorem memWrite_flash (a : Nat) (l : List Byte) (s : State) : (memWrite a l s).flash = s.flash := rfl
@[simp] theorem memWrite_stew (a : Nat) (l : List Byte) (s : State) : (memWrite a l s).stew = s.stew := rfl
@[simp] theorem memWrite_twin (a : Nat) (l : List Byte) (s : State) : (memWrite a l s).twin = s.twin := rfl
@[simp] theorem memWrite_b50 (a : Nat) (l : List Byte) (s : State) : (memWrite a l s).b50 = s.b50 := rfl
@[simp] theorem memWrite_holds (a : Nat) (l : List Byte) (s : State) : (memWrite a l s).holds = s.holds := rfl
@[simp] theorem memWrite_causes (a : Nat) (l : List Byte) (s : State) : (memWrite a l s).causes = s.causes := rfl
@[simp] theorem memWrite_regions (a : Nat) (l : List Byte) (s : State) : (memWrite a l s).regions = s.regions := rfl
@[simp] theorem memWrite_regionShadow (a : Nat) (l : List Byte) (s : State) : (memWrite a l s).regionShadow = s.regionShadow := rfl
@[simp] theorem memWrite_memc (a : Nat) (l : List Byte) (s : State) : (memWrite a l s).memc = s.memc := rfl
@[simp] theorem memWrite_free (a : Nat) (l : List Byte) (s : State) : (memWrite a l s).free = s.free := rfl
@[simp] theorem memWrite_out (a : Nat) (l : List Byte) (s : State) : (memWrite a l s).out = s.out := rfl
@[simp] theorem memWrite_pending (a : Nat) (l : List Byte) (s : State) : (memWrite a l s).pending = s.pending := rfl

/-! ### readings of registers after an update -/

theorem st_setSt_self (f : Fld) (v : Nat) (s : State) (h : f.width ≤ 32) : (s.setSt f v).st f = v % 2 ^ f.width :=
  RegFile.get_set_self s.status f v h

theorem st_setSt_ne (f g : Fld) (v : Nat) (s : State) (h : g.key ≠ f.key) : (s.setSt f v).st g = s.st g :=
  RegFile.get_set_ne s.status f g v h

theorem lv_setLive_self (f : Fld) (v : Nat) (s : State) (h : f.width ≤ 32) : (s.setLive f v).lv f = v % 2 ^ f.width :=
  RegFile.get_set_self s.live f v h

theorem lv_setLive_ne (f g : Fld) (v : Nat) (s : State) (h : g.key ≠ f.key) : (s.setLive f v).lv g = s.lv g :=
  RegFile.get_set_ne s.live f g v h

theorem lv_setNow_self (f : Fld) (v : Nat) (s : State) (h : f.width ≤ 32) : (s.setNow f v).lv f = v % 2 ^ f.width :=
  RegFile.get_set_self s.live f v h

theorem lv_setNow_ne (f g : Fld) (v : Nat) (s : State) (h : g.key ≠ f.key) : (s.setNow f v).lv g = s.lv g :=
  RegFile.get_set_ne s.live f g v h

theorem sh_setNow_self (f : Fld) (v : Nat) (s : State) (h : f.width ≤ 32) : (s.setNow f v).sh f = v % 2 ^ f.width :=
  RegFile.get_set_self s.shadow f v h

theorem sh_setNow_ne (f g : Fld) (v : Nat) (s : State) (h : g.key ≠ f.key) : (s.setNow f v).sh g = s.sh g :=
  RegFile.get_set_ne s.shadow f g v h

@[simp] theorem setSt_lv (f g : Fld) (v : Nat) (s : State) : (s.setSt f v).lv g = s.lv g := rfl
@[simp] theorem setSt_sh (f g : Fld) (v : Nat) (s : State) : (s.setSt f v).sh g = s.sh g := rfl
@[simp] theorem setLive_st (f g : Fld) (v : Nat) (s : State) : (s.setLive f v).st g = s.st g := rfl
@[simp] theorem setLive_sh (f g : Fld) (v : Nat) (s : State) : (s.setLive f v).sh g = s.sh g := rfl
@[simp] theorem setNow_st (f g : Fld) (v : Nat) (s : State) : (s.setNow f v).st g = s.st g := rfl
@[simp] theorem emit_st (g : Fld) (o : Output) (s : State) : (s.emit o).st g = s.st g := rfl
@[simp] theorem emit_lv (g : Fld) (o : Output) (s : State) : (s.emit o).lv g = s.lv g := rfl
@[simp] theorem emit_sh (g : Fld) (o : Output) (s : State) : (s.emit o).sh g = s.sh g := rfl
@[simp] theorem touch_st (g : Fld) (p : Nat) (s : State) : (s.touch p).st g = s.st g := rfl
@[simp] theorem touch_lv (g : Fld) (p : Nat) (s : State) : (s.touch p).lv g = s.lv g := rfl
@[simp] theorem touch_sh (g : Fld) (p : Nat) (s : State) : (s.touch p).sh g = s.sh g := rfl

/-- A raised bit of an interrupt status register reads 1, and the others stay. -/
theorem st_raise_self (p b : Nat) (s : State) :
    (s.raise p b).st (irqStatus p) = (s.st (irqStatus p) ||| 2 ^ b) % 2 ^ 32 :=
  st_setSt_self (irqStatus p) _ s (by decide : (32 : Nat) ≤ 32)

/-- Raising an interrupt bit changes no other status field. -/
theorem st_raise_ne (p b : Nat) (g : Fld) (s : State) (h : g.key ≠ (irqStatus p).key) : (s.raise p b).st g = s.st g :=
  st_setSt_ne (irqStatus p) g _ s h

end Sys2Proof.Machine
end

