-- ==== Sys2Proof/Laws/Time.lean ====
section
/-!
SUPPORT. What the passing of device time can do: it moves the epoch, the adjustment, staged stamps and their status, and nothing else.
-/

namespace Sys2Proof.Machine

/-- The two states agree but for device time, the epoch, the status that a slew or a wrap of it touches (R60 to R63), and the stamp channels with the
status of their page (R76). -/
structure TimeOnly (s t : State) : Prop where
  st : ∀ f : Fld, f.key ≠ Reg.TBASE_ADJ_LEFT.key → f.key ≠ Reg.TBASE_STATUS_ADJ_BUSY.key → f.key ≠ (irqStatus 0x012).key →
    f.key / 131072 ≠ 0x013 → t.st f = s.st f
  tdc : { t.tdc with chans := [] } = { s.tdc with chans := [] }
  shadow : t.shadow = s.shadow
  live : t.live = s.live
  tickQ : t.tickQ = s.tickQ
  commits : t.commits = s.commits
  req : t.req = s.req
  merid : t.merid = s.merid
  lanes : t.lanes = s.lanes
  cmp : t.cmp = s.cmp
  strm : t.strm = s.strm
  pcie : t.pcie = s.pcie
  shots : t.shots = s.shots
  loops : t.loops = s.loops
  drive : t.drive = s.drive
  budget : t.budget = s.budget
  rxf : t.rxf = s.rxf
  shotp : t.shotp = s.shotp
  trace : t.trace = s.trace
  phz : t.phz = s.phz
  slow : t.slow = s.slow
  raman : t.raman = s.raman
  aux : t.aux = s.aux
  zone : t.zone = s.zone
  capt : t.capt = s.capt
  zc : t.zc = s.zc
  icu : t.icu = s.icu
  mbox : t.mbox = s.mbox
  alm : t.alm = s.alm
  cal : t.cal = s.cal
  flash : t.flash = s.flash
  stew : t.stew = s.stew
  twin : t.twin = s.twin
  b50 : t.b50 = s.b50
  holds : t.holds = s.holds
  causes : t.causes = s.causes
  mem : t.mem = s.mem
  poison : t.poison = s.poison
  regions : t.regions = s.regions
  regionShadow : t.regionShadow = s.regionShadow
  memc : t.memc = s.memc
  free : t.free = s.free
  out : t.out = s.out
  pending : t.pending = s.pending

theorem timeOnly_refl (s : State) : TimeOnly s s := ⟨fun _ _ _ _ _ => rfl, rfl, rfl, rfl, rfl, rfl, rfl, rfl, rfl, rfl, rfl, rfl, rfl, rfl, rfl, rfl, rfl, rfl, rfl, rfl, rfl, rfl, rfl, rfl, rfl, rfl, rfl, rfl, rfl, rfl, rfl, rfl, rfl, rfl, rfl, rfl, rfl, rfl, rfl, rfl, rfl, rfl, rfl, rfl⟩

theorem timeOnly_trans (s t u : State) (h : TimeOnly s t) (g : TimeOnly t u) : TimeOnly s u :=
  ⟨fun f h1 h2 h3 h4 => (g.st f h1 h2 h3 h4).trans (h.st f h1 h2 h3 h4), g.tdc.trans h.tdc, g.shadow.trans h.shadow, g.live.trans h.live, g.tickQ.trans h.tickQ, g.commits.trans h.commits, g.req.trans h.req, g.merid.trans h.merid, g.lanes.trans h.lanes, g.cmp.trans h.cmp, g.strm.trans h.strm, g.pcie.trans h.pcie, g.shots.trans h.shots, g.loops.trans h.loops, g.drive.trans h.drive, g.budget.trans h.budget, g.rxf.trans h.rxf, g.shotp.trans h.shotp, g.trace.trans h.trace, g.phz.trans h.phz, g.slow.trans h.slow, g.raman.trans h.raman, g.aux.trans h.aux, g.zone.trans h.zone, g.capt.trans h.capt, g.zc.trans h.zc, g.icu.trans h.icu, g.mbox.trans h.mbox, g.alm.trans h.alm, g.cal.trans h.cal, g.flash.trans h.flash, g.stew.trans h.stew, g.twin.trans h.twin, g.b50.trans h.b50, g.holds.trans h.holds, g.causes.trans h.causes, g.mem.trans h.mem, g.poison.trans h.poison, g.regions.trans h.regions, g.regionShadow.trans h.regionShadow, g.memc.trans h.memc, g.free.trans h.free, g.out.trans h.out, g.pending.trans h.pending⟩

theorem timeOnly_epoch (d : Int) (s : State) : TimeOnly s (epochMove d s) := ⟨fun _ _ _ _ _ => rfl, rfl, rfl, rfl, rfl, rfl, rfl, rfl, rfl, rfl, rfl, rfl, rfl, rfl, rfl, rfl, rfl, rfl, rfl, rfl, rfl, rfl, rfl, rfl, rfl, rfl, rfl, rfl, rfl, rfl, rfl, rfl, rfl, rfl, rfl, rfl, rfl, rfl, rfl, rfl, rfl, rfl, rfl, rfl⟩

theorem timeOnly_tbase (b : TBase) (s : State) : TimeOnly s { s with tbase := b } := ⟨fun _ _ _ _ _ => rfl, rfl, rfl, rfl, rfl, rfl, rfl, rfl, rfl, rfl, rfl, rfl, rfl, rfl, rfl, rfl, rfl, rfl, rfl, rfl, rfl, rfl, rfl, rfl, rfl, rfl, rfl, rfl, rfl, rfl, rfl, rfl, rfl, rfl, rfl, rfl, rfl, rfl, rfl, rfl, rfl, rfl, rfl, rfl⟩

theorem timeOnly_time (t : Time) (s : State) : TimeOnly s { s with time := t } := ⟨fun _ _ _ _ _ => rfl, rfl, rfl, rfl, rfl, rfl, rfl, rfl, rfl, rfl, rfl, rfl, rfl, rfl, rfl, rfl, rfl, rfl, rfl, rfl, rfl, rfl, rfl, rfl, rfl, rfl, rfl, rfl, rfl, rfl, rfl, rfl, rfl, rfl, rfl, rfl, rfl, rfl, rfl, rfl, rfl, rfl, rfl, rfl⟩

theorem timeOnly_raise (b : Nat) (s : State) : TimeOnly s (s.raise 0x012 b) := ⟨fun _ _ _ h _ => st_raise_ne _ _ _ _ h, rfl, rfl, rfl, rfl, rfl, rfl, rfl, rfl, rfl, rfl, rfl, rfl, rfl, rfl, rfl, rfl, rfl, rfl, rfl, rfl, rfl, rfl, rfl, rfl, rfl, rfl, rfl, rfl, rfl, rfl, rfl, rfl, rfl, rfl, rfl, rfl, rfl, rfl, rfl, rfl, rfl, rfl, rfl⟩

theorem timeOnly_left (v : Int) (s : State) : TimeOnly s (s.setStI Reg.TBASE_ADJ_LEFT v) :=
  ⟨fun f h _ _ _ => st_setSt_ne Reg.TBASE_ADJ_LEFT f _ _ h, rfl, rfl, rfl, rfl, rfl, rfl, rfl, rfl, rfl, rfl, rfl, rfl, rfl, rfl, rfl, rfl, rfl, rfl, rfl, rfl, rfl, rfl, rfl, rfl, rfl, rfl, rfl, rfl, rfl, rfl, rfl, rfl, rfl, rfl, rfl, rfl, rfl, rfl, rfl, rfl, rfl, rfl, rfl⟩

theorem timeOnly_busy (v : Nat) (s : State) : TimeOnly s (s.setSt Reg.TBASE_STATUS_ADJ_BUSY v) :=
  ⟨fun f _ h _ _ => st_setSt_ne Reg.TBASE_STATUS_ADJ_BUSY f _ _ h, rfl, rfl, rfl, rfl, rfl, rfl, rfl, rfl, rfl, rfl, rfl, rfl, rfl, rfl, rfl, rfl, rfl, rfl, rfl, rfl, rfl, rfl, rfl, rfl, rfl, rfl, rfl, rfl, rfl, rfl, rfl, rfl, rfl, rfl, rfl, rfl, rfl, rfl, rfl, rfl, rfl, rfl, rfl⟩

theorem timeOnly_slew (d : Nat) (s : State) : TimeOnly s (slewEpoch d s) := by
  have key : ∀ (b : TBase) (e v : Int) (c : TBase), TimeOnly s ((epochMove e { s with tbase := b }).setStI Reg.TBASE_ADJ_LEFT v) ∧
      TimeOnly s (({ (epochMove e { s with tbase := b }).setStI Reg.TBASE_ADJ_LEFT v with tbase := c }.setSt
        Reg.TBASE_STATUS_ADJ_BUSY 0).raise 0x012 7) := by
    intro b e v c
    have h := timeOnly_trans _ _ _ (timeOnly_trans _ _ _ (timeOnly_tbase b s) (timeOnly_epoch e _)) (timeOnly_left v _)
    exact ⟨h, timeOnly_trans _ _ _ (timeOnly_trans _ _ _ (timeOnly_trans _ _ _ h (timeOnly_tbase c _)) (timeOnly_busy 0 _))
      (timeOnly_raise 7 _)⟩
  unfold slewEpoch
  by_cases h : s.stS Reg.TBASE_ADJ_LEFT = 0
  · simp only [h, if_true]; exact timeOnly_refl s
  · simp only [h, if_false]
    repeat' split
    all_goals first
      | exact (key _ _ _ _).2
      | exact (key _ _ _ {}).1

theorem timeOnly_wrap (s : State) : TimeOnly s (epochWrapped s) := by
  unfold epochWrapped
  exact timeOnly_trans _ _ _ (timeOnly_epoch _ s) (timeOnly_raise 5 _)

/-- A status field of the TDC page is written. -/
theorem timeOnly_tdcSt (g : Fld) (v : Nat) (s : State) (h : g.key / 131072 = 0x013) : TimeOnly s (s.setSt g v) :=
  ⟨fun f _ _ _ h4 => st_setSt_ne g f v s (fun e => h4 ((congrArg (· / 131072) e).trans h)), rfl, rfl, rfl, rfl, rfl, rfl, rfl, rfl, rfl, rfl, rfl, rfl, rfl, rfl, rfl, rfl, rfl, rfl, rfl, rfl, rfl, rfl, rfl, rfl, rfl, rfl, rfl, rfl, rfl, rfl, rfl, rfl, rfl, rfl, rfl, rfl, rfl, rfl, rfl, rfl, rfl, rfl, rfl⟩

theorem timeOnly_setTdcChan (n : Nat) (c : TdcChan) (s : State) (h : n < 8) : TimeOnly s (s.setTdcChan n c) := by
  have k : (Reg.TDC_CHn_COUNT.ix n).key / 131072 = 0x013 := by
    simp only [Fld.key, Fld.ix, Reg.TDC_CHn_COUNT, fld, Fld.arr]; omega
  have a : TimeOnly s { s with tdc := { s.tdc with chans := Amap.put n c s.tdc.chans } } := ⟨fun _ _ _ _ _ => rfl, rfl, rfl, rfl, rfl, rfl, rfl, rfl, rfl, rfl, rfl, rfl, rfl, rfl, rfl, rfl, rfl, rfl, rfl, rfl, rfl, rfl, rfl, rfl, rfl, rfl, rfl, rfl, rfl, rfl, rfl, rfl, rfl, rfl, rfl, rfl, rfl, rfl, rfl, rfl, rfl, rfl, rfl, rfl⟩
  exact timeOnly_trans _ _ _ (timeOnly_trans _ _ _ a (timeOnly_tdcSt _ _ _ k)) (timeOnly_tdcSt _ _ _ (by decide))

theorem timeOnly_enqueue (n : Nat) (st : Time) (m : Word) (s : State) (h : n < 8) : TimeOnly s (enqueueStamp n st m s) := by
  have k : (Reg.TDC_CHn_OVERFLOW.ix n).key / 131072 = 0x013 := by
    simp only [Fld.key, Fld.ix, Reg.TDC_CHn_OVERFLOW, fld, Fld.arr]; omega
  simp only [enqueueStamp]
  split
  · exact timeOnly_refl s
  · split
    · exact timeOnly_trans _ _ _ (timeOnly_trans _ _ _ (timeOnly_setTdcChan n _ s h) (timeOnly_tdcSt _ _ _ k))
        (timeOnly_tdcSt (irqStatus 0x013) _ _ (by decide))
    · exact timeOnly_setTdcChan n _ s h

theorem timeOnly_foldl {α : Type} (f : State → α → State) (l : List α) (s : State) (h : ∀ x ∈ l, ∀ u, TimeOnly u (f u x)) :
    TimeOnly s (l.foldl f s) := by
  induction l generalizing s with
  | nil => exact timeOnly_refl s
  | cons x r ih =>
    exact timeOnly_trans _ _ _ (h x (by simp) s) (ih _ fun y hy => h y (by simp [hy]))

/-- What the end of a stamp's stay in the staging buffers can do. -/
theorem timeOnly_drain (s : State) : TimeOnly s (drainStamps s) := by
  refine timeOnly_foldl _ _ s fun e he u => ?_
  have h : e.1 < 8 := by
    have := (List.mem_filter.1 he).2
    simp only [Bool.and_eq_true, decide_eq_true_eq] at this
    exact this.1
  exact timeOnly_trans _ _ _ (timeOnly_setTdcChan e.1 _ u h) (timeOnly_foldl _ _ _ fun _ _ w => timeOnly_enqueue e.1 _ _ w h)

/-- What the arrival of device time `t` can do. -/
theorem timeOnly_advance (t : Time) (s : State) : TimeOnly s (advance t s) := by
  refine timeOnly_trans _ _ _ ?_ (timeOnly_drain _)
  split
  · exact timeOnly_refl s
  · refine timeOnly_trans _ _ _ ?_ (timeOnly_time (clockFloor t) _)
    split
    · exact timeOnly_trans _ _ _ (timeOnly_slew _ s) (timeOnly_wrap _)
    · exact timeOnly_slew _ s

theorem drain_time (s : State) : (drainStamps s).time = s.time := by
  have enq : ∀ (n : Nat) (a : Time) (m : Word) (u : State), (enqueueStamp n a m u).time = u.time := by
    intro n a m u
    simp only [enqueueStamp]
    repeat' split
    all_goals rfl
  have run : ∀ (n : Nat) (l : List (Time × Time × Word)) (u : State),
      (l.foldl (fun s e => enqueueStamp n e.2.1 e.2.2 s) u).time = u.time := by
    intro n l
    induction l with
    | nil => intro u; rfl
    | cons x r ih => intro u; exact (ih _).trans (enq n _ _ u)
  have all : ∀ (now : Time) (l : List (Nat × TdcChan)) (u : State), (l.foldl (fun x e => drainStaging e.1 now x) u).time = u.time := by
    intro now l
    induction l with
    | nil => intro u; rfl
    | cons x r ih => intro u; exact (ih _).trans (run x.1 _ _)
  exact all _ _ s

/-- Device time reads the clock edge at or before `t` where it runs and that edge does not lie behind. -/
theorem advance_time (t : Time) (s : State) (r : s.timeRuns = true) (h : 0 ≤ tDiff (clockFloor t) s.time) : (advance t s).time = clockFloor t := by
  have g : (!s.timeRuns || decide (tDiff (clockFloor t) s.time < 0)) = false := by simp [r]; omega
  unfold advance
  rw [drain_time]
  simp [g]

theorem advance_st (t : Time) (s : State) (f : Fld) (h1 : f.key ≠ Reg.TBASE_ADJ_LEFT.key)
    (h2 : f.key ≠ Reg.TBASE_STATUS_ADJ_BUSY.key) (h3 : f.key ≠ (irqStatus 0x012).key) (h4 : f.key / 131072 ≠ 0x013) :
    (advance t s).st f = s.st f :=
  (timeOnly_advance t s).st f h1 h2 h3 h4

@[simp] theorem advance_shadow (t : Time) (s : State) : (advance t s).shadow = s.shadow := (timeOnly_advance t s).shadow
@[simp] theorem advance_live (t : Time) (s : State) : (advance t s).live = s.live := (timeOnly_advance t s).live
@[simp] theorem advance_tickQ (t : Time) (s : State) : (advance t s).tickQ = s.tickQ := (timeOnly_advance t s).tickQ
@[simp] theorem advance_commits (t : Time) (s : State) : (advance t s).commits = s.commits := (timeOnly_advance t s).commits
@[simp] theorem advance_req (t : Time) (s : State) : (advance t s).req = s.req := (timeOnly_advance t s).req
@[simp] theorem advance_merid (t : Time) (s : State) : (advance t s).merid = s.merid := (timeOnly_advance t s).merid
@[simp] theorem advance_lanes (t : Time) (s : State) : (advance t s).lanes = s.lanes := (timeOnly_advance t s).lanes
@[simp] theorem advance_cmp (t : Time) (s : State) : (advance t s).cmp = s.cmp := (timeOnly_advance t s).cmp
@[simp] theorem advance_strm (t : Time) (s : State) : (advance t s).strm = s.strm := (timeOnly_advance t s).strm
@[simp] theorem advance_pcie (t : Time) (s : State) : (advance t s).pcie = s.pcie := (timeOnly_advance t s).pcie
@[simp] theorem advance_shots (t : Time) (s : State) : (advance t s).shots = s.shots := (timeOnly_advance t s).shots
@[simp] theorem advance_loops (t : Time) (s : State) : (advance t s).loops = s.loops := (timeOnly_advance t s).loops
@[simp] theorem advance_drive (t : Time) (s : State) : (advance t s).drive = s.drive := (timeOnly_advance t s).drive
@[simp] theorem advance_budget (t : Time) (s : State) : (advance t s).budget = s.budget := (timeOnly_advance t s).budget
@[simp] theorem advance_rxf (t : Time) (s : State) : (advance t s).rxf = s.rxf := (timeOnly_advance t s).rxf
@[simp] theorem advance_shotp (t : Time) (s : State) : (advance t s).shotp = s.shotp := (timeOnly_advance t s).shotp
@[simp] theorem advance_trace (t : Time) (s : State) : (advance t s).trace = s.trace := (timeOnly_advance t s).trace
@[simp] theorem advance_phz (t : Time) (s : State) : (advance t s).phz = s.phz := (timeOnly_advance t s).phz
@[simp] theorem advance_slow (t : Time) (s : State) : (advance t s).slow = s.slow := (timeOnly_advance t s).slow
@[simp] theorem advance_raman (t : Time) (s : State) : (advance t s).raman = s.raman := (timeOnly_advance t s).raman
@[simp] theorem advance_aux (t : Time) (s : State) : (advance t s).aux = s.aux := (timeOnly_advance t s).aux
@[simp] theorem advance_zone (t : Time) (s : State) : (advance t s).zone = s.zone := (timeOnly_advance t s).zone
@[simp] theorem advance_capt (t : Time) (s : State) : (advance t s).capt = s.capt := (timeOnly_advance t s).capt
@[simp] theorem advance_zc (t : Time) (s : State) : (advance t s).zc = s.zc := (timeOnly_advance t s).zc
@[simp] theorem advance_icu (t : Time) (s : State) : (advance t s).icu = s.icu := (timeOnly_advance t s).icu
@[simp] theorem advance_mbox (t : Time) (s : State) : (advance t s).mbox = s.mbox := (timeOnly_advance t s).mbox
@[simp] theorem advance_alm (t : Time) (s : State) : (advance t s).alm = s.alm := (timeOnly_advance t s).alm
@[simp] theorem advance_cal (t : Time) (s : State) : (advance t s).cal = s.cal := (timeOnly_advance t s).cal
@[simp] theorem advance_flash (t : Time) (s : State) : (advance t s).flash = s.flash := (timeOnly_advance t s).flash
@[simp] theorem advance_stew (t : Time) (s : State) : (advance t s).stew = s.stew := (timeOnly_advance t s).stew
@[simp] theorem advance_twin (t : Time) (s : State) : (advance t s).twin = s.twin := (timeOnly_advance t s).twin
@[simp] theorem advance_b50 (t : Time) (s : State) : (advance t s).b50 = s.b50 := (timeOnly_advance t s).b50
@[simp] theorem advance_holds (t : Time) (s : State) : (advance t s).holds = s.holds := (timeOnly_advance t s).holds
@[simp] theorem advance_causes (t : Time) (s : State) : (advance t s).causes = s.causes := (timeOnly_advance t s).causes
@[simp] theorem advance_mem (t : Time) (s : State) : (advance t s).mem = s.mem := (timeOnly_advance t s).mem
@[simp] theorem advance_poison (t : Time) (s : State) : (advance t s).poison = s.poison := (timeOnly_advance t s).poison
@[simp] theorem advance_regions (t : Time) (s : State) : (advance t s).regions = s.regions := (timeOnly_advance t s).regions
@[simp] theorem advance_regionShadow (t : Time) (s : State) : (advance t s).regionShadow = s.regionShadow := (timeOnly_advance t s).regionShadow
@[simp] theorem advance_memc (t : Time) (s : State) : (advance t s).memc = s.memc := (timeOnly_advance t s).memc
@[simp] theorem advance_free (t : Time) (s : State) : (advance t s).free = s.free := (timeOnly_advance t s).free
@[simp] theorem advance_out (t : Time) (s : State) : (advance t s).out = s.out := (timeOnly_advance t s).out
@[simp] theorem advance_pending (t : Time) (s : State) : (advance t s).pending = s.pending := (timeOnly_advance t s).pending

@[simp] theorem advance_lv (t : Time) (s : State) (f : Fld) : (advance t s).lv f = s.lv f := by simp [State.lv]
@[simp] theorem advance_on (t : Time) (s : State) (f : Fld) : (advance t s).on f = s.on f := by simp [State.on]
@[simp] theorem advance_sh (t : Time) (s : State) (f : Fld) : (advance t s).sh f = s.sh f := by simp [State.sh]
@[simp] theorem advance_mode (t : Time) (s : State) : (advance t s).mode = s.mode :=
  advance_st t s Reg.SYS_MODE_STATUS_CUR (by decide) (by decide) (by decide) (by decide)
@[simp] theorem advance_laneState (t : Time) (s : State) (n : Lane) : (advance t s).laneState n = s.laneState n := by
  refine advance_st t s (laneStateF n) ?_ ?_ ?_ ?_ <;> (revert n; decide)
@[simp] theorem advance_reaches (t : Time) (s : State) (q : Requester) (p : Nat) : (advance t s).reaches q p = s.reaches q p := by
  simp [State.reaches]
@[simp] theorem advance_srcLane (t : Time) (s : State) : (advance t s).srcLane = s.srcLane := by simp [State.srcLane]
@[simp] theorem advance_lanePeriod (t : Time) (s : State) (n : Lane) : (advance t s).lanePeriod n = s.lanePeriod n := by
  simp [State.lanePeriod]
@[simp] theorem advance_ticksRun (t : Time) (s : State) : (advance t s).ticksRun = s.ticksRun := by
  unfold State.ticksRun
  simp only [advance_mode, advance_cal, State.stOn]
  rw [advance_st t s Reg.SYS_MODE_STATUS_L0_STATE (by decide) (by decide) (by decide) (by decide)]
@[simp] theorem advance_tickCount (t : Time) (s : State) : (advance t s).tickCount = s.tickCount := by
  unfold State.tickCount State.st2
  rw [advance_st t s Reg.MERID_TICK_COUNT_LO (by decide) (by decide) (by decide) (by decide),
    advance_st t s Reg.MERID_TICK_COUNT_HI (by decide) (by decide) (by decide) (by decide)]

/-! ### register accesses -/

/-- A write of a page that the requester reaches takes its effect. -/
theorem busWrite_reaches (q : Requester) (p : Nat) (k : State → State) (s : State) (h : s.reaches q p = true) : s.busWrite q p k = k s := by
  simp [State.busWrite, h]

/-- The same at a shadow word, where the page's pending commit has gone stale. -/
theorem shadowWrite_reaches (q : Requester) (p : Nat) (k : State → State) (s : State) (h : s.reaches q p = true) :
    s.shadowWrite q p k = k (s.touch p) := by
  simp [State.shadowWrite, State.busWrite, h]

/-- A read of a page that the requester reaches takes its effect. -/
theorem busRead_reaches (q : Requester) (p : Nat) (k : State → State) (s : State) (h : s.reaches q p = true) : s.busRead q p k = k s := by
  have e : (q == Requester.smbus && !s.on Reg.MGMT_SMB_EN) = false := by
    cases q <;> simp_all [State.reaches]
  simp [State.busRead, h, e]

/-- A write of a page that the requester does not reach leaves every state but what left the device (R20, R569). -/
theorem busWrite_refused (q : Requester) (p : Nat) (k : State → State) (s : State) (h : s.reaches q p = false) :
    s.busWrite q p k = s ∨ s.busWrite q p k = s.emit (.completion none false) := by
  unfold State.busWrite
  rw [h]
  cases q with
  | pcie f => by_cases g : f.val = 0 <;> simp [g]
  | _ => simp

end Sys2Proof.Machine
end

