-- ==== Sys2Proof/Laws/Records.lean ====
section
/-!
SUPPORT. What the forming of records can do: streams, context slots, the queue of ready records and four status fields change.
-/

namespace Sys2Proof.Machine

/-- The two states agree but for the streams, the context slots, the ready records and the counts that forming a record touches
(R335, R337, R379). -/
structure RecordsOnly (s t : State) : Prop where
  st : ∀ f : Fld, f.key ≠ Reg.CMP_PAUSE_DROPS.key → f.key ≠ Reg.STRM_STREAMS.key → f.key ≠ Reg.CMP_BUF_TOTAL.key → f.key ≠ Reg.CMP_BUF_FREE.key → t.st f = s.st f
  shadow : t.shadow = s.shadow
  live : t.live = s.live
  tickQ : t.tickQ = s.tickQ
  commits : t.commits = s.commits
  req : t.req = s.req
  time : t.time = s.time
  tbase : t.tbase = s.tbase
  tdc : t.tdc = s.tdc
  merid : t.merid = s.merid
  lanes : t.lanes = s.lanes
  pcie : t.pcie = s.pcie
  shots : t.shots = s.shots
  loops : t.loops = s.loops
  rxf : t.rxf = s.rxf
  shotp : t.shotp = s.shotp
  trace : t.trace = s.trace
  phz : t.phz = s.phz
  slow : t.slow = s.slow
  raman : t.raman = s.raman
  aux : t.aux = s.aux
  zone : t.zone = s.zone
  capt : t.capt = s.capt
  zc : t.zc = s.zc
  icu : t.icu = s.icu
  mbox : t.mbox = s.mbox
  alm : t.alm = s.alm
  cal : t.cal = s.cal
  flash : t.flash = s.flash
  stew : t.stew = s.stew
  twin : t.twin = s.twin
  b50 : t.b50 = s.b50
  holds : t.holds = s.holds
  causes : t.causes = s.causes
  mem : t.mem = s.mem
  poison : t.poison = s.poison
  regions : t.regions = s.regions
  regionShadow : t.regionShadow = s.regionShadow
  memc : t.memc = s.memc
  free : t.free = s.free
  out : t.out = s.out
  pending : t.pending = s.pending

theorem recordsOnly_refl (s : State) : RecordsOnly s s := ⟨fun _ _ _ _ _ => rfl, rfl, rfl, rfl, rfl, rfl, rfl, rfl, rfl, rfl, rfl, rfl, rfl, rfl, rfl, rfl, rfl, rfl, rfl, rfl, rfl, rfl, rfl, rfl, rfl, rfl, rfl, rfl, rfl, rfl, rfl, rfl, rfl, rfl, rfl, rfl, rfl, rfl, rfl, rfl, rfl, rfl⟩

theorem recordsOnly_trans (s t u : State) (h : RecordsOnly s t) (g : RecordsOnly t u) : RecordsOnly s u :=
  ⟨fun f h0 h1 h2 h3 => (g.st f h0 h1 h2 h3).trans (h.st f h0 h1 h2 h3), g.shadow.trans h.shadow, g.live.trans h.live, g.tickQ.trans h.tickQ, g.commits.trans h.commits, g.req.trans h.req, g.time.trans h.time, g.tbase.trans h.tbase, g.tdc.trans h.tdc, g.merid.trans h.merid, g.lanes.trans h.lanes, g.pcie.trans h.pcie, g.shots.trans h.shots, g.loops.trans h.loops, g.rxf.trans h.rxf, g.shotp.trans h.shotp, g.trace.trans h.trace, g.phz.trans h.phz, g.slow.trans h.slow, g.raman.trans h.raman, g.aux.trans h.aux, g.zone.trans h.zone, g.capt.trans h.capt, g.zc.trans h.zc, g.icu.trans h.icu, g.mbox.trans h.mbox, g.alm.trans h.alm, g.cal.trans h.cal, g.flash.trans h.flash, g.stew.trans h.stew, g.twin.trans h.twin, g.b50.trans h.b50, g.holds.trans h.holds, g.causes.trans h.causes, g.mem.trans h.mem, g.poison.trans h.poison, g.regions.trans h.regions, g.regionShadow.trans h.regionShadow, g.memc.trans h.memc, g.free.trans h.free, g.out.trans h.out, g.pending.trans h.pending⟩

theorem recordsOnly_strm (x : Strm) (s : State) : RecordsOnly s { s with strm := x } := ⟨fun _ _ _ _ _ => rfl, rfl, rfl, rfl, rfl, rfl, rfl, rfl, rfl, rfl, rfl, rfl, rfl, rfl, rfl, rfl, rfl, rfl, rfl, rfl, rfl, rfl, rfl, rfl, rfl, rfl, rfl, rfl, rfl, rfl, rfl, rfl, rfl, rfl, rfl, rfl, rfl, rfl, rfl, rfl, rfl, rfl⟩

theorem recordsOnly_cmp (x : Cmp) (s : State) : RecordsOnly s { s with cmp := x } := ⟨fun _ _ _ _ _ => rfl, rfl, rfl, rfl, rfl, rfl, rfl, rfl, rfl, rfl, rfl, rfl, rfl, rfl, rfl, rfl, rfl, rfl, rfl, rfl, rfl, rfl, rfl, rfl, rfl, rfl, rfl, rfl, rfl, rfl, rfl, rfl, rfl, rfl, rfl, rfl, rfl, rfl, rfl, rfl, rfl, rfl⟩

theorem recordsOnly_both (x : Strm) (y : Cmp) (s : State) : RecordsOnly s { s with strm := x, cmp := y } := ⟨fun _ _ _ _ _ => rfl, rfl, rfl, rfl, rfl, rfl, rfl, rfl, rfl, rfl, rfl, rfl, rfl, rfl, rfl, rfl, rfl, rfl, rfl, rfl, rfl, rfl, rfl, rfl, rfl, rfl, rfl, rfl, rfl, rfl, rfl, rfl, rfl, rfl, rfl, rfl, rfl, rfl, rfl, rfl, rfl, rfl⟩

theorem recordsOnly_setSt (f : Fld) (v : Nat) (s : State) (h : f.key = Reg.CMP_PAUSE_DROPS.key ∨ f.key = Reg.STRM_STREAMS.key ∨
    f.key = Reg.CMP_BUF_TOTAL.key ∨ f.key = Reg.CMP_BUF_FREE.key) : RecordsOnly s (s.setSt f v) := by
  refine ⟨fun g h0 h1 h2 h3 => ?_, rfl, rfl, rfl, rfl, rfl, rfl, rfl, rfl, rfl, rfl, rfl, rfl, rfl, rfl, rfl, rfl, rfl, rfl, rfl, rfl, rfl, rfl, rfl, rfl, rfl, rfl, rfl, rfl, rfl, rfl, rfl, rfl, rfl, rfl, rfl, rfl, rfl, rfl, rfl, rfl, rfl⟩
  apply st_setSt_ne
  rcases h with h | h | h | h <;> rw [h] <;> assumption

theorem recordsOnly_setCtx (c : Nat) (x : Ctx) (s : State) : RecordsOnly s (s.setCtx c x) := recordsOnly_cmp _ s

theorem recordsOnly_updStream (sid : Nat) (f : Stream → Stream) (s : State) : RecordsOnly s (s.updStream sid f) := recordsOnly_strm _ s

theorem recordsOnly_syncBufs (s : State) : RecordsOnly s (syncBufs s) :=
  recordsOnly_trans _ _ _ (recordsOnly_setSt _ _ s (by simp)) (recordsOnly_setSt _ _ _ (by simp))

theorem recordsOnly_pauseDropAt (c : Nat) (s : State) : RecordsOnly s (pauseDropAt c s) :=
  recordsOnly_trans _ _ _ (recordsOnly_setSt Reg.CMP_PAUSE_DROPS _ s (by simp)) (recordsOnly_setCtx c _ _)

theorem recordsOnly_deliver (x : Stream) (r : Rec) (s : State) : RecordsOnly s (deliver x r s) := by
  unfold deliver
  simp only
  split
  · exact recordsOnly_pauseDropAt _ s
  · exact recordsOnly_trans _ _ _ (recordsOnly_setCtx _ _ s) (recordsOnly_cmp _ _)

theorem recordsOnly_stopAtBoundary (sid : Nat) (s : State) : RecordsOnly s (stopAtBoundary sid s) := by
  unfold stopAtBoundary
  split
  · simp only
    split
    · exact recordsOnly_trans _ _ _ (recordsOnly_trans _ _ _ (recordsOnly_trans _ _ _ (recordsOnly_both _ _ s) (recordsOnly_setCtx _ _ _))
        (recordsOnly_setSt Reg.STRM_STREAMS _ _ (by simp))) (recordsOnly_syncBufs _)
    · exact recordsOnly_refl s
  · exact recordsOnly_refl s

theorem recordsOnly_closeOpen (sid key : Nat) (s : State) : RecordsOnly s (closeOpen sid key s) := by
  unfold closeOpen
  split
  · split
    · exact recordsOnly_trans _ _ _ (recordsOnly_trans _ _ _ (recordsOnly_updStream _ _ s) (recordsOnly_deliver _ _ _))
        (recordsOnly_stopAtBoundary _ _)
    · exact recordsOnly_refl s
  · exact recordsOnly_refl s

theorem recordsOnly_growOpen (x : Stream) (key : Nat) (r0 : Rec) (f : Rec → Rec) (s : State) : RecordsOnly s (growOpen x key r0 f s) := by
  unfold growOpen
  split
  · split
    · exact recordsOnly_updStream _ _ s
    · split
      · exact recordsOnly_refl s
      · exact recordsOnly_updStream _ _ s
  · exact recordsOnly_refl s

/-- A fold of steps that only form records only forms records. -/
theorem recordsOnly_foldl {α : Type} (f : State → α → State) (l : List α) (s : State) (h : ∀ t x, RecordsOnly t (f t x)) :
    RecordsOnly s (l.foldl f s) := by
  induction l generalizing s with
  | nil => exact recordsOnly_refl s
  | cons x r ih => exact recordsOnly_trans _ _ _ (h s x) (ih (f s x))

theorem recordsOnly_addEntryWith (product : Nat) (p : Selection → Bool) (key : Nat) (r0 : Selection → Rec) (upd : Rec → Rec)
    (entry : List Byte) (flags : Nat) (s : State) : RecordsOnly s (addEntryWith product p key r0 upd entry flags s) := by
  unfold addEntryWith
  refine recordsOnly_foldl _ _ s fun t x => ?_
  simp only
  split
  · split
    · exact recordsOnly_trans _ _ _ (recordsOnly_growOpen _ _ _ _ t) (recordsOnly_closeOpen _ _ _)
    · exact recordsOnly_growOpen _ _ _ _ t
  · exact recordsOnly_growOpen _ _ _ _ t

theorem recordsOnly_addEntry (product : Nat) (p : Selection → Bool) (key : Nat) (r0 : Rec) (entry : List Byte) (flags : Nat) (s : State) :
    RecordsOnly s (addEntry product p key r0 entry flags s) := recordsOnly_addEntryWith _ _ _ _ _ _ _ s

theorem recordsOnly_addRecord (x : Stream) (r : Rec) (s : State) : RecordsOnly s (addRecord x r s) := by
  unfold addRecord
  split
  · exact recordsOnly_stopAtBoundary _ s
  · exact recordsOnly_deliver _ _ s

theorem recordsOnly_addFrame (product width : Nat) (n : Lane) (t till : Time) (total : Nat) (last : Bool) (bytes : Nat → Nat → List Byte)
    (flags : Nat → Nat → Nat) (s : State) : RecordsOnly s (addFrame product width n t till total last bytes flags s) := by
  unfold addFrame
  refine recordsOnly_foldl _ _ s fun u x => ?_
  simp only
  split
  · exact recordsOnly_refl u
  · split
    · split
      · exact recordsOnly_trans _ _ _ (recordsOnly_growOpen _ _ _ _ u) (recordsOnly_closeOpen _ _ _)
      · exact recordsOnly_growOpen _ _ _ _ u
    · exact recordsOnly_growOpen _ _ _ _ u

theorem recordsOnly_closeLane (n : Lane) (products : List Nat) (s : State) : RecordsOnly s (closeLane n products s) :=
  recordsOnly_foldl _ _ s fun u _ => recordsOnly_foldl _ _ u fun v _ => recordsOnly_closeOpen _ _ v

end Sys2Proof.Machine
end

