-- ==== Sys2Proof/WellFormed.lean ====
section
/-!
DEFINITION. Which commands are well formed: operands that a sender, a pin or the analogue world can present. The machine's meanings
are total, so no meaning depends on it; statements that need it name it.
-/

namespace Sys2Proof

/-- A number lies below a bound. -/
def wfBelow (n v : Nat) : Bool := decide (v < n)

/-- Numbers of points. -/
def wfAll (n : Nat) (l : List Nat) : Bool := l.all (wfBelow n)

/-- A register address: a page of BAR0 and a naturally aligned word (R545, R550). -/
def wfBus (page off : Nat) : Bool := wfBelow 0x1000 page && wfBelow 0x1000 off && off % 4 == 0

/-- The window of a page (R549). -/
def wfWindow (off : Nat) : Bool := decide (0xC00 ≤ off)

/-- A page that latches output faults (R108). -/
def wfFaultPage (page : Nat) : Bool := [0x018, 0x01A, 0x01B].contains page

/-- Converter codes of `n` channels, 12 bits each (R121). -/
def wfCodes (n : Nat) (codes : List (List Int)) : Bool :=
  codes.length == n && codes.all fun l => l.all fun v => decide (-2048 ≤ v ∧ v ≤ 2047)

/-- Samples of the six monitor photodiodes, taken together (R105). -/
def wfMeans (l : List (List Nat)) : Bool := l.all fun x => x.length == 6

/-- A servo current in 0.1 µA, within its limit (R124). -/
def wfServo (i : Int) : Bool := decide (-10000 ≤ i ∧ i ≤ 10000)

/-- What an output check measures (R107): a pump's sense code has 16 bits. -/
def wfCheck (c : DriveCheck) : Bool := match c with | .pump _ _ sense => wfBelow 65536 sense | _ => true

/-- Raman samples, 14 bits each (R217). -/
def wfRaman (l : List Int) : Bool := l.all fun v => decide (-8192 ≤ v ∧ v ≤ 8191)

/-- Eye widths of the nine byte lanes of a channel (R348). -/
def wfEyes (l : List (Nat × Nat)) : Bool := l.length == 9

/-- A training step and a byte lane (R348). -/
def wfFail (p : Nat × Nat) : Bool := wfBelow 6 p.1 && wfBelow 9 p.2

/-- A memory request of up to 64 bytes within one 64-byte unit (R355, R365). -/
def wfRequest (write : Bool) (ra : Nat) (data : List Byte) : Bool :=
  wfBelow (2 ^ 37) ra && (if write then decide (ra % 64 + data.length ≤ 64) && !data.isEmpty else ra % 64 == 0 && data.isEmpty)

/-- The source of a control message: an address and port of IP, or a mailbox (R388). -/
def wfCtl (c : Ctl) : Bool := match c.path with | .eth _ addr port => wfBelow (2 ^ 128) addr && wfBelow 65536 port | .mailbox _ => true

/-- A selection as its 16 bytes carry it (R378). -/
def wfSel (x : Selection) : Bool :=
  wfBelow 256 x.product && wfBelow 256 x.lane && wfBelow (2 ^ 32) x.first && wfBelow (2 ^ 32) x.count && wfBelow 65536 x.frames && wfBelow 65536 x.src

/-- A SUBSCRIBE body as its bytes carry it (R390). -/
def wfBody (b : SubBody) : Bool :=
  wfBelow 65536 b.leaseS && wfBelow 256 b.delivery && wfBelow 65536 b.dataPort && wfBelow 65536 b.fragBytes && wfBelow (2 ^ 128) b.group && b.sels.all wfSel

/-- A BAR2 access: a write carries its bytes (R410). -/
def wfBar2 (write : Bool) (len : Nat) (bytes : List Byte) : Bool := if write then bytes.length == len else bytes.isEmpty

/-- Measured items of the almanac (R473). -/
def wfPairs (l : List CalPair) : Bool := l.all fun p => wfBelow 4096 p.item

/-- A mirror item (R502): a page, a context slot, almanac items. -/
def wfItem (i : MirrorItem) : Bool :=
  match i with
  | .calibration u => wfAll 4096 (u.map (·.1))
  | .commitState p _ _ => wfBelow 0x1000 p
  | .codecContext slot _ _ _ => wfBelow 1024 slot
  | _ => true

/-- The four die sensors (R570). -/
def wfTemps (l : List Int) : Bool := l.length == 4

/-- Well-formed commands. -/
def wellFormed : Instr → Bool
  | .pageCommit _ _ page _ => wfBus page 0x018
  | .shotProcess _ _ codes combUe _ => wfCodes 4 codes && wfAll 262144 combUe
  | .phzProcess _ _ stateUe _ => wfAll 262144 stateUe
  | .loopUpdate _ samples => wfMeans samples
  | .overcurrent _ sense => wfBelow 65536 sense
  | .outputCheck c => wfCheck c
  | .faultClear _ page _ => wfFaultPage page
  | .arcDecision _ shots => shots.all (wfCodes 4)
  | .servoSat _ _ current => wfServo current
  | .traceFrame _ codes => wfCodes 4 codes
  | .segmentClose seg => wfBelow 65536 seg
  | .rearm z => wfBelow 4096 z
  | .holdExpired seg => wfBelow 65536 seg
  | .segmentFree seg => wfBelow 65536 seg
  | .ramanReturn _ x y baseX baseY _ => wfRaman x && wfRaman y && wfRaman baseX && wfRaman baseY
  | .chainLinkAvailable c => wfBelow 1024 c
  | .abandoned c => wfBelow 1024 c
  | .pauseDrop c => wfBelow 1024 c
  | .trainDone _ eyes failStep failLane => wfEyes eyes && wfBelow 6 failStep && wfBelow 9 failLane
  | .memcRequest _ _ write ra data => wfRequest write ra data
  | .hello _ c => wfCtl c
  | .subscribe _ c b => wfCtl c && wfBody b
  | .renew _ c leaseS => wfCtl c && wfBelow 65536 leaseS
  | .unsubscribe _ c => wfCtl c
  | .status _ c => wfCtl c
  | .leaseExpiry _ idx => wfBelow 256 idx
  | .entryFree idx => wfBelow 256 idx
  | .joinHoldoffEnd _ sid => wfBelow 65536 sid
  | .data idx _ => wfBelow 256 idx
  | .ethCfgWrite _ _ off _ => wfBus 0x091 off
  | .bar2Access write _ len bytes => wfBar2 write len bytes
  | .dmaCfgWrite _ _ off _ => wfBus 0x0C0 off
  | .loadWindow load0 load1 => wfBelow 1001 load0 && wfBelow 1001 load1
  | .calDone pairs _ => wfPairs pairs
  | .bgCheck _ _ pairs _ => wfPairs pairs
  | .mirrorSend _ item => wfItem item
  | .mirrorReceive _ _ item => wfItem item
  | .b50Shot codes => wfCodes 1 [codes]
  | .irqStatusClear _ page _ _ => wfBus page 0x010
  | .rcRead _ page off _ => wfBus page off
  | .pairHiWrite _ page off _ => wfBus page off
  | .pairLoWrite _ _ page off _ => wfBus page off
  | .pairLoRead _ page off => wfBus page off
  | .windowAccess _ page off _ => wfBus page off && wfWindow off
  | .registerWrite _ _ page off _ => wfBus page off
  | .pageSoftReset _ page => wfBus page 0x008
  | .startUp env => wfEyes env.eyes0 && wfEyes env.eyes1 && wfFail env.fail0 && wfFail env.fail1 && wfPairs env.pairs
  | .dip _ mv _ => wfBelow 4096 mv
  | .thermWarn temps => wfTemps temps
  | .thermTrip temps => wfTemps temps
  | .pcieLinkUp speed width => wfBelow 8 speed && wfBelow 16 width
  | .thermHoldEnd temps => wfTemps temps
  | .meridianTick .. | .applyHoldWrite .. | .applyTickWrite .. | .slotLaunch .. | .overrun .. | .meridOutPulse .. | .meridInEdge .. |
    .inLost .. | .modeRun .. | .modeConfig .. | .modeStandby .. | .modeCalibrate .. | .modeB50 .. | .laneDrainEnd .. | .restartLane .. |
    .stopLane .. | .refWindow .. | .refLost .. | .holdoverChangeover .. | .refBack .. | .forceHoldSet .. | .forceHoldClear .. |
    .epochSet .. | .tbaseAdj .. | .adjDone .. | .epochWrap | .ppsInEdge .. | .ppsLost .. | .ppsOutRise .. | .ppsOutFall .. | .tdcEdge .. |
    .ivWindowEnd .. | .qdataPop .. | .ivResultRead .. | .timeSnapshotRead .. | .launchWindowEnd .. | .dlUnlock .. | .gateClosed .. |
    .gateOpen .. | .loopSat .. | .rampDone .. | .rangeChange .. | .pdbLimit .. | .duskInjection .. | .mfDataWrite .. | .slowPart .. |
    .coefWrite .. | .throttle | .captRelease .. | .evtFlush .. | .zoneDataWrite .. | .ramanLaunch .. | .dtsPeriodEnd .. | .profile .. |
    .auxSrcWrite .. | .settleEnd .. | .auxEnable .. | .auxDisable .. | .auxStartEdge .. | .auxReq .. | .auxConversionStart .. |
    .integrationEnd .. | .dwellEnd .. | .result .. | .scanGapEnd .. | .auxResultRead .. | .mpy .. | .mac .. | .msu .. | .move .. |
    .add .. | .sub .. | .and .. | .or .. | .xor .. | .asr .. | .lsr .. | .lsl .. | .addi .. | .cmp .. | .cmpi .. | .abs .. | .neg .. |
    .min .. | .max .. | .minx .. | .maxx .. | .minxu .. | .maxxu .. | .movi .. | .orsh .. | .mov .. | .extu .. | .exts .. | .mova .. |
    .movta .. | .adda .. | .clra .. | .sha .. | .movp .. | .movb .. | .movl .. | .ldpi .. | .ldbi .. | .ldli .. | .addp .. | .rdp .. |
    .rdb .. | .rdl .. | .ld .. | .st .. | .ldo .. | .sto .. | .lda .. | .sta .. | .ldd .. | .std .. | .inp .. | .out .. | .movs .. |
    .movsr .. | .nop .. | .br .. | .call .. | .ret .. | .jmpr .. | .loopi .. | .loopr .. | .brklp .. | .rti .. | .wait .. | .halt .. |
    .setie .. | .clrv .. | .zcInterrupt .. | .bkptHit .. | .evqPop .. | .segGo .. | .segCopyDone .. | .segRel .. | .vdPost .. |
    .tmrCommit .. | .zcTimer .. | .zcStart .. | .haltReq .. | .zcStep .. | .clrFault .. | .zcMemWrite .. | .cmpTake .. |
    .cmpRestoreDone .. | .cmpCodeDone .. | .cmpSaveDone .. | .ctxReset .. | .ctxCfgWrite .. | .dcmpGo .. | .dcmpRecord .. | .dcmpAbort .. |
    .dcmpClear .. | .memcTrain .. | .ready .. | .regionWrite .. | .memcIssue .. | .agePromote .. | .readData .. | .refreshDue .. |
    .scrubRead .. | .scrubUrgent .. | .zqShort .. | .ethTxFrame .. | .ethRxFrame .. | .linkUp .. | .linkDown .. | .addrBound .. |
    .ptpEventMessage .. | .ptpMessageSend .. | .announceTimeout | .flr .. | .pcieReset .. | .dmaGo .. | .dmaAbort .. | .abortDone .. |
    .db .. | .rpWrite .. | .dmaRecordWrite .. | .descFetch .. | .copyTransfer .. | .modTimeout .. | .pme .. | .d0Return .. | .l2Entry |
    .b50DescPoll .. | .icuClaim .. | .icuComplete .. | .icuSwSet .. | .privSwSet .. | .srcCfgWrite .. | .stranded .. | .stewardTimer .. |
    .wdtService .. | .wdtWarning .. | .wdt .. | .mcheck .. | .stewardRestartDone .. | .mboxGo .. | .mboxDone .. | .getInfo .. |
    .zcLoad .. | .fwChunk .. | .fwInstall .. | .fwSelect .. | .fwCommitSvn .. | .codeCopy .. | .calAdcIlv .. | .calIq .. | .calRange .. |
    .calTdc .. | .calAux .. | .calDtsBath .. | .calRun2Start .. | .squeezeWindow .. | .squeezeTimeout | .calAbort .. | .almUserWrite .. |
    .claimAssert .. | .claimHoldEnd .. | .backoff .. | .takeoverFail .. | .peerClaim .. | .heartbeatSend .. | .heartbeatReceive .. |
    .twinAlive .. | .peerLost .. | .selfDemote .. | .takeoverTrigger .. | .takeoverRetry .. | .addrAnnounce .. | .mirrorResend .. |
    .outOfStep | .twinLinkDown | .twinStatusOp .. | .handover .. | .takeover .. | .resync .. | .nwTest .. | .healthWord .. | .b50Run .. |
    .b50Stop .. | .b50SoftReset .. | .b50DmaEn .. | .b50DmaAbort .. | .b50Doorbell .. | .b50IrqClear .. | .sysSoftReset .. | .por .. |
    .resetN .. | .supplyReset .. | .recover .. | .lightHoldEnd .. | .illegalInstruction .. | .gpioEdge .. | .uartReceive .. |
    .twinLinkCommand | .twinLinkUp | .perstNRelease | .d3hotEntry .. | .dlLock .. | .completionTimeout .. | .msixUnmask .. |
    .auxRecordFlush => true

end Sys2Proof
end

