-- ==== Sys2Proof/Tests/Slice0.lean ====
section
/-!
SUPPORT. Tests: one step each on a small state. Every `wit_…` takes a base state, puts into it what the hypotheses of one clause of
a statement ask for, and answers whether they hold there and whether one step gives what the clause says; the theorems say that both
do from the state after reset. Expected values are written out from the rules that the statements cite.
-/

namespace Sys2Proof.Tests

open Sys2Proof.Machine Sys2Proof.Claims

/-- Status fields put into a state. -/
def stat (l : List (Fld × Nat)) (s : State) : State := l.foldl (fun s e => s.setSt e.1 e.2) s

/-- Configuration fields, as written and in force. -/
def conf (l : List (Fld × Nat)) (s : State) : State := l.foldl (fun s e => s.setNow e.1 e.2) s

/-- The command answers a next state that passes. -/
def gives (c : Instr) (s : State) (p : State → Bool) : Bool :=
  match exec c s with
  | .next t => p t
  | _ => false

/-- The same, of a command's meaning itself. -/
def does (k : State → Res) (s : State) (p : State → Bool) : Bool :=
  match k s with
  | .next t => p t
  | _ => false

/-- A page's interrupt bit reads 1. -/
def raised (u : State) (p b : Nat) : Bool := u.st (irqStatus p) / 2 ^ b % 2 == 1

/-- A counter has gone up by one. -/
def counts (f : Fld) (s u : State) : Bool := u.st f == (s.st f + 1) % 2 ^ f.width

/-- Both parts of every witness of a list hold from a base state. -/
def allOk (b : State) (l : List (State → Bool × Bool)) : Bool := l.all fun w => w b == (true, true)
/-! ### ticks, commits and shots -/

/-- Lane `n` RUNNING in RUN with lane mode `m` and its first two slots enabled. -/
def laneUp (n : Lane) (m : Nat) (b : State) : State :=
  conf [(laneModeF n, m), (slotF Reg.SYNn_SLOTk_CFG_EN n 0, 1), (slotF Reg.SYNn_SLOTk_CFG_EN n 1, 1)]
    (stat [(Reg.SYS_MODE_STATUS_CUR, 3), (laneStateF n, 2)] { b with lanes := b.lanes.set n { b.lanes.get n with launched := [] } })

/-- A slot shot. -/
def aShot (id slot : Nat) (dark : Bool) : Shot :=
  { id := id, slot := slot, at_ := 10, gateEnd := 20, tick := 5, count := 2, frame := 3, dark := dark, cfg := [], alm := [] }

/-- The launch on top of the outputs: its lane, slots and time, and the samples played. -/
def firstLaunch : List Output → Option (Lane × List Nat × Time × List (Int × Int))
  | .launch n l t _ _ _ :: .waveform _ w :: _ => some (n, l, t, w)
  | _ => none

/-- Its first sample's instant and its gate current. -/
def firstDrive : List Output → Option (Time × Nat)
  | .launch _ _ _ f _ a :: _ => some (f, a)
  | _ => none

def witPageCommitIsPendingOrMismatch : List (State → Bool × Bool) := [
  fun b => let s := b; let k := BitVec.ofNat 32 (pageCheck s 0x0A0)
    (s.reaches .s0 0x0A0 = true ∧ pagePresent 0x0A0 = true ∧ k.toNat = pageCheck s 0x0A0,
     gives (.pageCommit .s0 5 0x0A0 k) s fun u => u.st (commitState 0x0A0) = 1 ∧
       u.st (commitHeld 0x0A0) = s.lv Reg.MERID_APPLY_CTRL_HOLD % 2 ∧
       (u.commits.filter fun c => c.page == 0x0A0).length = 1 ∧ (∀ c ∈ s.commits, c.page ≠ 0x0A0 → c ∈ u.commits) ∧
       u.live = s.live ∧ u.shadow = s.shadow),
  fun b => let s := b; let k := BitVec.ofNat 32 (pageCheck s 0x0A0 + 1)
    (s.reaches .s0 0x0A0 = true ∧ pagePresent 0x0A0 = true ∧ k.toNat ≠ pageCheck s 0x0A0,
     gives (.pageCommit .s0 5 0x0A0 k) s fun u => u.st (commitState 0x0A0) = 3 ∧ u.commits = s.commits ∧ u.live = s.live ∧ u.shadow = s.shadow)]

def witApplyWritesTakeEffect : List (State → Bool × Bool) := [
  fun b => let s := { b with commits := [⟨0x031, 3, false⟩, ⟨0x010, 4, true⟩] }
    (s.reaches .s1 0x011 = true, gives (.applyHoldWrite .s1 7 true) s fun u =>
      u.lv Reg.MERID_APPLY_CTRL_HOLD = 1 ∧ (∀ c ∈ s.commits, u.st (commitHeld c.page) = 1) ∧
      u.st Reg.MERID_STATUS_APPLY_PENDING = 1 ∧ u.merid.applyAt = (advance 7 s).time ∧ u.mem = s.mem ∧ u.lanes = s.lanes),
  fun b => let s := conf [(Reg.MERID_APPLY_CTRL_HOLD, 1)] { b with commits := [⟨0x031, 3, false⟩] }
    (s.reaches .s1 0x011 = true, gives (.applyHoldWrite .s1 7 false) s fun u =>
      u.lv Reg.MERID_APPLY_CTRL_HOLD = 0 ∧ u.st Reg.MERID_STATUS_APPLY_PENDING = 0),
  fun b => let s := b.stageWord .s0 (regAddr 0x011 0x05C) 0x1FF
    (s.reaches .s0 0x011 = true ∧ s.staged .s0 (regAddr 0x011 0x05C) = some 0x1FF, gives (.applyTickWrite .s0 7 0x80000001) s fun u =>
      u.applyTick = 0x80000001 + 2 ^ 32 * 0xFF ∧ u.staged .s0 (regAddr 0x011 0x05C) = none ∧ u.status = (advance 7 s).status ∧ u.mem = s.mem),
  fun b => let s := conf [(Reg.MERID_APPLY_TICK_HI, 3)] (b.unstage .s0 (regAddr 0x011 0x05C))
    (s.reaches .s0 0x011 = true, gives (.applyTickWrite .s0 7 1) s fun u => u.applyTick = 1 + 2 ^ 32 * 3)]

def witTickAdvancesCount : List (State → Bool × Bool) := [
  fun b => let s := stat [(Reg.SYS_MODE_STATUS_CUR, 3)] (conf [(Reg.MERID_CFG_FOLLOW, 0)] { b with merid := {} }); let d := clockCeil (s.time + 100)
    (s.ticksRun = true ∧ tickDue s (s.time + 100) = some d,
     gives (.meridianTick (s.time + 100)) s fun u => u.tickCount = countAt (advance d s) d ∧ u.merid.lastTick = d ∧ u.time = (advance d s).time),
  fun b => let s := stat [(Reg.SYS_MODE_STATUS_CUR, 3)] (conf [(Reg.MERID_CFG_FOLLOW, 1)] { b with merid := { started := true, inTick := some (b.time + 6400) } })
    let d := s.time + 6400
    (s.ticksRun = true ∧ tickDue s 7 = some d,
     gives (.meridianTick 7) s fun u => u.tickCount = countAt (advance d s) d ∧ u.merid.lastTick = d ∧ u.time = (advance d s).time),
  fun b => let s := stat [(Reg.SYS_MODE_STATUS_CUR, 3)] (conf [(Reg.MERID_CFG_FOLLOW, 1)] { b with merid := {} })
    (tickDue s 7 = none, gives (.meridianTick 7) s fun u => u = advance 7 s)]

def witLaunchPlaysOrCountsDark : List (State → Bool × Bool) := [
  fun b => let s := laneUp 0 2 { b with twin := { b.twin with claim := 3 } }
    let s := stat [(Reg.LDRV_GATE_STATUS_ACT_OUT, 1), (Reg.LDRV_GATE_STATUS_PEER_ACT_IN, 0), (Reg.LDRV_GATE_STATUS_EMIT_EN, 1),
      (Reg.SYS_SUPPLY_HOLDING, 0), (Reg.LDRV_FAULT_OVERCURRENT, 0), 
      (Reg.LDRV_FAULT_PUMP_OPEN, 0), (Reg.SYNn_FAULT_GATE_OPEN_GND.pg 0, 0), (Reg.SYNn_FAULT_GATE_LOAD_SHORT.pg 0, 0),
      (Reg.SYNn_FAULT_MOD_I_OPEN.pg 0, 0), (Reg.SYNn_FAULT_MOD_Q_OPEN.pg 0, 0)] (conf [(slotF Reg.SYNn_SLOTk_LEN 0 0, 1), (slotF Reg.SYNn_SLOTk_LEN 0 1, 1)] s)
    (s.mode ≠ 5 ∧ s.laneState 0 = 2 ∧ s.laneMode 0 ≠ 0 ∧ s.laneMode 0 ≠ 5 ∧ pulseSlots s 0 0 ≠ [] ∧ (s.lanes.get 0).launched = [] ∧ (advance (launchInstant s 0 0) s).reached (launchInstant s 0 0) = true ∧ (s.lanes.get 0).withheld = false ∧
       s.gateOpen = true ∧ s.twin.claim = 3 ∧ laneInhibited s 0 = false,
     gives (.slotLaunch 0 0 (launchInstant s 0 0)) s fun u => u.out.drop 2 = s.out ∧ firstLaunch u.out = some (0, pulseSlots s 0 0, launchInstant s 0 0 + nsT 28, (pulseWave s.live 0 (pulseSlots s 0 0)).1) ∧
       firstDrive u.out = some (launchInstant s 0 0 + nsT (28 + s.lv (Reg.SYNn_GATE_TIME_LEAD.pg 0)), s.lv (Reg.SYNn_GATE_AMP.pg 0)) ∧
       (u.shots.get 0).lastDark = some false ∧ u.st (Reg.SYNn_STATUS_DARK.pg 0) = 0 ∧
       ((u.shots.get 0).shots.drop (s.shots.get 0).shots.length).map (fun x => (x.slot, x.dark, x.at_)) = (pulseSlots s 0 0).map (fun k => (k, false, launchInstant s 0 0))),
  fun b => let s := stat [(Reg.LDRV_GATE_STATUS_ACT_OUT, 0)] (laneUp 0 2 b)
    (s.mode ≠ 5 ∧ s.laneState 0 = 2 ∧ s.laneMode 0 ≠ 0 ∧ s.laneMode 0 ≠ 5 ∧ pulseSlots s 0 0 ≠ [] ∧ (s.lanes.get 0).launched = [] ∧ (advance (launchInstant s 0 0) s).reached (launchInstant s 0 0) = true ∧ (s.lanes.get 0).withheld = false ∧ s.gateOpen = false,
     gives (.slotLaunch 0 0 (launchInstant s 0 0)) s fun u => u.out = s.out ∧ (u.shots.get 0).lastDark = some true ∧ u.st (Reg.SYNn_STATUS_DARK.pg 0) = 1 ∧
       u.st (Reg.SYNn_DARK_SHOTS.pg 0) = (s.st (Reg.SYNn_DARK_SHOTS.pg 0) + (pulseSlots s 0 0).length) % 2 ^ 32 ∧
       ((u.shots.get 0).shots.drop (s.shots.get 0).shots.length).map (fun x => (x.slot, x.dark, x.at_)) = (pulseSlots s 0 0).map (fun k => (k, true, launchInstant s 0 0))),
  fun b => let s := stat [(Reg.LDRV_GATE_STATUS_ACT_OUT, 1), (Reg.LDRV_GATE_STATUS_PEER_ACT_IN, 0), (Reg.LDRV_GATE_STATUS_EMIT_EN, 1)] (laneUp 1 7 { b with twin := { b.twin with claim := 2 } })
    (s.mode ≠ 5 ∧ s.laneState 1 = 2 ∧ s.laneMode 1 = 7 ∧ pulseSlots s 1 0 ≠ [] ∧ (s.lanes.get 1).launched = [] ∧ (advance (launchInstant s 1 0) s).reached (launchInstant s 1 0) = true ∧ (s.lanes.get 1).withheld = false ∧ s.gateOpen = true ∧ s.twin.claim ≠ 3,
     gives (.slotLaunch 1 0 (launchInstant s 1 0)) s fun u => u.out = s.out ∧ (u.shots.get 1).lastDark = some true)]

def witShotsPassToPhz : List (State → Bool × Bool) := [
  fun b => let s := { b with shots := ⟨{ shots := [aShot 4 1 false, aShot 4 2 false, { aShot 5 2 true with hole := true }] }, {}⟩ }
    (oldestShot s 0 2 = some (aShot 4 2 false), gives (.shotProcess 0 2 [[1, 2], [3], [], []] [] ⟨0, false⟩) s fun u =>
      (u.shots.get 0).shots = ((s.shots.get 0).shots.filter fun y => y.id ≠ 4) ∧
      ((u.shotp.get 0).gauges.drop (s.shotp.get 0).gauges.length).map (·.shot) = [aShot 4 2 false]),
  fun b => let s := { b with shots := ⟨{ shots := [aShot 4 1 false, { aShot 5 2 true with hole := true }] }, {}⟩ }
    (oldestShot s 0 2 = some { aShot 5 2 true with hole := true }, gives (.shotProcess 0 2 [] [] ⟨0, false⟩) s fun u =>
      (u.shots.get 0).shots = ((s.shots.get 0).shots.filter fun y => y.id ≠ 5) ∧
      ((u.shotp.get 0).gauges.drop (s.shotp.get 0).gauges.length).map (fun g => (g.shot, g.vals)) = [({ aShot 5 2 true with hole := true }, [])]),
  fun b => let s := { b with shots := ⟨{ shots := [aShot 4 1 false, aShot 4 2 false] }, {}⟩ }
    (oldestShot s 0 2 = some (aShot 4 2 false), gives (.shotProcess 0 2 [[1, 2], [3], [], []] [] ⟨3, true⟩) s fun u =>
      ((u.shotp.get 0).gauges.drop (s.shotp.get 0).gauges.length).map (fun g => (g.shot, g.vals)) = [({ aShot 4 2 false with hole := true }, [])]),
  fun b => let g : GaugeShot := { shot := { aShot 5 2 true with hole := true, at_ := 9 }, nref := 0, vals := [] }
    let s := { b with shotp := ⟨{ gauges := [{ g with shot := aShot 4 1 false }, g] }, {}⟩, shots := ⟨{}, {}⟩ }
    (phzNext s 0 = some g ∧ g.shot.slot = 2 ∧ (g.shot.dark || g.shot.hole) = true, gives (.phzProcess 0 2 [] ⟨0, false⟩) s fun u =>
      (u.shotp.get 0).gauges = (s.shotp.get 0).gauges.erase g ∧ u.shots = s.shots ∧ u.shadow = s.shadow ∧
      (u.phz.get 0).hist = ((2, false) :: (s.phz.get 0).hist).take 2),
  fun b => let g : GaugeShot := { shot := { aShot 5 2 false with at_ := 9 }, nref := 0, vals := [(1, 2), (3, 4)] }
    let s := { b with shotp := ⟨{ gauges := [{ g with shot := aShot 4 1 false }, g] }, {}⟩, shots := ⟨{}, {}⟩ }
    (phzNext s 0 = some g ∧ g.shot.slot = 2 ∧ (g.shot.dark || g.shot.hole) = false, gives (.phzProcess 0 2 [] ⟨0, false⟩) s fun u =>
      (u.shotp.get 0).gauges = (s.shotp.get 0).gauges.erase g ∧ u.shots = s.shots ∧ u.shadow = s.shadow ∧ (u.phz.get 0).last = some (2, 3)),
  fun b => let g : GaugeShot := { shot := { aShot 5 2 false with at_ := 9 }, nref := 0, vals := [(1, 2), (3, 4)] }
    let s := { b with shotp := ⟨{ gauges := [g] }, {}⟩, shots := ⟨{}, {}⟩ }
    (phzNext s 0 = some g ∧ g.shot.slot = 2, gives (.phzProcess 0 2 [] ⟨0, true⟩) s fun u =>
      (u.shotp.get 0).gauges = [] ∧ (u.phz.get 0).hist = ((2, false) :: (s.phz.get 0).hist).take 2)]

def witOverrunIsCounted : List (State → Bool × Bool) := [
  fun b => let s := stat [(Reg.SYS_MODE_STATUS_CUR, 3)] { b with shots := ⟨{ shots := [aShot 4 1 false, aShot 4 2 false] }, {}⟩ }
    (s.mode ≠ 5 ∧ oldestShot s 0 2 = some (aShot 4 2 false), gives (.overrun 0 2 .shot) s fun u =>
      u.st Reg.MERID_OVERRUN = (s.st Reg.MERID_OVERRUN + 2) % 2 ^ 32 ∧ u.st Reg.MERID_OVERRUN_LAST_SLOT = 2 ∧
      u.st Reg.MERID_OVERRUN_LAST_LANE = 0 ∧ u.st Reg.MERID_OVERRUN_LAST_BLOCK = 0 ∧ raised u 0x011 0),
  fun b => let g : GaugeShot := { shot := aShot 5 2 false, nref := 0, vals := [] }
    let s := stat [(Reg.SYS_MODE_STATUS_CUR, 3)] { b with shotp := ⟨{}, { gauges := [g] }⟩ }
    (s.mode ≠ 5 ∧ ((s.shotp.get 1).gauges.find? fun g => g.shot.slot == 2) = some g, gives (.overrun 1 2 .phz) s fun u =>
      u.st Reg.MERID_OVERRUN = (s.st Reg.MERID_OVERRUN + 1) % 2 ^ 32 ∧ u.st Reg.MERID_OVERRUN_LAST_SLOT = 2 ∧
      u.st Reg.MERID_OVERRUN_LAST_LANE = 1 ∧ u.st Reg.MERID_OVERRUN_LAST_BLOCK = 3 ∧ raised u 0x011 0)]

def witSharedTickPulses : List (State → Bool × Bool) := [
  fun b => let s := stat [(Reg.SYS_MODE_STATUS_CUR, 3)] (conf [(Reg.MERID_CFG_OUT_EN, 1), (Reg.MERID_CFG_FOLLOW, 0)] { b with merid := {} })
    let t := s.time + 100
    let d := clockCeil (if tBefore (t + nsT 1000) (advance t s).time then (advance t s).time else t + nsT 1000)
    (s.ticksRun = true ∧ s.on Reg.MERID_CFG_OUT_EN = true ∧ tickExpected (advance t s) (t + nsT 1000) = some d ∧ s.merid.outTick ≠ some d,
     gives (.meridOutPulse t) s fun u =>
      (u.out = .meridOut (d - nsT 1000) true :: s.out ∨ u.out = .meridOut (d - nsT 1000) false :: s.out) ∧ u.merid.outTick = some d),
  fun b => let s := stat [(Reg.SYS_MODE_STATUS_CUR, 3)] (conf [(Reg.MERID_CFG_FOLLOW, 1), (Reg.MERID_IN_TRIM_TRIM_NS, 7)] { b with merid := {} })
    (s.ticksRun = true ∧ s.follows = true ∧ s.merid.started = false, gives (.meridInEdge 100 8) s fun u =>
      u.st Reg.MERID_STATUS_IN_PRESENT = 1 ∧ u.merid.inLast = some 100 ∧
      u.merid.inTick = some (clockNear (100 + nsT (1000 - s.lv Reg.MERID_IN_TRIM_TRIM_NS))) ∧ u.st Reg.MERID_STATUS_IN_LOST = 0),
  fun b => let s := stat [(Reg.SYS_MODE_STATUS_CUR, 3), (Reg.MERID_STATUS_IN_LOST, 0)] (conf [(Reg.MERID_CFG_FOLLOW, 1)] { b with merid := { started := true } })
    (s.merid.inLast = none ∧ s.ticksRun = true ∧ s.merid.started = true ∧ s.follows = true ∧ s.st Reg.MERID_STATUS_IN_LOST = 0,
     gives (.inLost 100) s fun u => u.st Reg.MERID_STATUS_IN_PRESENT = 0 ∧ u.st Reg.MERID_STATUS_IN_LOST = 1 ∧ raised u 0x011 1)]
/-! ### modes and lanes -/

/-- CONFIG with the PLLs locked, record memory ready, no calibration and nothing pending. -/
def ready (cfg : List (Fld × Nat)) (b : State) : State :=
  conf cfg (stat [(Reg.SYS_MODE_STATUS_CUR, 1), (Reg.TBASE_STATUS_PLL_LOCK, 1), (Reg.MEMCn_STATUS_READY.pg 0, 1), (Reg.MEMCn_STATUS_READY.pg 1, 1),
    (Reg.MEMCn_CAPACITY.pg 0, 4096), (Reg.MEMCn_CAPACITY.pg 1, 0), (Reg.ALM_STATUS_CAL_BUSY, 0), (Reg.CFGI_STATUS_HDR_FAIL, 0), (restartBit 0, 0),
    (restartBit 1, 0), (laneStateF 0, 0), (laneStateF 1, 0), (Reg.TWIN_STATUS_LINK_UP, 1)]
    { b with shadow := [], live := [], merid := {}, lanes := ⟨{}, {}⟩, regionShadow := [(0, (0, 64)), (7, (64, 100))] })

def witRunEntryFromConfig : List (State → Bool × Bool) := [
  fun b => let s := ready [(laneModeF 0, 5)] b
    (s.reaches .s0 0x010 = true ∧ s.mode = 1 ∧ entryRefusal (judged 9 3 s) false = none, gives (.modeRun .s0 9) s fun u =>
      u.mode = 3 ∧ u.st Reg.SYS_MODE_STATUS_RUN_SINCE_RESET = 1 ∧ u.st Reg.MERID_STATUS_RUNNING = 1 ∧ u.twin.claim = 1 ∧
      u.merid.started = false ∧ u.st Reg.SYS_MODE_STATUS_REJECT = 0 ∧ u.laneState 0 = 1 ∧ u.laneState 1 = 0),
  fun b => let s := ready [(laneModeF 0, 2)] b
    (s.reaches .s0 0x010 = true ∧ s.mode = 1 ∧ entryRefusal (judged 9 3 s) false = some (3, 1), gives (.modeRun .s0 9) s fun u =>
      u.mode = 1 ∧ u.st Reg.SYS_MODE_STATUS_REJECT = 3 ∧ u.st Reg.SYS_MODE_STATUS_REJECT_DETAIL = 1 ∧
      u.live = (judged 9 3 s).live ∧ u.regions = s.regions ∧ u.lanes = s.lanes)]

def witStandbyEntry : List (State → Bool × Bool) := [
  fun b => let s := ready [(Reg.TWIN_CFG_EN, 1)] b
    (s.reaches .s0 0x010 = true ∧ s.mode = 1 ∧ entryRefusal (judged 9 2 s) true = none, gives (.modeStandby .s0 9) s fun u =>
      u.mode = 2 ∧ u.st Reg.TWIN_STATUS_ROLE = 1 ∧ u.st Reg.SYS_MODE_STATUS_REJECT = 0 ∧ u.regions = s.regionShadow ∧
      u.twin.stood = true ∧ u.twin.ran = 0),
  fun b => let s := stat [(Reg.SYS_MODE_STATUS_CUR, 3)] b
    (s.reaches .s0 0x010 = true ∧ s.mode ≠ 1, gives (.modeStandby .s0 9) s fun u =>
      u.mode = s.mode ∧ u.st Reg.SYS_MODE_STATUS_REJECT = 1 ∧ u.regions = s.regions ∧ u.twin = s.twin)]

def witConfigEntry : List (State → Bool × Bool) := [
  fun b => let s := stat [(Reg.SYS_MODE_STATUS_CUR, 2)] b
    (s.reaches .s0 0x010 = true ∧ s.mode = 2, gives (.modeConfig .s0 9) s fun u =>
      u.mode = 1 ∧ u.st Reg.TWIN_STATUS_ROLE = 0 ∧ u.st Reg.SYS_MODE_STATUS_REJECT = 0),
  fun b => let s := laneUp 1 2 { b with merid := {} }
    (s.reaches .s0 0x010 = true ∧ s.mode = 3 ∧ s.merid.leaving = none ∧ s.laneState 1 ≠ 0, gives (.modeConfig .s0 9) s fun u =>
      u.mode = 3 ∧ u.merid.leaving = some 1 ∧ (∀ n : Lane, u.st (restartBit n) = 0 ∧ u.st (stopBit n) = 0) ∧ u.laneState 0 = s.laneState 0 ∧
      u.laneState 1 = s.laneState 1),
  fun b => let s := stat [(laneStateF 0, 0), (laneStateF 1, 0), (Reg.SYS_MODE_STATUS_CUR, 3)] { b with merid := { started := true } }
    (s.reaches .s0 0x010 = true ∧ s.mode = 3 ∧ s.merid.leaving = none ∧ s.laneState 0 = 0 ∧ s.laneState 1 = 0, gives (.modeConfig .s0 9) s fun u =>
      u.mode = 1 ∧ u.merid.leaving = none ∧ u.merid.started = false ∧ u.st Reg.MERID_STATUS_RUNNING = 0 ∧ u.twin.claim = 0),
  fun b => let s := stat [(Reg.SYS_MODE_STATUS_CUR, 5)] b
    (s.reaches .s1 0x010 = true ∧ s.mode ≠ 2 ∧ s.mode ≠ 3, gives (.modeConfig .s1 9) s fun u =>
      u.mode = s.mode ∧ u.st Reg.SYS_MODE_STATUS_REJECT = 1 ∧ u.merid = s.merid)]

def witCalibrateEntry : List (State → Bool × Bool) := [
  fun b => let s := laneUp 1 2 (conf [(Reg.ALM_CAL_REQ_LANES, 2)] (stat [(Reg.ALM_STATUS_CAL_BUSY, 0), (laneStateF 0, 0), (restartBit 0, 0), (restartBit 1, 0)] { b with lanes := ⟨{}, {}⟩, merid := {} }))
    (s.reaches .s0 0x010 = true ∧ lanesOf (s.lv Reg.ALM_CAL_REQ_LANES) = [1] ∧ mainLane s 1 = true ∧ s.st Reg.ALM_STATUS_CAL_BUSY = 0 ∧
       restartPending s = false ∧ s.merid.leaving = none ∧ s.mode = 3, gives (.modeCalibrate .s0 9) s fun u =>
      u.mode = 4 ∧ u.st Reg.ALM_STATUS_CAL_BUSY = 1 ∧ u.st Reg.ALM_STATUS_PROC = 3 ∧ u.cal.back = 3 ∧ u.cal.lanes = [1] ∧
      u.cal.squeeze = false ∧ u.st Reg.SYS_MODE_STATUS_REJECT = 0 ∧ u.ticksRun = true),
  fun b => let s := ready [(Reg.ALM_CAL_REQ_LANES, 3)] b
    (s.reaches .s0 0x010 = true ∧ lanesOf (s.lv Reg.ALM_CAL_REQ_LANES) = [0, 1] ∧ [0, 1].all (mainLane s) = true ∧ s.st Reg.ALM_STATUS_CAL_BUSY = 0 ∧
       restartPending s = false ∧ s.merid.leaving = none ∧ s.mode = 1 ∧ regionError (judged 9 4 s) (fun _ => false) = none,
     gives (.modeCalibrate .s0 9) s fun u =>
      u.mode = 4 ∧ u.st Reg.ALM_STATUS_CAL_BUSY = 1 ∧ u.st Reg.ALM_STATUS_PROC = 3 ∧ u.cal.back = 1 ∧ u.cal.lanes = [0, 1] ∧
      u.cal.stage = 2 ∧ u.regions = s.regionShadow ∧ u.ticksRun = false)]

def witB50Entry : List (State → Bool × Bool) := [
  fun b => let s := stat [(Reg.SYS_MODE_STATUS_RUN_SINCE_RESET, 0)] (ready [] b)
    (s.reaches .s0 0x010 = true ∧ s.mode = 1 ∧ s.st Reg.SYS_MODE_STATUS_RUN_SINCE_RESET = 0 ∧ s.st Reg.ALM_STATUS_CAL_BUSY = 0 ∧
       regionError { judged 9 5 s with regionShadow := b50Regions } (fun _ => false) = none, gives (.modeB50 .s0 9) s fun u =>
      u.mode = 5 ∧ u.strm.streams = [] ∧ u.strm.subs = [] ∧ u.regions = b50Regions ∧ u.cmp.ready = []),
  fun b => let s := stat [(Reg.SYS_MODE_STATUS_RUN_SINCE_RESET, 1), (Reg.SYS_MODE_STATUS_CUR, 1)] b
    (s.reaches .s0 0x010 = true ∧ s.mode = 1 ∧ s.st Reg.SYS_MODE_STATUS_RUN_SINCE_RESET ≠ 0, gives (.modeB50 .s0 9) s fun u =>
      u.mode = 1 ∧ u.st Reg.SYS_MODE_STATUS_REJECT = 1 ∧ u.strm = s.strm ∧ u.regions = s.regions)]

def witLaneRequestsWait : List (State → Bool × Bool) := [
  fun b => let s := stat [(Reg.SYS_MODE_STATUS_CUR, 4)] b
    (s.reaches .s0 0x010 = true ∧ s.mode = 4, gives (.stopLane .s0 9 1) s fun u =>
      u.st (stopBit 1) = 1 ∧ u.tickQ = s.tickQ ++ [{ at_ := (advance 9 s).time, key := (stopBit 1).key, value := 1 }]),
  fun b => let s := laneUp 0 2 b
    (s.reaches .s0 0x010 = true ∧ s.mode = 3 ∧ s.laneState 0 ≠ 1 ∧ s.laneState 0 ≠ 3, gives (.restartLane .s0 9 0) s fun u =>
      u.st (restartBit 0) = 1 ∧ u.tickQ = s.tickQ ++ [{ at_ := (advance 9 s).time, key := (restartBit 0).key, value := 1 }]),
  fun b => let s := stat [(Reg.SYS_MODE_STATUS_CUR, 2)] b
    (s.reaches .s0 0x010 = true ∧ s.mode ≠ 3 ∧ s.mode ≠ 4, gives (.stopLane .s0 9 0) s (fun u => u.tickQ = s.tickQ ∧ u.st (stopBit 0) = s.st (stopBit 0)) &&
      gives (.restartLane .s0 9 0) s (fun u => u.tickQ = s.tickQ ∧ u.st (restartBit 0) = s.st (restartBit 0)))]

def witDrainEnds : List (State → Bool × Bool) := [
  fun b => let s := stat [(laneStateF 0, 3), (Reg.SYS_MODE_STATUS_CUR, 3)] { b with merid := {}, lanes := ⟨{ lastTick := 100, drain := .stop }, {}⟩ }
    let t := 100 + nsT (s.lanePeriod 0)
    (s.mode ≠ 5 ∧ s.laneState 0 = 3 ∧ 0 ≤ tDiff t ((s.lanes.get 0).lastTick + nsT (s.lanePeriod 0)) ∧ (s.lanes.get 0).drain ≠ .restart,
     gives (.laneDrainEnd 0 t) s fun u => u.laneState 0 = 0 ∧ u.st (restartBit 0) = 0 ∧ u.st (stopBit 0) = 0 ∧ u.lanes.get 0 = {}),
  fun b => let s := stat [(laneStateF 1, 3), (Reg.SYS_MODE_STATUS_CUR, 3)] { b with merid := {}, lanes := ⟨{}, { lastTick := 100, drain := .restart }⟩ }
    let t := 100 + nsT (s.lanePeriod 1)
    (s.mode ≠ 5 ∧ s.laneState 1 = 3 ∧ 0 ≤ tDiff t ((s.lanes.get 1).lastTick + nsT (s.lanePeriod 1)) ∧ (s.lanes.get 1).drain = .restart ∧
       s.merid.leaving = none, gives (.laneDrainEnd 1 t) s fun u => u.laneState 1 = 3 ∧ (u.lanes.get 1).drained = true)]
/-! ### reference, time and PPS -/

def witReferenceIsJudged : List (State → Bool × Bool) := [
  fun b => let s := stat [(Reg.TBASE_STATUS_REF_LOST, 1)] (conf [(Reg.TBASE_CFG_FORCE_HOLD, 0)] b); let e : Int := -(refLimit s : Int)
    (s.lv Reg.TBASE_CFG_FORCE_HOLD = 0 ∧ e.natAbs ≤ refLimit s ∧ s.st Reg.TBASE_STATUS_REF_LOST ≠ 0, gives (.refWindow 9 e) s fun u =>
      u.st Reg.TBASE_STATUS_REF_PRESENT = 1 ∧ u.st Reg.TBASE_STATUS_XTAL_CAL = 1 ∧ u.st Reg.TBASE_STATUS_SLEWING = 1 ∧ u.st Reg.TBASE_STATUS_HOLDOVER = 0),
  fun b => let s := stat [(Reg.TBASE_STATUS_REF_LOST, 0)] (conf [(Reg.TBASE_CFG_FORCE_HOLD, 0)] { b with tbase := { b.tbase with refDown := false } }); let e : Int := -(refLimit s : Int) - 1
    (s.lv Reg.TBASE_CFG_FORCE_HOLD = 0 ∧ refLimit s < e.natAbs ∧ s.tbase.refDown = false, gives (.refWindow 9 e) s fun u =>
      u.st Reg.TBASE_STATUS_REF_PRESENT = 0 ∧ u.st Reg.TBASE_STATUS_REF_LOST = 1 ∧ raised u 0x012 0),
  fun b => let s := stat [(Reg.TBASE_STATUS_REF_LOST, 1)] (conf [(Reg.TBASE_CFG_FORCE_HOLD, 0)] { b with tbase := { b.tbase with refDown := false } })
    (s.lv Reg.TBASE_CFG_FORCE_HOLD = 0 ∧ s.tbase.refDown = false ∧ s.st Reg.TBASE_STATUS_REF_LOST ≠ 0, gives (.refLost 9) s fun u =>
      u.st Reg.TBASE_STATUS_REF_PRESENT = 0 ∧ u.st Reg.TBASE_STATUS_REF_LOST = 1 ∧ raised u 0x012 0 ∧
      u.st Reg.TBASE_REF_LOSSES = (s.st Reg.TBASE_REF_LOSSES + 1) % 2 ^ 32),
  fun b => let s := stat [(Reg.TBASE_STATUS_REF_LOST, 0)] (conf [(Reg.TBASE_CFG_FORCE_HOLD, 0)] { b with tbase := { b.tbase with refDown := false } })
    (s.lv Reg.TBASE_CFG_FORCE_HOLD = 0 ∧ s.tbase.refDown = false ∧ s.st Reg.TBASE_STATUS_REF_LOST = 0, gives (.refLost 9) s fun u =>
      u.st Reg.TBASE_STATUS_REF_PRESENT = 0 ∧ u.st Reg.TBASE_STATUS_REF_LOST = 1 ∧ raised u 0x012 0 ∧
      u.st Reg.TBASE_REF_LOSSES = (s.st Reg.TBASE_REF_LOSSES + 1) % 2 ^ 32 ∧ u.causes = ⟨0, (advance 9 s).time, none⟩ :: s.causes),
  fun b => let s := { b with tbase := { b.tbase with refDown := false } }
    (s.reaches .s0 0x012 = true ∧ s.tbase.refDown = false, gives (.forceHoldSet .s0 9) s fun u =>
      u.lv Reg.TBASE_CFG_FORCE_HOLD = 1 ∧ u.st Reg.TBASE_STATUS_REF_LOST = 1 ∧ raised u 0x012 0),
  fun b => let s := conf [(Reg.TBASE_CFG_FORCE_HOLD, 1)] b
    (s.reaches .s0 0x012 = true ∧ s.lv Reg.TBASE_CFG_FORCE_HOLD = 1, gives (.forceHoldClear .s0 9) s (fun u => u.lv Reg.TBASE_CFG_FORCE_HOLD = 0 ∧
        u.status = (advance 9 s).status) &&
      gives (.refLost 9) s (fun u => u = advance 9 s) && gives (.refWindow 9 70000) s (fun u => u = advance 9 s))]

def witHoldoverAndReturn : List (State → Bool × Bool) := [
  fun b => let s := stat [(Reg.TBASE_STATUS_REF_LOST, 1)] b
    (s.st Reg.TBASE_STATUS_REF_LOST ≠ 0, gives (.holdoverChangeover 9) s fun u => u.st Reg.TBASE_STATUS_HOLDOVER = 1 ∧ u.live = s.live ∧ u.mem = s.mem),
  fun b => let s := stat [(Reg.TBASE_STATUS_SLEWING, 1)] { b with causes := [⟨0, 5, none⟩, ⟨1, 5, none⟩] }
    (s.st Reg.TBASE_STATUS_SLEWING ≠ 0, gives (.refBack 9) s fun u => u.st Reg.TBASE_STATUS_SLEWING = 0 ∧ u.st Reg.TBASE_STATUS_HOLDOVER = 0 ∧
      u.st Reg.TBASE_STATUS_REF_LOST = 0 ∧ raised u 0x012 1 ∧ (∀ c ∈ u.causes, c.flag = 0 → c.till ≠ none))]

def witEpochCommitsOrRejects : List (State → Bool × Bool) := [
  fun b => let s := conf [(Reg.TBASE_EPOCH_SUBS_HI, 29)] b
    (s.reaches .s0 0x012 = true ∧ stagedSubs s 3445948415 ≤ 127999999999, gives (.epochSet .s0 9 3445948415) s fun u =>
      u.tbase.sec = stagedSec s ∧ u.tbase.subs = stagedSubs s 3445948415 ∧ u.st Reg.TBASE_ADJ_LEFT = 0 ∧ u.st Reg.TBASE_STATUS_ADJ_BUSY = 0 ∧
      u.st Reg.TBASE_EPOCH_SETS = (s.st Reg.TBASE_EPOCH_SETS + 1) % 2 ^ 32 ∧ raised u 0x012 4),
  fun b => let s := conf [(Reg.TBASE_EPOCH_SUBS_HI, 29)] b
    (s.reaches .s0 0x012 = true ∧ 127999999999 < stagedSubs s 3445948416, gives (.epochSet .s0 9 3445948416) s fun u =>
      u.tbase = (advance 9 s).tbase ∧ raised u 0x012 6 ∧ u.st Reg.TBASE_EPOCH_SETS = s.st Reg.TBASE_EPOCH_SETS)]

def witAdjustmentRunsAndEnds : List (State → Bool × Bool) := [
  fun b => let s := b
    (s.reaches .s0 0x012 = true, gives (.tbaseAdj .s0 9 0xFFFFFFFE) s fun u =>
      u.st Reg.TBASE_ADJ_LEFT = ((advance 9 s).st Reg.TBASE_ADJ_LEFT + 0xFFFFFFFE) % 2 ^ 32 ∧
      (u.st Reg.TBASE_STATUS_ADJ_BUSY = 0 ↔ u.st Reg.TBASE_ADJ_LEFT = 0)),
  fun b => let s := stat [(Reg.TBASE_ADJ_LEFT, 0xFFFFFFFD)] (conf [(Reg.TBASE_CFG_ADJ_PPM, 100)] (stat [(Reg.SYS_MODE_STATUS_CUR, 1)] b)); let t := s.time + 30200; let c := clockFloor t
    (s.timeRuns = true ∧ 0 ≤ tDiff c s.time ∧ s.stS Reg.TBASE_ADJ_LEFT ≠ 0 ∧
       (s.stS Reg.TBASE_ADJ_LEFT).natAbs ≤ (s.tbase.adjFrac + (tDiff c s.time).toNat * s.lv Reg.TBASE_CFG_ADJ_PPM) / 1000000,
     gives (.adjDone t) s fun u => u.st Reg.TBASE_ADJ_LEFT = 0 ∧ u.st Reg.TBASE_STATUS_ADJ_BUSY = 0 ∧ raised u 0x012 7 ∧ u.time = c)]

def witWrapKeepsMappedTime : List (State → Bool × Bool) := [
  fun b => let s := stat [(Reg.TBASE_ADJ_LEFT, 0)] { b with time := BitVec.ofNat 64 (2 ^ 64 - 5) }
    (s.st Reg.TBASE_ADJ_LEFT = 0, gives .epochWrap s fun u => u.time = 0 ∧ raised u 0x012 5 ∧ u.tbase.subs < duPerS ∧
      (u.tbase.sec.toNat * duPerS + u.tbase.subs) % (2 ^ 48 * duPerS) = (s.tbase.sec.toNat * duPerS + s.tbase.subs + 2 ^ 64) % (2 ^ 48 * duPerS)),
  fun b => let s := stat [(Reg.TBASE_ADJ_LEFT, 100)] (conf [(Reg.TBASE_CFG_ADJ_PPM, 100)] { b with time := BitVec.ofNat 64 (2 ^ 64 - 30000), tbase := { b.tbase with adjFrac := 0 } })
    (s.stS Reg.TBASE_ADJ_LEFT = 100, gives .epochWrap s fun u => u.time = 0 ∧ raised u 0x012 5 ∧ u.tbase.subs < duPerS ∧
      (u.tbase.sec.toNat * duPerS + u.tbase.subs) % (2 ^ 48 * duPerS) = (s.tbase.sec.toNat * duPerS + s.tbase.subs + 3 + 2 ^ 64) % (2 ^ 48 * duPerS))]

def witPpsInAndOut : List (State → Bool × Bool) := [
  fun b => let t := BitVec.ofNat 64 (1000 + duPerS); let s := { b with tbase := { b.tbase with ppsLast := some 1000 } }
    (s.tbase.ppsLast = some 1000 ∧ ppsInWindow 1000 t = true, gives (.ppsInEdge t) s fun u => u.st Reg.TBASE_STATUS_PPS_PRESENT = 1 ∧
      u.st2 Reg.TBASE_PPS_STAMP_LO Reg.TBASE_PPS_STAMP_HI = t.toNat ∧ u.tbase.ppsLast = some t ∧ raised u 0x012 8),
  fun b => let t := BitVec.ofNat 64 (2000 + 2 * duPerS); let s := { b with tbase := { b.tbase with ppsLast := some 1000 } }
    (s.tbase.ppsLast = some 1000 ∧ ppsInWindow 1000 t = false, gives (.ppsInEdge t) s fun u => u.st Reg.TBASE_STATUS_PPS_PRESENT = 0 ∧
      u.st Reg.TBASE_PPS_BAD = (s.st Reg.TBASE_PPS_BAD + 1) % 2 ^ 32),
  fun b => let s := stat [(Reg.TBASE_STATUS_PPS_PRESENT, 1)] b
    (s.st Reg.TBASE_STATUS_PPS_PRESENT ≠ 0, gives (.ppsLost 9) s fun u => u.st Reg.TBASE_STATUS_PPS_PRESENT = 0 ∧
      u.st Reg.TBASE_PPS_LOSSES = (s.st Reg.TBASE_PPS_LOSSES + 1) % 2 ^ 32 ∧ raised u 0x012 2),
  fun b => let t : Time := 128009; let s := conf [(Reg.TBASE_PPS_OUT_EN, 1), (Reg.TBASE_PPS_OUT_WIDTH_MS, 70), (Reg.TBASE_PPS_OUT_TRIM, 1000), (Reg.TBASE_UTC_OFFSET, 0)] { b with tbase := { b.tbase with ppsRise := none, subs := 0 } }
    (s.lv Reg.TBASE_PPS_OUT_EN ≠ 0 ∧ ppsOutDue (advance t s) t = true ∧ ppsOutTooSoon s t = false, gives (.ppsOutRise t) s fun u =>
      u.out = .ppsOut t true :: s.out ∧ u.tbase.ppsHigh = true ∧ u.tbase.ppsRise = some t ∧ u.tbase.ppsWidth = 70),
  fun b => let t : Time := 128009; let s := conf [(Reg.TBASE_PPS_OUT_EN, 1), (Reg.TBASE_PPS_OUT_TRIM, 1000), (Reg.TBASE_UTC_OFFSET, 0)] { b with tbase := { b.tbase with ppsRise := some 8, subs := 0 } }
    (s.lv Reg.TBASE_PPS_OUT_EN ≠ 0 ∧ ppsOutDue (advance t s) t = true ∧ ppsOutTooSoon s t = true, gives (.ppsOutRise t) s fun u => u.out = s.out ∧
      u.st Reg.TBASE_PPS_OUT_SUPPRESSED = (s.st Reg.TBASE_PPS_OUT_SUPPRESSED + 1) % 2 ^ 32),
  fun b => let t : Time := 128300; let s := conf [(Reg.TBASE_PPS_OUT_EN, 1), (Reg.TBASE_PPS_OUT_TRIM, 1000), (Reg.TBASE_UTC_OFFSET, 0)] { b with tbase := { b.tbase with subs := 0 } }
    (ppsOutDue (advance t s) t = false, gives (.ppsOutRise t) s fun u => u = advance t s),
  fun b => let s := conf [(Reg.TBASE_PPS_OUT_EN, 0)] b
    (s.lv Reg.TBASE_PPS_OUT_EN = 0, gives (.ppsOutRise 9) s fun u => u = advance 9 s),
  fun b => let f : Time := BitVec.ofNat 64 (100 + 3 * 1000000 * duPerNs); let s := { b with tbase := { b.tbase with ppsHigh := true, ppsRise := some 100, ppsWidth := 3 } }
    (s.tbase.ppsHigh = true ∧ f = 100 + nsT (s.tbase.ppsWidth * 1000000) ∧ tBefore (f + 5) f = false ∧ tBefore (f - 1) f = true,
     gives (.ppsOutFall (f + 5)) s (fun u => u.out = .ppsOut f false :: s.out ∧ u.tbase.ppsHigh = false) &&
      gives (.ppsOutFall (f - 1)) s (fun u => u = advance (f - 1) s))]


/-! ### interval unit -/

/-- Channel 3 selecting rising edges, with last stamped edge `a` and `k` stamps staged. -/
def chan3 (a : Option Time) (k : Nat) (b : State) : State :=
  conf [(Reg.TDC_CHn_CFG_EDGE.ix 3, 1), (Reg.TDC_CHn_CFG_SRC.ix 3, 1)] { b with tdc := { b.tdc with chans := [(3, { last := a, staging := List.replicate k (BitVec.ofNat 64 (2 ^ 62), 7, 0) })] } }

/-- One staged stamp of a rising edge, which leaves at `a`, is stamped `x`, and names its source. -/
def stagedAs (l : List (Time × Time × Word)) (a x : Time) (src : Nat) : Bool :=
  match l with
  | [(b, y, m)] => b == a && y == x && m.toNat % 2 == 1 && m.toNat / 2 % 2 == 1 && m.toNat / 256 == src % 2 ^ 24
  | _ => false

/-- Engine 2 in nearest mode with two starts and the stops `l`. -/
def iv2 (l : List (Nat × Bool × Bool)) (b : State) : State :=
  conf [(Reg.TDC_IVm_CFG_NEAREST.ix 2, 1), (Reg.TDC_IVm_CFG_EN.ix 2, 1), (Reg.TDC_IVm_CFG_PERIOD.ix 2, 0), (Reg.TDC_IVm_N.ix 2, 8), (Reg.TDC_IVm_WIN.ix 2, 500)]
    { b with tdc := { b.tdc with engines := [(2, { starts := [(400, true), (900, false)], stops := l })] } }

/-- The edge of a source at `t`. -/
def edgeAt (src : Fin 32) (t : Time) (rising : Bool) : Instr := .tdcEdge src (t.extractLsb' 7 57) (t.extractLsb' 0 7) rising

def witEdgesAreStamped : List (State → Bool × Bool) := [
  fun b => let s := b
    (true, gives (edgeAt 12 50 true) s (fun u => u = advance 50 s) && gives (edgeAt 10 50 false) s fun u => u = advance 50 s),
  fun b => let s := chan3 none 0 b
    (s.lv (Reg.TDC_CHn_CFG_SRC.ix 3) = 1 ∧ edgeSelected (s.lv (Reg.TDC_CHn_CFG_EDGE.ix 3)) false = false, gives (edgeAt 1 50 false) s fun u =>
      u.tdcChan 3 = (advance 50 s).tdcChan 3),
  fun b => let s := chan3 (some 1000) 0 b
    (s.lv (Reg.TDC_CHn_CFG_SRC.ix 3) = 1 ∧ edgeSelected (s.lv (Reg.TDC_CHn_CFG_EDGE.ix 3)) true = true ∧ ((advance 1511 s).tdcChan 3).last = some 1000 ∧
       (tDiff 1511 1000).natAbs < 512,
     gives (edgeAt 1 1511 true) s fun u => counts (Reg.TDC_CHn_DEAD.ix 3) (advance 1511 s) u ∧ u.tdcChan 3 = (advance 1511 s).tdcChan 3),
  fun b => let s := conf [(Reg.TDC_CHn_CFG_SRC.ix 3, 10)] (chan3 (some 1000) 16 b)
    (s.lv (Reg.TDC_CHn_CFG_SRC.ix 3) = 10 ∧ edgeSelected (s.lv (Reg.TDC_CHn_CFG_EDGE.ix 3)) true = true ∧ 512 ≤ (tDiff 1512 1000).natAbs ∧
       16 ≤ ((drained 3 1512 s).tdcChan 3).staging.length,
     gives (edgeAt 10 1512 true) s fun u => counts (Reg.TDC_CHn_STAGE_DROPS.ix 3) (advance 1512 s) u ∧ raised u 0x013 3 ∧ (u.tdcChan 3).gapStage = true ∧
      (u.tdcChan 3).last = some 1000),
  fun b => let s := chan3 (some 1000) 15 b
    (s.lv (Reg.TDC_CHn_CFG_SRC.ix 3) = 1 ∧ edgeSelected (s.lv (Reg.TDC_CHn_CFG_EDGE.ix 3)) true = true ∧ ((drained 3 1512 s).tdcChan 3).staging.length < 16,
     gives (edgeAt 1 1512 true) s fun u => (u.tdcChan 3).last = some 1512 ∧ (u.tdcChan 3).gapStage = false ∧
      stagedAs ((u.tdcChan 3).staging.drop ((drained 3 1512 s).tdcChan 3).staging.length) (leaveTime ((drained 3 1512 s).tdcChan 3) 1512)
        (BitVec.ofNat 64 ((stampQuarters s 3 1 1512 + 2) / 4)) 1 = true)]

def witNearestStartIsDecided : List (State → Bool × Bool) := [
  fun b => let s := conf [(Reg.TDC_IVm_CFG_NEAREST.ix 2, 0)] b
    (s.lv (Reg.TDC_IVm_CFG_NEAREST.ix 2) = 0, gives (.ivWindowEnd 2 9) s fun u => u = advance 9 s),
  fun b => let s := iv2 [] b; let t : Time := 64099
    (quarterDiff (t.toNat * 4) 400 < ivWindow s 2, gives (.ivWindowEnd 2 t) s fun u => u = advance t s),
  fun b => let s := iv2 [] b; let t : Time := 64100
    (s.lv (Reg.TDC_IVm_CFG_NEAREST.ix 2) ≠ 0 ∧ s.lv (Reg.TDC_IVm_CFG_PERIOD.ix 2) = 0 ∧ s.lv (Reg.TDC_IVm_CFG_EN.ix 2) ≠ 0 ∧ (s.iv 2).stopped = false ∧
       (s.iv 2).starts = [(400, true), (900, false)] ∧ ivWindow s 2 ≤ quarterDiff (t.toNat * 4) 400 ∧ nearestStop 400 (ivWindow s 2) (s.iv 2).stops = none,
     gives (.ivWindowEnd 2 t) s fun u => (u.iv 2).starts = [(900, false)] ∧
      u.st (Reg.TDC_IVm_UNPAIRED.ix 2) = (advance t s).st (Reg.TDC_IVm_UNPAIRED.ix 2) ∧ (u.iv 2).n = (s.iv 2).n),
  fun b => let s := iv2 [(401, true, true)] b; let t : Time := 64100
    ((s.iv 2).starts = [(400, true), (900, false)] ∧ nearestStop 400 (ivWindow s 2) (s.iv 2).stops = some (401, true, true),
     gives (.ivWindowEnd 2 t) s fun u => (u.iv 2).starts = [(900, false)] ∧ counts (Reg.TDC_IVm_UNPAIRED.ix 2) (advance t s) u ∧ (u.iv 2).n = (s.iv 2).n),
  fun b => let s := iv2 [(401, false, true)] b; let t : Time := 64100
    (nearestStop 400 (ivWindow s 2) (s.iv 2).stops = some (401, false, true) ∧ (s.iv 2).n + 1 < s.lv (Reg.TDC_IVm_N.ix 2),
     gives (.ivWindowEnd 2 t) s fun u => (u.iv 2).starts = [(900, false)] ∧ (u.iv 2).n = (s.iv 2).n + 1)]

def witReadsTakeSnapshots : List (State → Bool × Bool) := [
  fun b => let s := { b.setWinIndex .s0 0x013 3 with tdc := {} }
    (s.reaches .s0 0x013 = true ∧ s.winIndex .s0 0x013 % 8 = 3 ∧ ((advance 9 s).tdcChan 3).queue = [], gives (.qdataPop .s0 9) s fun u =>
      u.req.data = 0 ∧ u.snapOf .s0 (regAddr 0x013 0xC0C) = some 0),
  fun b => let st : Time := BitVec.ofNat 64 0x500000007; let s := { b.setWinIndex .s0 0x013 3 with tdc := { chans := [(3, { queue := [(st, 9), (8, 1)] })] } }
    (s.reaches .s0 0x013 = true ∧ ((advance 9 s).tdcChan 3).queue = [(st, 9), (8, 1)], gives (.qdataPop .s0 9) s fun u =>
      u.req.data.toNat = 7 ∧ (u.snapOf .s0 (regAddr 0x013 0xC08)).map (·.toNat) = some 5 ∧ u.snapOf .s0 (regAddr 0x013 0xC0C) = some 9 ∧
      (u.tdcChan 3).queue = [(8, 1)] ∧ u.st (Reg.TDC_CHn_COUNT.ix 3) = 1),
  fun b => let s := stat [(Reg.TDC_IVm_STD.ix 1, 99)] b
    (s.reaches .s0 0x013 = true, gives (.ivResultRead .s0 1) s fun u => u.req.data.toNat = s.st (Reg.TDC_IVm_MEAN_LO.ix 1) ∧ (u.iv 1).unread = false ∧
      (u.snapOf .s0 (regAddr 0x013 (Reg.TDC_IVm_STD.ix 1).off)).map (·.toNat) = some 99 ∧ u.status = s.status),
  fun b => let t := BitVec.ofNat 64 0x700000083; let s := stat [(Reg.SYS_MODE_STATUS_CUR, 1)] { b with time := BitVec.ofNat 64 0x700000000 }
    (s.reaches .s0 0x012 = true ∧ (advance t s).time = BitVec.ofNat 64 0x700000080, gives (.timeSnapshotRead .s0 t false) s (fun u => u.req.data.toNat = 0x80 ∧
        (u.snapOf .s0 (regAddr 0x012 0x804)).map (·.toNat) = some 7) &&
      gives (.timeSnapshotRead .s0 t true) s (fun u => u.req.data.toNat = s.st Reg.TBASE_PPS_STAMP_LO))]

def witLaunchWindowsEnd : List (State → Bool × Bool) := [
  fun b => let s := stat [(Reg.TDC_STATUS_DL_LOCK, 1)] b
    (s.st Reg.TDC_STATUS_DL_LOCK ≠ 0, gives (.dlUnlock 9) s fun u => u.st Reg.TDC_STATUS_DL_LOCK = 0 ∧ raised u 0x013 14),
  fun b => let s := stat [(Reg.TBASE_STATUS_PLL_LOCK, 1)] b
    (s.st Reg.TBASE_STATUS_PLL_LOCK ≠ 0, does (execDlLock 9) s fun u => u.st Reg.TDC_STATUS_DL_LOCK = 1),
  fun b => let s := stat [(Reg.TBASE_STATUS_PLL_LOCK, 0)] b
    (s.st Reg.TBASE_STATUS_PLL_LOCK = 0, does (execDlLock 9) s fun u => u = advance 9 s),
  fun b => let w : LaunchWait := { shot := 4, expect := 50, win := 10, edge := some (-6, true) }
    let s := { b with tdc := { b.tdc with launch := ⟨{ waits := [w, { w with shot := 5 }], valid := List.replicate 64 2 }, {}⟩ }
                      shots := ⟨{ shots := [aShot 4 0 false, aShot 5 0 false] }, {}⟩ }
    ((s.tdc.launch.get 0).waits.head? = some w, gives (.launchWindowEnd 0 9) s fun u =>
      u.tdc.launch.get 0 = { s.tdc.launch.get 0 with waits := [{ w with shot := 5 }], valid := (-6 :: List.replicate 64 2).take 64 } ∧
      u.st (Reg.TDC_LAUNCHn_LAST.ix 0) = ux Reg.TDC_LAUNCHn_LAST.width (-6) ∧
      u.st (Reg.TDC_LAUNCHn_MISS.ix 0) = (advance 9 s).st (Reg.TDC_LAUNCHn_MISS.ix 0) ∧ (∀ x ∈ (u.shots.get 0).shots, x.id = 4 → x.jit = some (-6))),
  fun b => let w : LaunchWait := { shot := 4, expect := 50, win := 10, edge := some (-6, false) }
    let s := { b with tdc := { b.tdc with launch := ⟨{}, { waits := [w], valid := [3, 4] }⟩ }
                      shots := ⟨{}, { shots := [aShot 4 0 false, aShot 5 0 false] }⟩ }
    ((s.tdc.launch.get 1).waits = [w], gives (.launchWindowEnd 1 9) s fun u =>
      (u.tdc.launch.get 1).waits = [] ∧ (u.tdc.launch.get 1).valid = [3, 4] ∧ counts (Reg.TDC_LAUNCHn_MISS.ix 1) (advance 9 s) u ∧ raised u 0x013 13 ∧
      (∀ x ∈ (u.shots.get 1).shots, x.id = 4 → x.jit = some (launchMeanLsb [3, 4])))]
/-! ### light drive and front end -/

/-- The three balls of the gate function at levels that pass, the claim complete, nothing held off. -/
def lit (b : State) : State :=
  let b := { b with twin := { b.twin with claim := 3 } }
  stat [(Reg.LDRV_GATE_STATUS_ACT_OUT, 1), (Reg.LDRV_GATE_STATUS_PEER_ACT_IN, 0), (Reg.LDRV_GATE_STATUS_EMIT_EN, 1), (Reg.SYS_SUPPLY_HOLDING, 0)] b

/-- Lane 0 in pulsed mode with DUSK injection, a short fibre and lane frames of `p` ns. -/
def dusky (p : Nat) (b : State) : State :=
  conf [(Reg.RXFn_INJ_CFG_MODE.pg 0, 2), (Reg.SHOTn_LENGTH.pg 0, 0), (Reg.MERID_CFG_SRC, 0), (Reg.MERID_DIV_N, 1), (Reg.MERID_PERIOD_PERIOD_NS, p)] (laneUp 0 2 b)

def witGateClosesAndOpens : List (State → Bool × Bool) := [
  fun b => let s := lit b
    (s.gateOpen = true, gives (.gateClosed .emitEn 9) s fun u => u.gateOpen = false ∧ u.st Reg.LDRV_GATE_STATUS_GATE = 0 ∧
      counts Reg.LDRV_GATE_CLOSURES s u ∧ raised u 0x018 1 ∧ u.st Reg.LDRV_GATE_STATUS_RAMPING = 0 ∧ Output.gate false ∈ u.out ∧
      u.st (Reg.SYNn_STATUS_EMIT.pg 0) = 0 ∧ u.st (Reg.SYNn_STATUS_EMIT.pg 1) = 0),
  fun b => let s := conf [(Reg.LDRV_PCm_CFG_EN.ix 2, 1)] (stat [(Reg.LDRV_GATE_STATUS_PEER_ACT_IN, 1)] (lit b))
    (s.gateOpen = false ∧ (setBall .peerActIn true s).gateOpen = true ∧ s.st Reg.SYS_SUPPLY_HOLDING = 0, gives (.gateOpen .peerActIn 9) s fun u =>
      u.gateOpen = true ∧ u.st Reg.LDRV_GATE_STATUS_GATE = 1 ∧ raised u 0x018 2 ∧ Output.gate true ∈ u.out ∧
      ([0, 1, 2, 3].all fun m => s.lv (Reg.LDRV_PCm_CFG_EN.ix m) == 0 || pumpFaulty s m || u.st Reg.LDRV_GATE_STATUS_RAMPING / 2 ^ m % 2 == 1) = true),
  fun b => let s := stat [(Reg.LDRV_GATE_STATUS_EMIT_EN, 0), (Reg.LDRV_GATE_STATUS_ACT_OUT, 0)] (lit b)
    (s.gateOpen = false ∧ (setBall .emitEn true s).gateOpen = false, gives (.gateOpen .emitEn 9) s fun u => u.gateOpen = false ∧ u.out = s.out)]

def witLoopsAndPumps : List (State → Bool × Bool) := [
  fun b => let s := conf [(Reg.LDRV_LDn_CFG_EN.ix 1, 0), (Reg.LDRV_LDn_SET.ix 1, 500), (Reg.LDRV_LDn_LIMIT.ix 1, 400)] b
    (loopRuns s 1 = false, gives (.loopUpdate 1 [[1, 2, 3]]) s fun u => u.st (Reg.LDRV_LOOP_OUT.ix 1) = 0 ∧ (u.loop 1).engaged = false),
  fun b => let s := conf [(Reg.LDRV_LDn_CFG_EN.ix 1, 1), (Reg.LDRV_LDn_CFG_MODE.ix 1, 0), (Reg.LDRV_LDn_SET.ix 1, 500), (Reg.LDRV_LDn_LIMIT.ix 1, 400)] (stat [(Reg.LDRV_FAULT_LD_OPEN_GND, 0), (Reg.LDRV_FAULT_LD_LOAD_SHORT, 0)] b)
    (loopRuns s 1 = false ∧ s.lv (Reg.LDRV_LDn_CFG_EN.ix 1) ≠ 0 ∧ laserFaulty s 1 = false, gives (.loopUpdate 1 []) s fun u =>
      u.st (Reg.LDRV_LOOP_OUT.ix 1) = 400 ∧ (u.loop 1).engaged = false),
  fun b => let s := conf [(Reg.LDRV_MPD_RANGE, 0), (Reg.LDRV_PCm_CFG_EN.ix 1, 1), (Reg.LDRV_PCm_CFG_MODE.ix 1, 1), (Reg.LDRV_PCm_CFG_MPD.ix 1, 0), (Reg.LDRV_PCm_TARGET.ix 1, 1000)] (stat [(Reg.LDRV_GATE_STATUS_RAMPING, 0), (Reg.LDRV_FAULT_PUMP_OPEN, 0), (Reg.LDRV_FAULT_OVERCURRENT, 0)] (lit { b with drive := { b.drive with mpd := [] }, loops := [(3, { kp := 4096, ki := 65536, lo := 5, hi := 900, acc := 10, engaged := true })] }))
    let y := ((loopInput (takeSamples [[123]] s) 3 (loopMeans (takeSamples [[123]] s) 3)).getD 0)
    (loopRuns s 3 = true ∧ (y = 0 ∨ y = 403) ∧ loopError s 3 y = 1000 - y, gives (.loopUpdate 3 [[123]]) s fun u =>
      (u.loop 3).engaged = true ∧ (u.loop 3).acc = 327680 ∧ u.st (Reg.LDRV_LOOP_OUT.ix 3) = min 900 (1005 - y)),
  fun b => let s := conf [(Reg.LDRV_MPD_RANGE, 0), (Reg.LDRV_WLw_CFG_EN.ix 1, 1), (Reg.LDRV_WLw_CFG_DEN.ix 1, 1), (Reg.LDRV_WLw_CFG_NUM.ix 1, 0), (Reg.LDRV_WLw_TARGET.ix 1, 0), (Reg.LDRV_WLw_CFG_POLARITY.ix 1, 1)] { b with drive := { b.drive with mpd := [] }, loops := [(7, { kp := 100000, ki := 70000, engaged := false })] }
    (loopRuns s 7 = true ∧ loopInput (takeSamples [[5000, 10000], [5000, 10000]] s) 7 (loopMeans (takeSamples [[5000, 10000], [5000, 10000]] s) 7) = some 32768,
     gives (.loopUpdate 7 [[5000, 10000], [5000, 10000]]) s fun u =>
      (u.loop 7).acc = max 0 (min ((loopSet s 7 : Int) * 65536 + 70000 * loopError s 7 32768 / 65536) (65535 * 65536)) ∧
      u.st (Reg.LDRV_LOOP_OUT.ix 7) = (max 0 (min ((u.loop 7).acc / 65536 + 100000 * loopError s 7 32768 / 4096) 65535)).toNat % 2 ^ 16),
  fun b => let s := conf [(Reg.LDRV_LDn_CFG_EN.ix 0, 1), (Reg.LDRV_LDn_CFG_MODE.ix 0, 1)] (stat [(Reg.LDRV_FAULT_LD_OPEN_GND, 0), (Reg.LDRV_FAULT_LD_LOAD_SHORT, 0), (Reg.LDRV_LOOP_OUT.ix 0, loopHi b 0)] b)
    (loopRuns s 0 = true ∧ s.st (Reg.LDRV_LOOP_OUT.ix 0) = loopHi s 0, gives (.loopSat 0) s fun u => raised u 0x018 3),
  fun b => let s := stat [(Reg.LDRV_GATE_STATUS_RAMPING, 15)] { b with drive := { b.drive with ramps := [(2, (b.time - nsT 3000000, 3))] } }
    (s.st Reg.LDRV_GATE_STATUS_RAMPING / 2 ^ 2 % 2 = 1 ∧ ((3000000 * duPerNs : Nat) : Int) ≤ tDiff (advance 0 s).time (b.time - nsT 3000000), gives (.rampDone 2 0) s fun u =>
      u.st Reg.LDRV_GATE_STATUS_RAMPING / 2 ^ 2 % 2 = 0 ∧ raised u 0x018 15),
  fun b => let s := conf [(Reg.LDRV_PCm_LIMIT.ix 3, 99)] b
    (s.lv (Reg.LDRV_PCm_LIMIT.ix 3) < 100, gives (.overcurrent 3 100) s fun u =>
      u.st Reg.LDRV_FAULT_OVERCURRENT / 2 ^ 3 % 2 = 1 ∧ u.st Reg.LDRV_GATE_STATUS_RAMPING / 2 ^ 3 % 2 = 0 ∧ raised u 0x018 0 ∧ laneInhibited u (pumpLane 3) = true)]

def witOutputFaultsLatchAndClear : List (State → Bool × Bool) := [
  fun b => let s := b
    (true, gives (.outputCheck (.gateOff 1 799)) s fun u => u.st (Reg.SYNn_FAULT_GATE_OPEN_GND.pg 1) = 1 ∧ raised u 0x01B 3 ∧ laneInhibited u 1 = true),
  fun b => let s := conf [(Reg.SYNn_GATE_AMP.pg 0, 200)] b
    (200 ≤ s.lv (Reg.SYNn_GATE_AMP.pg 0), gives (.outputCheck (.gateOn 0 3001)) s fun u => u.st (Reg.SYNn_FAULT_GATE_LOAD_SHORT.pg 0) = 1 ∧ raised u 0x01A 3),
  fun b => let s := b
    (true, gives (.outputCheck (.modI 0 150)) s (fun u => u = s) && gives (.outputCheck (.modI 1 50)) s (fun u => u = s) &&
      gives (.outputCheck (.modQ 1 151)) s fun u => u.st (Reg.SYNn_FAULT_MOD_Q_OPEN.pg 1) = 1 ∧ laneInhibited u 1 = true),
  fun b => let s := stat [(Reg.SYNn_FAULT_GATE_OPEN_GND.pg 1, 1), (Reg.SYNn_FAULT_MOD_I_OPEN.pg 1, 1)] b
    (s.reaches .s0 0x01B = true, gives (.faultClear .s0 0x01B 4) s fun u =>
      u.st (Reg.SYNn_FAULT_GATE_OPEN_GND.pg 1) = 1 ∧ u.st (Reg.SYNn_FAULT_MOD_I_OPEN.pg 1) = 0 ∧ u.live = s.live ∧ u.out = s.out)]

def witRangeFollowsPeaks : List (State → Bool × Bool) := [
  fun b => let x : List (List (List Int)) := [[[1]], [[7, -3000]]]; let s := conf [(Reg.RXFn_INJ_CFG_MODE.pg 1, 0), (Reg.RXFn_CFG_ARC_EN.pg 1, 1), (Reg.RXFn_ARC_HI.pg 1, 1500), (Reg.RXFn_ARC_LIMITS_MIN_RANGE.pg 1, 0), (Reg.SHOTn_ZERO_TAU0.pg 1, 0)] (stat [(Reg.SYS_MODE_STATUS_CUR, 3), (Reg.RXFn_STATUS_RANGE_CUR.pg 1, 2)] { b with rxf := ⟨{}, { hiRun := 1, dwell := 1 }⟩, lanes := ⟨{}, {}⟩ })
    (s.mode ≠ 5 ∧ (s.rxf.get 1).frameDark = false ∧ s.lv (Reg.RXFn_INJ_CFG_MODE.pg 1) ≠ 1 ∧ (s.lanes.get 1).withheld = false ∧ (x.map (nearPeak s.live 1)).foldl max 0 = 3000 ∧
       s.lv (Reg.RXFn_CFG_ARC_EN.pg 1) ≠ 0 ∧ (s.rxf.get 1).hiRun = 1 ∧ s.lv (Reg.RXFn_ARC_HI.pg 1) ≤ 3000 ∧ (s.rxf.get 1).dwell ≤ 1 ∧
       s.lv (Reg.RXFn_ARC_LIMITS_MIN_RANGE.pg 1) < s.range 1, gives (.arcDecision 1 x) s fun u =>
      u.st (Reg.RXFn_ARC_PEAK_PREV.pg 1) = s.st (Reg.RXFn_ARC_PEAK_LAST.pg 1) % 2 ^ Reg.RXFn_ARC_PEAK_PREV.width ∧
      u.st (Reg.RXFn_ARC_PEAK_LAST.pg 1) = 2047 ∧ (u.rxf.get 1).step = some 1 ∧ (u.rxf.get 1).hiRun = 0 ∧ u.range 1 = s.range 1),
  fun b => let s := conf [(Reg.RXFn_INJ_CFG_MODE.pg 1, 0), (Reg.RXFn_CFG_ARC_EN.pg 1, 0), (Reg.SHOTn_ZERO_TAU0.pg 1, 0)] (stat [(Reg.SYS_MODE_STATUS_CUR, 3)] { b with rxf := ⟨{}, { hiRun := 1, dwell := 1, step := some 2 }⟩, lanes := ⟨{}, {}⟩ })
    (s.lv (Reg.RXFn_CFG_ARC_EN.pg 1) = 0 ∧ nearPeak s.live 1 [[700]] = 700, gives (.arcDecision 1 [[[700]]]) s fun u =>
      u.st (Reg.RXFn_ARC_PEAK_LAST.pg 1) = 700 ∧ (u.rxf.get 1).step = (s.rxf.get 1).step ∧ u.range 1 = s.range 1),
  fun b => let s := conf [(Reg.RXFn_INJ_CFG_MODE.pg 0, 0), (Reg.RXFn_CFG_ARC_EN.pg 0, 1), (Reg.RXFn_ARC_LIMITS_MIN_RANGE.pg 0, 1)] (stat [(Reg.SYS_MODE_STATUS_CUR, 3), (Reg.RXFn_STATUS_RANGE_CUR.pg 0, 2)] { b with rxf := ⟨{ frameDark := true, hiRun := 2, dwell := 1 }, {}⟩, lanes := ⟨{}, {}⟩ })
    ((s.rxf.get 0).frameDark = true ∧ s.mode ≠ 5 ∧ (s.lanes.get 0).withheld = false ∧ s.lv (Reg.RXFn_CFG_ARC_EN.pg 0) ≠ 0 ∧ 2 ≤ (s.rxf.get 0).hiRun ∧
       s.lv (Reg.RXFn_ARC_LIMITS_MIN_RANGE.pg 0) < s.range 0, gives (.arcDecision 0 [[[700]]]) s fun u =>
      u.st (Reg.RXFn_ARC_PEAK_LAST.pg 0) = s.st (Reg.RXFn_ARC_PEAK_LAST.pg 0) ∧ u.st (Reg.RXFn_ARC_PEAK_PREV.pg 0) = s.st (Reg.RXFn_ARC_PEAK_PREV.pg 0) ∧
      (u.rxf.get 0).step = some 1),
  fun b => let s0 := conf [(Reg.RXFn_CFG_ARC_EN.pg 0, 0), (Reg.RXFn_CFG_RANGE.pg 0, 3)] (stat [(Reg.SYS_MODE_STATUS_CUR, 3), (Reg.RXFn_STATUS_RANGE_CUR.pg 0, 2)] { b with commits := [], rxf := ⟨{}, {}⟩, lanes := ⟨{ lastTick := 6400000 }, {}⟩, merid := {} })
    let t := laneTick s0 0; let at_ := t - nsT 400; let s := { s0 with time := at_, shots := ⟨{ shots := [{ aShot 4 0 false with at_ := at_, cfg := s0.live }, { aShot 5 1 false with at_ := at_ + 100000000000, cfg := s0.live }] }, {}⟩ }
    let w := advance at_ s
    (s.mode ≠ 5 ∧ dueRange w 0 (laneTick w 0) = 3 ∧ 3 ≠ s.range 0 ∧ (s.rxf.get 0).switched = none ∧ tBefore w.time (laneTick w 0 - nsT 400) = false, gives (.rangeChange 0 at_) s fun u =>
      (u.rxf.get 0).switched = some 3 ∧ u.range 0 = s.range 0 ∧ (u.shots.get 0).shots.map (·.id) = [4, 5] ∧
      (returnDu s.live 0 = 0 ∨ { aShot 4 0 false with at_ := at_, cfg := s0.live, switches := [(at_, 3)] } ∈ (u.shots.get 0).shots))]

def witFrontEndStatus : List (State → Bool × Bool) := [
  fun b => let s := conf [(Reg.RXFn_SERVO_CFG_EN.pg 0, 1)] b
    (s.lv (Reg.RXFn_SERVO_CFG_EN.pg 0) ≠ 0, gives (.servoSat 0 2 (-10000)) s (fun u => u.st (Reg.RXFn_STATUS_SERVO_SAT.pg 0) / 2 ^ 2 % 2 = 1 ∧
        u.stS ((Reg.RXFn_SERVO_c.pg 0).ix 2) = -10000 ∧ raised u 0x020 2) &&
      gives (.servoSat 0 2 9999) s fun u => u.st (Reg.RXFn_STATUS_SERVO_SAT.pg 0) / 2 ^ 2 % 2 = 0 ∧ u.stS ((Reg.RXFn_SERVO_c.pg 0).ix 2) = 9999),
  fun b => let s := b
    (true, gives (.pdbLimit 1 20000) s (fun u => u.st (Reg.RXFn_PDB_CURRENT.pg 1) = 20000 ∧ u.st (Reg.RXFn_STATUS_PDB_LIMIT.pg 1) = 0) &&
      gives (.pdbLimit 1 20001) s (fun u => u.st (Reg.RXFn_PDB_CURRENT.pg 1) = 20000 ∧ u.st (Reg.RXFn_STATUS_PDB_LIMIT.pg 1) = 1 ∧ raised u 0x021 4)),
  fun b => let s := dusky 1000000 b
    (s.mode ≠ 5 ∧ s.lv (Reg.RXFn_INJ_CFG_MODE.pg 0) = 2 ∧ s.laneState 0 = 2 ∧ s.dasMode 0 ≠ 1 ∧ (advance (duskWindow s 0).1 s).reached (duskWindow s 0).1 = true ∧
       ((1000 * duPerNs : Nat) : Int) ≤ tDiff (duskWindow s 0).2 (duskWindow s 0).1, gives (.duskInjection 0 (duskWindow s 0).1) s fun u =>
        u.st (Reg.RXFn_STATUS_INJ_ACTIVE.pg 0) = 1 ∧ (u.rxf.get 0).duskEnd = some (duskWindow s 0).2 ∧ (u.rxf.get 0).inject ≠ none),
  fun b => let s := dusky 0 b
    (s.mode ≠ 5 ∧ s.lv (Reg.RXFn_INJ_CFG_MODE.pg 0) = 2 ∧ s.laneState 0 = 2 ∧ s.dasMode 0 ≠ 1 ∧ (advance (duskWindow s 0).1 s).reached (duskWindow s 0).1 = true ∧
       tDiff (duskWindow s 0).2 (duskWindow s 0).1 < (1000 * duPerNs : Nat), gives (.duskInjection 0 (duskWindow s 0).1) s fun u =>
        counts (Reg.RXFn_INJ_SKIP.pg 0) s u ∧ u.st (Reg.RXFn_STATUS_INJ_ACTIVE.pg 0) = s.st (Reg.RXFn_STATUS_INJ_ACTIVE.pg 0))]

def witTablesAndTraces : List (State → Bool × Bool) := [
  fun b => let s := stat [(laneStateF 1, 0)] (b.setWinIndex .s0 0x029 (3 * 65536 + 19999))
    (s.reaches .s0 0x029 = true ∧ s.laneState 1 = 0 ∧ s.winIndex .s0 0x029 % 32768 < 20000, gives (.mfDataWrite .s0 1 0x12345678) s fun u =>
      Amap.find (3 * 32768 + 19999) (u.shotp.get 1).mfUser = some 0x12345678 ∧ u.winIndex .s0 0x029 = 3 * 65536 + 20000),
  fun b => let s := stat [(laneStateF 1, 2)] b
    (s.reaches .s0 0x029 = true ∧ s.laneState 1 ≠ 0, gives (.mfDataWrite .s0 1 0x12345678) s fun u => u.shotp = s.shotp ∧ raised u 0x029 5),
  fun b => let s := laneUp 0 7 (conf [(Reg.SHOTn_TRACE_CFG_FRAMES.pg 0, 0)] { b with shotp := ⟨{ traceFull := true }, {}⟩ })
    (s.lv (Reg.SHOTn_TRACE_CFG_FRAMES.pg 0) = 0 ∧ s.laneMode 0 = 7 ∧ s.laneState 0 = 2 ∧ (s.shotp.get 0).traceDone = false ∧ (s.shotp.get 0).traceFull = true, gives (.traceFrame 0 [[1]]) s fun u =>
      counts (Reg.SHOTn_TRACE_MISSED.pg 0) s u ∧ u.mem = s.mem),
  fun b => let s := conf [(Reg.SHOTn_TRACE_CFG_CH.pg 0, 0), (Reg.SHOTn_TRACE_CFG_FRAMES.pg 0, 5)] (stat [(Reg.SHOTn_TRACE_FRAMES.pg 0, 4)] (laneUp 0 7 { b with shotp := ⟨{}, {}⟩ }))
    (s.laneMode 0 = 7 ∧ s.laneState 0 = 2 ∧ (s.shotp.get 0).traceDone = false ∧ (s.shotp.get 0).traceFull = false ∧ s.lv (Reg.SHOTn_TRACE_CFG_CH.pg 0) = 0,
     gives (.traceFrame 0 [[1]]) s fun u => u.st (Reg.SHOTn_TRACE_FRAMES.pg 0) = 5 ∧ u.mem = s.mem ∧ (u.shotp.get 0).traceDone = true)]
/-! ### slow-time chain, zones and capture -/

def witSlowPartsAndCoefficients : List (State → Bool × Bool) := [
  fun b => let s := conf [(Reg.SLOWn_CT_FRAMES.pg 0, 4)] { b with slow := ⟨{ parts := 3, next := 4 * kPhz b.live 0 - 1 }, {}⟩ }
    (s.lv (Reg.SLOWn_CT_FRAMES.pg 0) ≠ 0 ∧ (s.slow.get 0).next < ((s.slow.get 0).parts / s.lv (Reg.SLOWn_CT_FRAMES.pg 0) + 1) * blockLen s.live 0 ∨ kPhz b.live 0 = 0,
     gives (.slowPart 0 ⟨2, false⟩) s fun u => u = sramMet ⟨2, false⟩ s ∨ kPhz b.live 0 = 0),
  fun b => let s := conf [(Reg.SLOWn_CT_FRAMES.pg 0, 4)] { b with live := [], slow := ⟨{ parts := 3, next := 40 }, {}⟩ }
    (s.lv (Reg.SLOWn_CT_FRAMES.pg 0) ≠ 0 ∧ ((s.slow.get 0).parts / s.lv (Reg.SLOWn_CT_FRAMES.pg 0) + 1) * blockLen s.live 0 ≤ (s.slow.get 0).next,
     gives (.slowPart 0 noSram) s fun u => (u.slow.get 0).parts = 4),
  fun b => let s := conf [(Reg.SLOWn_FIR_CFG_POLICY.pg 1, 1), (Reg.SLOWn_FIR_CFG_BANK.pg 1, 0)] (stat [(laneStateF 1, 0)] ({ b with slow := ⟨{}, {}⟩ }.setWinIndex .s0 0x02D (512 + 511)))
    (s.reaches .s0 0x02D = true ∧ s.winIndex .s0 0x02D / 512 % 2 = 1 ∧ s.lv (Reg.SLOWn_FIR_CFG_POLICY.pg 1) ≠ 0 ∧ bankBusy s 1 1 = false,
     gives (.coefWrite .s0 1 0x8001) s fun u => coefOf (u.slow.get 1) 1 511 = -32767 ∧ u.winIndex .s0 0x02D = 512),
  fun b => let s := conf [(Reg.SLOWn_FIR_CFG_POLICY.pg 1, 1), (Reg.SLOWn_FIR_CFG_BANK.pg 1, 1)] (stat [(laneStateF 1, 0)] ({ b with slow := ⟨{}, {}⟩ }.setWinIndex .s0 0x02D 700))
    (s.reaches .s0 0x02D = true ∧ s.winIndex .s0 0x02D / 512 % 2 = 1 ∧ s.lv (Reg.SLOWn_FIR_CFG_POLICY.pg 1) ≠ 0 ∧ bankBusy s 1 1 = true,
     gives (.coefWrite .s0 1 0x8001) s fun u => u.slow = s.slow ∧ counts (Reg.SLOWn_COEF_REJECTS.pg 1) s u ∧ raised u 0x02D 2)]

def witSegmentsClose : List (State → Bool × Bool) := [
  fun b => let g : Seg := { st := 1, gen := 3, zone := 6, end_ := 50, next := 50, cap := 60 }
    let s := conf [(Reg.CAPT_SEG_SIZE, 12)] { b with capt := { b.capt with segs := [(2, g)], zones := [] }, zc := [], poison := [] }
    (s.seg 2 = g ∧ g.st = 1 ∧ g.end_ ≤ g.next ∧ g.hold = 0 ∧ copying s 2 = false, gives (.segmentClose 2) s fun u => (u.zcapt 6).st = 2 ∧ memRead u (segAddr s 2) 64 = segHeader 2 g ∧
      (u.seg 2).st = 0),
  fun b => let g : Seg := { st := 1, gen := 3, zone := 6, end_ := 50, next := 50, cap := 60, hold := 5 }
    let s := conf [(Reg.CAPT_SEG_SIZE, 12)] { b with capt := { b.capt with segs := [(2, g)], zones := [] }, zc := [], poison := [] }
    (s.seg 2 = g ∧ g.st = 1 ∧ g.end_ ≤ g.next ∧ g.hold ≠ 0, gives (.segmentClose 2) s fun u => (u.zcapt 6).st = 2 ∧ memRead u (segAddr s 2) 64 = segHeader 2 g ∧
      (u.seg 2).st = 2),
  fun b => let g : Seg := { st := 1, end_ := 50, next := 49, cap := 60, held := 59 }
    let s := { b with capt := { b.capt with segs := [(2, g)] } }
    (s.seg 2 = g ∧ g.next < g.end_ ∧ g.held < g.cap, gives (.segmentClose 2) s fun u => u = s)]

def witSegmentHoldsEnd : List (State → Bool × Bool) := [
  fun b => let s := conf [(Reg.CAPT_HOLD_TIMEOUT, 1)] { b with capt := { b.capt with segs := [(2, { st := 2, hold := 4, sflags := 1 })] }, zc := [] }
    ((s.seg 2).st = 2 ∧ (s.seg 2).hold ≠ 0 ∧ s.lv Reg.CAPT_HOLD_TIMEOUT ≠ 0 ∧ copying s 2 = false, gives (.holdExpired 2) s fun u => (u.seg 2).hold = 0 ∧
      (u.seg 2).sflags = 0x41 ∧ counts Reg.CAPT_HOLD_EXPIRED s u ∧ raised u 0x039 4 ∧ (u.seg 2).st = 0),
  fun b => let s := conf [(Reg.CAPT_HOLD_TIMEOUT, 1)] { b with capt := { b.capt with segs := [(2, { st := 2, hold := 4, sflags := 1 })] }, zc := [(1, { copy := some ⟨2, 0, 0, 1, 1, 0, 0⟩ })] }
    ((s.seg 2).st = 2 ∧ (s.seg 2).hold ≠ 0 ∧ copying s 2 = true, gives (.holdExpired 2) s fun u => (u.seg 2).hold = 4 ∧ (u.seg 2).st = 2 ∧
      (u.seg 2).expired = true ∧ u.status = s.status),
  fun b => let s := { b with capt := { b.capt with segs := [(2, { st := 2, hold := 7, gen := 3 })] }, zc := [] }
    (s.reaches .s0 0x039 = true ∧ segId 2 (s.seg 2) = 0x30002 ∧ (s.seg 2).st ≠ 0 ∧ copying s 2 = false, gives (.captRelease .s0 0x30002) s fun u =>
      (u.seg 2).hold = 3 ∧ u.status = s.status),
  fun b => let s := { b with capt := { b.capt with segs := [(2, { st := 2, hold := 7, gen := 3 })] }, zc := [(1, { copy := some ⟨2, 0, 0, 1, 1, 0, 0⟩ })] }
    (s.reaches .s0 0x039 = true ∧ segId 2 (s.seg 2) = 0x30002 ∧ (s.seg 2).st ≠ 0 ∧ copying s 2 = true, gives (.captRelease .s0 0x30002) s fun u =>
      (u.seg 2).hold = 7 ∧ (u.seg 2).owed = 4 ∧ u.status = s.status),
  fun b => let s := { b with capt := { b.capt with segs := [(2, { st := 2, hold := 7, gen := 3 })] } }
    (s.reaches .s0 0x039 = true ∧ segId 2 (s.seg 2) ≠ 0x40002, gives (.captRelease .s0 0x40002) s fun u => u.capt = s.capt ∧ counts Reg.CAPT_RELEASE_REJECTS s u ∧ raised u 0x039 5),
  fun b => let s := { b with capt := { b.capt with segs := [(2, { st := 2, hold := 0, gen := 3 })] }, zc := [] }
    ((s.seg 2).st = 2 ∧ (s.seg 2).hold = 0 ∧ copying s 2 = false, gives (.segmentFree 2) s fun u => (u.seg 2).st = 0 ∧ (u.seg 2).gen = 3),
  fun b => let s := { b with capt := { b.capt with segs := [(2, { st := 2, hold := 1, gen := 3 })] }, zc := [] }
    ((s.seg 2).st = 2 ∧ (s.seg 2).hold ≠ 0, gives (.segmentFree 2) s fun u => u.capt = s.capt),
  fun b => let s := { b with capt := { b.capt with segs := [(2, { st := 2, hold := 0, gen := 3 })] }, zc := [(1, { copy := some ⟨2, 0, 0, 1, 1, 0, 0⟩ })] }
    ((s.seg 2).st = 2 ∧ copying s 2 = true, gives (.segmentFree 2) s fun u => u.capt = s.capt)]

def witZonesRearmAndThrottle : List (State → Bool × Bool) := [
  fun b => let s := { b with capt := { b.capt with zones := [(4, { st := 2 })] } }
    ((s.zcapt 4).st = 2 ∧ (s.zcapt 4).waiting = [], gives (.rearm 4) s fun u => (u.zcapt 4).armed = true ∧ (u.zcapt 4).st = 0 ∧ (u.zcapt 4).waiting = []),
  fun b => let s := { b with capt := { b.capt with zones := [(4, { st := 1 })] } }
    ((s.zcapt 4).st ≠ 2, gives (.rearm 4) s fun u => u = s),
  fun b => let s := conf [(Reg.CAPT_THR_EN, 1), (Reg.CAPT_THR_HI, 10), (Reg.CAPT_THR_MAX, 3)] (stat [(Reg.CAPT_BACKLOG, 10), (Reg.CAPT_STATUS_THROTTLE, 2)] b)
    (s.lv Reg.CAPT_THR_EN ≠ 0 ∧ s.lv Reg.CAPT_THR_HI ≤ s.st Reg.CAPT_BACKLOG ∧ s.st Reg.CAPT_STATUS_THROTTLE < s.lv Reg.CAPT_THR_MAX, gives .throttle s fun u =>
      u.st Reg.CAPT_STATUS_THROTTLE = 3 ∧ counts Reg.CAPT_THROTTLE_STEPS s u ∧ raised u 0x039 2),
  fun b => let s := conf [(Reg.CAPT_THR_EN, 1), (Reg.CAPT_THR_HI, 10), (Reg.CAPT_THR_LO, 4)] (stat [(Reg.CAPT_BACKLOG, 3), (Reg.CAPT_STATUS_THROTTLE, 1)] b)
    (s.st Reg.CAPT_BACKLOG < s.lv Reg.CAPT_THR_HI ∧ s.st Reg.CAPT_BACKLOG < s.lv Reg.CAPT_THR_LO ∧ 0 < s.st Reg.CAPT_STATUS_THROTTLE, gives .throttle s fun u =>
      u.st Reg.CAPT_STATUS_THROTTLE = 0 ∧ counts Reg.CAPT_THROTTLE_STEPS s u ∧ raised u 0x039 2),
  fun b => let s := conf [(Reg.CAPT_THR_EN, 0)] b
    (s.lv Reg.CAPT_THR_EN = 0, gives .throttle s fun u => u = s)]

def witZoneTableAndEventRecords : List (State → Bool × Bool) := [
  fun b => let s := b.setWinIndex .s0 0x038 (0x1F00E)
    (s.reaches .s0 0x038 = true ∧ s.winIndex .s0 0x038 = 0x1F00E, gives (.zoneDataWrite .s0 77) s fun u =>
      Amap.find (65536 + 14 * 16 + 15) u.zone.shadow = some (77 &&& zoneMask 1 15) ∧ u.winIndex .s0 0x038 = 0x1000F ∧ u.zone.words = s.zone.words ∧ u.commitReady 0x038 = false),
  fun b => let s := { b.setWinIndex .s0 0x038 (6 * 4096 + 4095) with commits := [⟨0x038, 3, false⟩] }
    (s.reaches .s0 0x038 = true, gives (.zoneDataWrite .s0 77) s fun u => Amap.find (4095 * 16 + 6) u.zone.shadow = some (77 &&& zoneMask 0 6) ∧
      u.zone.words = s.zone.words ∧ u.commitReady 0x038 = false ∧ u.winIndex .s0 0x038 = 4095 + 7 * 4096),
  fun b => let r : Rec := { product := 7, width := 0, body := [1, 2], born := 5 }
    let s := conf [(Reg.ZONE_EVT_FLUSH, 2)] (stat [(Reg.SYS_MODE_STATUS_CUR, 1)] { b with time := 5 + nsT 1000, strm := { b.strm with streams := [{ sid := 5, slot := 1, sel := ⟨7, 0, 0, 10, 1, 0⟩, opens := [(0, r)] }] } })
    let t : Time := 5 + nsT 2000 + 128
    (openRec (advance t s) 5 0 = some r ∧ ((s.lv Reg.ZONE_EVT_FLUSH * 1000 * duPerNs : Nat) : Int) ≤ tDiff (advance t s).time 5, gives (.evtFlush t) s fun u =>
      u.mem = s.mem ∧ u.live = s.live ∧ u.zone = s.zone ∧ openRec u 5 0 = none),
  fun b => let r : Rec := { product := 7, width := 0, body := [1, 2], born := 5 }
    let s := conf [(Reg.ZONE_EVT_FLUSH, 2)] (stat [(Reg.SYS_MODE_STATUS_CUR, 1)] { b with time := 5 + nsT 1000, strm := { b.strm with streams := [{ sid := 5, slot := 1, sel := ⟨7, 0, 0, 10, 1, 0⟩, opens := [(0, r)] }] } })
    let t : Time := 5 + nsT 1999
    (openRec (advance t s) 5 0 = some r ∧ tDiff (advance t s).time 5 < (s.lv Reg.ZONE_EVT_FLUSH * 1000 * duPerNs : Nat), gives (.evtFlush t) s fun u => u = advance t s)]
/-! ### Raman sensing and the auxiliary converter -/

/-- A Raman period. -/
def aPer (id : Nat) : DtsPeriod := { id := id, from_ := 5, first := some 5, ranges := 0, len := 3, sched := 2, lit := 2, accX := [7, 8, 9], accY := [1], baseX := 100 }

def witRamanShotsAndPeriods : List (State → Bool × Bool) := [
  fun b => let s := conf [(Reg.DTS_PULSE_WIDTH, 10), (Reg.DTS_OFFSET, 3)] (lit (laneUp 0 5 { b with raman := { tick := some 40, lanes := ⟨{ per := some (aPer 3) }, {}⟩ }, lanes := ⟨{}, {}⟩ }))
    let t := ramanCommand s 40; let w := endDue 1 (endDue 0 (advance t s))
    (s.raman.tick = some 40 ∧ t = 512 ∧ (advance t s).reached t = true ∧ w.laneState 0 = 2 ∧ (w.rl 0).per = some (aPer 3) ∧ (w.lanes.get 0).withheld = false ∧ w.gateOpen = true ∧ w.twin.claim = 3 ∧ w.st Reg.SYS_SUPPLY_HOLDING = 0,
     gives (.ramanLaunch 512) s fun u => u.raman.tick = none ∧ u.out = .tsPulse (512 + nsT 20) 10 :: w.out ∧
      (u.rl 0).shots = (w.rl 0).shots ++ [⟨512, 512 + nsT 30, 3⟩] ∧
      (u.rl 0).per = some { aPer 3 with last := some (512 + BitVec.ofNat 64 (512 * (w.lv (Reg.DTS_Ln_TAU0.ix 0) + ramanPoints w.live 0))) }),
  fun b => let s := conf [(Reg.DTS_OFFSET, 3)] (stat [(Reg.LDRV_GATE_STATUS_EMIT_EN, 0)] (laneUp 0 5 { b with raman := { tick := some 40, lanes := ⟨{ per := some (aPer 3) }, {}⟩ }, lanes := ⟨{}, {}⟩ }))
    let w := endDue 1 (endDue 0 (advance 512 s))
    (s.raman.tick = some 40 ∧ ramanCommand s 40 = 512 ∧ (advance 512 s).reached 512 = true ∧ w.laneState 0 = 2 ∧ (w.rl 0).per = some (aPer 3) ∧ (w.lanes.get 0).withheld = false ∧ w.gateOpen = false,
     gives (.ramanLaunch 512) s fun u => u.raman.tick = none ∧ u.out = w.out ∧ (u.rl 0).shots = (w.rl 0).shots ∧
      (u.rl 0).per = some { aPer 3 with notAll := true } ∧ counts (Reg.DTS_Ln_DARK_SHOTS.ix 0) w u),
  fun b => let s := { b with raman := { tick := none } }
    (s.raman.tick = none, gives (.ramanLaunch 3) s fun u => u = advance 3 s),
  fun b => let s := conf [(Reg.DTS_OFFSET, 4)] b
    (true, (ramanCommand s 512).toNat = 1024 ∧ (ramanCommand s 513).toNat = 1536 ∧ (ramanCommand s 0).toNat = 512),
  fun b => let s := { b with raman := { lanes := ⟨{}, { per := some (aPer 3), shots := [⟨50, 60, 3⟩, ⟨70, 80, 3⟩] }⟩ } }
    ((s.rl 1).shots = [⟨50, 60, 3⟩, ⟨70, 80, 3⟩] ∧ (s.rl 1).per = some (aPer 3), gives (.ramanReturn 1 [10, 20, 30] [5] [3, 4] [1] noSram) s fun u =>
      (u.rl 1).shots = [⟨70, 80, 3⟩] ∧ ((u.rl 1).per.map fun r => (r.lit, r.accX, r.accY, r.baseX)) =
        some (3, addSums [7, 8, 9] ([10, 20, 30].take (ramanTotal s.live 1)), addSums [1] ([5].take (ramanTotal s.live 1)),
          100 + sumI ([3, 4].take (s.lv Reg.DTS_CFG_BASE_N))) ∧ u.st (Reg.DTS_Ln_SHOTS.ix 1) = 3),
  fun b => let s := { b with raman := { lanes := ⟨{}, { per := some (aPer 3), shots := [⟨50, 60, 3⟩, ⟨70, 80, 3⟩] }⟩ } }
    ((s.rl 1).shots = [⟨50, 60, 3⟩, ⟨70, 80, 3⟩] ∧ (s.rl 1).per = some (aPer 3), gives (.ramanReturn 1 [10, 20, 30] [5] [3, 4] [1] ⟨0, true⟩) s fun u =>
      (u.rl 1).shots = [⟨70, 80, 3⟩] ∧ (u.rl 1).per = some { aPer 3 with notAll := true, hole := true } ∧ counts Reg.SYS_SRAM_UE s u),
  fun b => let s := { b with raman := { lanes := ⟨{ per := some (aPer 3), due := some 99, ended := [aPer 1] }, {}⟩ } }
    ((s.rl 0).due = some 99 ∧ (advance 99 s).reached 99 = true ∧ (s.rl 0).per = some (aPer 3), gives (.dtsPeriodEnd 0 99) s fun u => (u.rl 0).due = none ∧
      (u.rl 0).ended.map (fun e => (e.id, e.lit)) = [(1, 2), (3, 2)] ∧
      (((u.rl 0).ended.drop 1).all fun e => e.end_ == 99 && !e.short && e.accX == [7, 8, 9]) = true ∧
      ((u.rl 0).per.any fun q => q.from_ == 99 && q.first == some 99 && q.sched == 1 && q.lit == 0 && q.accX == [] && q.len == s.lv Reg.DTS_AVG_SHOTS) = true),
  fun b => let s := { b with raman := { lanes := ⟨{ per := some (aPer 3) }, {}⟩ } }
    ((s.rl 0).due = none, gives (.dtsPeriodEnd 0 128) s fun u => u = advance 128 s),
  fun b => let s := { b with raman := { lanes := ⟨{ ended := [{ aPer 3 with lit := 0 }, aPer 4] }, {}⟩ } }
    ((s.rl 0).ended = [{ aPer 3 with lit := 0 }, aPer 4], gives (.profile 0) s fun u => (u.rl 0).ended = [aPer 4] ∧ counts (Reg.DTS_Ln_PERIODS.ix 0) s u ∧
      raised u 0x030 0 ∧ raised u 0x030 6 ∧ ((u.rl 0).prev.map fun x => (u.st (Reg.DTS_Ln_LNC_USED.ix 0) == ux 32 x.1) && (u.st (Reg.DTS_Ln_DALPHA_USED.ix 0) == ux 32 x.2)) = some true)]


/-- A conversion of definition `r` from origin `o`. -/
def aConv (r o : Nat) (rev : Nat) : AuxConv :=
  { r := r, origin := o, cfg := RegFile.set [] (Reg.AUX_Rr_CFG_REV.ix r) rev, start := 5, endA := 20, cA := 300, cB := -100, end_ := 77 }

def witAuxSourcesAndEnable : List (State → Bool × Bool) := [
  fun b => let s := conf [(Reg.AUX_SRCs_CODE.ix 2, 1)] b
    (s.reaches .s0 0x031 = true ∧ terminalOk 1 = true ∧ terminalOk 2 = true ∧ s.sh (Reg.AUX_SRCs_CODE.ix 2) ≠ 3, gives (.auxSrcWrite .s0 9 2 0x213) s fun u =>
      u.lv (Reg.AUX_SRCs_CODE.ix 2) = 3 ∧ u.lv (Reg.AUX_SRCs_HI.ix 2) = 1 ∧ u.lv (Reg.AUX_SRCs_LO.ix 2) = 2 ∧ u.st Reg.AUX_STATUS_SETTLING / 2 ^ 2 % 2 = 1),
  fun b => let s := b
    (s.reaches .s0 0x031 = true ∧ terminalOk 14 = false, gives (.auxSrcWrite .s0 9 2 0x1E3) s fun u => u.live = s.live ∧ u.shadow = s.shadow ∧ raised u 0x031 13),
  fun b => let s := stat [(Reg.AUX_STATUS_SETTLING, 15)] b
    (true, gives (.settleEnd 1) s fun u => u.st Reg.AUX_STATUS_SETTLING / 2 % 2 = 0 ∧ u.st Reg.AUX_STATUS_SETTLING / 2 ^ 0 % 2 = 1 ∧
      u.st Reg.AUX_STATUS_SETTLING / 2 ^ 2 % 2 = 1 ∧ u.st Reg.AUX_STATUS_SETTLING / 2 ^ 3 % 2 = 1),
  fun b => let s := stat [(Reg.SYS_MODE_STATUS_CUR, 2), (Reg.AUX_STATUS_STATE, 0)] b
    (s.reaches .s0 0x031 = true ∧ 2 ≤ s.mode ∧ s.mode ≤ 4 ∧ s.auxState = 0, gives (.auxEnable .s0 9 3) s (fun u => u.lv Reg.AUX_CFG_EN = 1 ∧
      u.lv Reg.AUX_CFG_SCAN_EN = 1 ∧ u.auxState = 1)),
  fun b => let s := stat [(Reg.AUX_STATUS_STATE, 2)] { b with aux := { work := [1, 2], req := some 3, conv := some (aConv 1 0 0) } }
    (s.reaches .s0 0x031 = true, gives (.auxDisable .s0 9 0) s (fun u => u.lv Reg.AUX_CFG_EN = 0 ∧ u.auxState = 0 ∧ u.aux.conv = none ∧ u.aux.work = [] ∧ u.aux.req = none))]

def witAuxConversionsRun : List (State → Bool × Bool) := [
  fun b => let s := stat [(Reg.AUX_STATUS_STATE, 3)] { b with aux := { conv := some (aConv 1 0 0) } }
    (auxUnderWay s = true, gives (.auxStartEdge 9) s fun u => u.aux = s.aux ∧ counts Reg.AUX_DROPPED s u ∧ raised u 0x031 8),
  fun b => let s := conf [(Reg.AUX_Rr_CFG_EN.ix 3, 1), (Reg.AUX_Rr_CFG_START.ix 3, 1)] (stat [(Reg.AUX_STATUS_STATE, 1)] { b with aux := {} })
    let l := (List.range 8).filter (fun r => s.on (Reg.AUX_Rr_CFG_EN.ix r) && s.on (Reg.AUX_Rr_CFG_START.ix r))
    (s.auxState ≠ 0 ∧ auxUnderWay s = false ∧ s.aux.work = [] ∧ l ≠ [], gives (.auxStartEdge 9) s fun u => u.aux.work = l ∧ u.st Reg.AUX_STATUS_START_PENDING = 1),
  fun b => let s := stat [(Reg.AUX_STATUS_STATE, 1)] { b with aux := {} }
    (s.reaches .s0 0x031 = true ∧ s.auxState ≠ 0 ∧ auxUnderWay s = false ∧ s.aux.req = none, gives (.auxReq .s0 9 0xF) s fun u => u.aux.req = some 7 ∧
      u.st Reg.AUX_STATUS_REQ_PENDING = 1),
  fun b => let s := stat [(Reg.AUX_STATUS_STATE, 1)] { b with aux := { work := [4, 5], req := some 6 } }
    (s.auxState = 1 ∧ (auxPick s).isSome = true, gives (.auxConversionStart 9) s fun u => u.auxState = 2 ∧
      (auxPick s).map (fun x => (u.aux.work == x.2.2.work && u.aux.req == x.2.2.req && u.aux.scan == x.2.2.scan && (u.aux.conv.map fun c => (c.r, c.origin, c.start)) == some (x.2.1, x.1, 9))) = some true),
  fun b => let s := stat [(Reg.AUX_STATUS_STATE, 2)] { b with aux := { conv := some (aConv 1 0 0) } }
    (s.auxState = 2, gives (.integrationEnd 50 1000 2000 0) s fun u => u.auxState = 5 ∧
      (u.aux.conv.map fun d => (d.r, d.cA, d.endA)) = some (1, max (-8388607) (min 8388607 (auxCode s (aConv 1 0 0) 1000 2000)), 50)),
  fun b => let s := stat [(Reg.AUX_STATUS_STATE, 2)] { b with aux := { conv := some (aConv 1 0 1) } }
    (s.auxState = 2 ∧ convF (aConv 1 0 1) Reg.AUX_Rr_CFG_REV ≠ 0, gives (.integrationEnd 50 1000 (-1) 0) s fun u => u.auxState = 3),
  fun b => let s := stat [(Reg.AUX_STATUS_STATE, 4)] { b with aux := { conv := some (aConv 1 0 1) } }
    (s.auxState = 4, gives (.integrationEnd 50 90000000000 1 0) s fun u => u.auxState = 5 ∧
      (u.aux.conv.map fun d => (d.cA, d.cB, d.end_)) = some (300, max (-8388607) (min 8388607 (auxCode s (aConv 1 0 1) 90000000000 1)), 50)),
  fun b => let s := stat [(Reg.AUX_STATUS_STATE, 3)] { b with aux := { conv := some (aConv 1 0 1) } }
    (s.auxState = 3, gives (.dwellEnd 60) s fun u => u.auxState = 4 ∧ u.aux.conv = some { aConv 1 0 1 with startB := 60 }),
  fun b => let s := stat [(Reg.AUX_STATUS_STATE, 5)] { b with aux := { conv := some (aConv 7 1 1) } }
    (s.auxState = 5, gives (.result 60) s fun u => u.aux.conv = none ∧ u.st (Reg.AUX_RESr_SEQ.ix 7) = (s.st (Reg.AUX_RESr_SEQ.ix 7) + 1) % 2 ^ 32 ∧
      u.st (Reg.AUX_RESr_RAW.ix 7) = ux Reg.AUX_RESr_RAW.width (auxRaw (aConv 7 1 1)) ∧ u.st (Reg.AUX_RESr_META.ix 7) % 4 = 3 ∧
      u.st2 (Reg.AUX_RESr_END_LO.ix 7) (Reg.AUX_RESr_END_HI.ix 7) = 77 ∧ raised u 0x031 7 ∧ u.auxState = 1),
  fun b => let s := stat [(Reg.AUX_STATUS_STATE, 6)] b
    (s.auxState = 6, gives (.scanGapEnd 60) s fun u => u.auxState = 1 ∧ u.aux = s.aux),
  fun b => let s := stat [(Reg.AUX_RESr_META.ix 3, 0x12347)] b
    (s.reaches .s0 0x031 = true, gives (.auxResultRead .s0 3) s fun u => u.req.data.toNat = s.st (Reg.AUX_RESr_VALUE.ix 3) ∧ u.st (Reg.AUX_RESr_META.ix 3) / 2 % 2 = 0 ∧
      (u.snapOf .s0 (regAddr 0x031 (Reg.AUX_RESr_META.ix 3).off)).map (·.toNat) = some (s.st (Reg.AUX_RESr_META.ix 3))),
  fun b => let r : Rec := { product := 0x0B, width := 0, body := [1, 2] }
    let s := { b with strm := { b.strm with streams := [{ sid := 5, slot := 1, sel := ⟨0x0B, 0, 0, 10, 1, 0⟩, opens := [(0, r)] }, { sid := 6, slot := 2, sel := ⟨0x0B, 0, 0, 10, 1, 0⟩ }] } }
    ((s.strm.streams.filter fun y => y.sel.product == 0x0B && (Amap.find 0 y.opens).isSome).length = 1, does execAuxRecordFlush s fun u => openRec u 5 0 = none ∧ u.aux = s.aux ∧ u.live = s.live)]
/-! ### zone cores: instructions -/

/-- Core 3 about to issue `i` at address 100, with the registers `l`. -/
def coreUp (i : Instr) (l : Amap Nat) (b : State) : State :=
  conf [(Reg.ZCn_BKPT_EN.pg 3, 0)] (stat [(Reg.ZCn_STATUS_STATE.pg 3, 1)]
    { b with zc := [(3, { regs := l ++ [(zPC, 100)], pm := [(100, ((zcEncode i).map (·.2)).getD 0)], xm := [(5, 77), (9, 66)], ym := [(7, 55)], pos := 10 })] })

/-- `issues`, decided. -/
def issuing (n : Core) (i : Instr) (s : State) : Bool :=
  canIssue s n && zcDecode n (Amap.get (s.core n).pm ((s.core n).reg zPC) 0) == some i && !placement (s.core n) i &&
    (s.core n).delay == 0 && !(s.core n).stepping && !(s.core n).haltReq

/-- `Writes` of core 3, decided; the flags ZNCV; SR as it was. -/
def wrote (s u : State) (l : List (Nat × Bool × Nat)) : Bool :=
  (u.core 3).regW == (seen 3 s).regW ++ l.map (fun w => ((s.core 3).pos, w.1, w.2.1, w.2.2 % 2 ^ 40)) &&
    (u.core 3).pos == (s.core 3).pos + 1 && u.coreState 3 == 1
def flags (u : State) (z m c v : Bool) : Bool := (u.core 3).sr 0 == z && (u.core 3).sr 1 == m && (u.core 3).sr 2 == c && (u.core 3).sr 3 == v
def srKept (s u : State) : Bool := (u.core 3).reg (zX 0) == (seen 3 s).reg (zX 0)
def moved (s u : State) (p : Nat) (k : Int) : Bool :=
  (u.core 3).reg (zP p) == stepPtr ((seen 3 s).reg (zP p)) ((seen 3 s).reg (zB p)) ((seen 3 s).reg (zL p)) k % 4096

/-- A witness of one instruction: it issues, and its step passes. -/
def ins (i : Instr) (l : Amap Nat) (p : State → State → Bool) (b : State) : Bool × Bool :=
  (issuing 3 i (coreUp i l b), gives i (coreUp i l b) (p (coreUp i l b)))

/-- The same with uncorrectable words at 5 of XM and 7 of YM. -/
def insBad (i : Instr) (l : Amap Nat) (p : State → State → Bool) (b : State) : Bool × Bool :=
  let s := (coreUp i l b).setCore 3 { (coreUp i l b).core 3 with bad := [5, 4103] }
  (issuing 3 (plain i) s, gives i s (p s))

/-- `MemFaults` of core 3, decided. -/
def memFaults (m : Nat) (u : State) : Bool :=
  u.coreState 3 == 4 && u.st (Reg.ZCn_STATUS_FAULT.pg 3) == 4 && u.st (Reg.ZCn_FAULT_INFO_ADDR.pg 3) == m % 4096 &&
    u.st (Reg.ZCn_FAULT_INFO_MEM.pg 3) == 1 + m / 4096 % 2 && raised u 0x043 1

/-- −5 in 40 bits, and the most negative number. -/
def m5 : Nat := 2 ^ 40 - 5
def least : Nat := 2 ^ 39

/-- A parallel word: A1, D0 high by D1 low signed by unsigned, both reads. -/
def aPar (f g : FieldSel) (sg : SignMode) : ParOps :=
  { acc := 1, sa := 0, fa := f, sb := 1, fb := g, sgn := sg, xe := true, xp := 1, xu := .inc, xd := 2, ye := true, yp := 2, yu := .dec, yd := 3 }

def witZoneArithmetic : List (State → Bool × Bool) := [
  ins (.add 3 2 0 1) [(0, m5), (1, 5)] fun s u => wrote s u [(2, false, 0)] && flags u true false true false,
  ins (.add 3 0 0 0) [(0, least)] fun s u => wrote s u [(0, false, 0)] && flags u true false true true,
  ins (.addi 3 2 0 0x7FFF) [(0, 1)] fun s u => wrote s u [(2, false, 0)] && flags u true false true false,
  ins (.sub 3 2 0 1) [(0, 3), (1, 5)] fun s u => wrote s u [(2, false, 2 ^ 40 - 2)] && flags u false true true false,
  ins (.cmp 3 0 1) [(0, least), (1, 1)] fun s u => wrote s u [] && flags u false false false true,
  ins (.cmpi 3 0 0x4000) [(0, 2 ^ 40 - 16384)] fun s u => wrote s u [] && flags u true false false false,
  ins (.abs 3 2 0) [(0, m5), (48, 4)] fun s u => wrote s u [(2, false, 5)] && flags u false false true false,
  ins (.abs 3 2 0) [(0, least)] fun s u => wrote s u [(2, false, least)] && flags u false true false true,
  ins (.neg 3 2 0) [(0, 5)] fun s u => wrote s u [(2, false, m5)] && flags u false true false false]

def witZoneLogicShiftsAndMoves : List (State → Bool × Bool) := [
  ins (.and 3 2 0 1) [(0, 12), (1, 10), (48, 12)] fun s u => wrote s u [(2, false, 8)] && flags u false false false false,
  ins (.or 3 2 0 1) [(0, 12), (1, 10)] fun s u => wrote s u [(2, false, 14)] && flags u false false false false,
  ins (.xor 3 2 0 1) [(0, 12), (1, 12)] fun s u => wrote s u [(2, false, 0)] && flags u true false false false,
  ins (.asr 3 2 0 39) [(0, m5)] fun s u => wrote s u [(2, false, 2 ^ 40 - 1)] && flags u false true false false,
  ins (.lsr 3 2 0 39) [(0, m5)] fun s u => wrote s u [(2, false, 1)] && flags u false false false false,
  ins (.lsl 3 2 0 39) [(0, m5)] fun s u => wrote s u [(2, false, least)] && flags u false true false false,
  ins (.lsl 3 2 0 40) [(0, m5)] fun _ u => match (u.core 3).regW with
    | [(10, 2, false, _)] => (u.core 3).pos == 11
    | _ => false,
  ins (.extu 3 2 0 4 36) [(0, m5)] fun s u => wrote s u [(2, false, 2 ^ 36 - 1)] && flags u false false false false,
  ins (.exts 3 2 0 4 2) [(0, 0x2F)] fun s u => wrote s u [(2, false, 2 ^ 40 - 2)] && flags u false true false false,
  ins (.movi 3 2 0x4000) [] fun s u => wrote s u [(2, false, 2 ^ 40 - 16384)] && srKept s u,
  ins (.orsh 3 2 0 0x7FFF) [(0, 1)] fun s u => wrote s u [(2, false, 0xFFFF)] && srKept s u,
  ins (.mov 3 2 0) [(0, m5)] fun s u => wrote s u [(2, false, m5)] && srKept s u]

def witZoneExtremes : List (State → Bool × Bool) := [
  ins (.min 3 2 0 1) [(0, m5), (1, 5)] fun s u => wrote s u [(2, false, m5)] && srKept s u,
  ins (.max 3 2 0 1) [(0, m5), (1, 5)] fun s u => wrote s u [(2, false, 5)] && srKept s u,
  ins (.minx 3 2 0 1) [(0, m5), (2, 5), (52, 65535)] fun s u => wrote s u [(2, false, m5), (1, false, 65535)] && srKept s u && (u.core 3).reg (zX 4) == 0,
  ins (.maxx 3 2 0 1) [(0, m5), (2, 5), (52, 7)] fun s u => wrote s u [] && srKept s u && (u.core 3).reg (zX 4) == 8,
  ins (.minxu 3 2 0 1) [(0, m5), (2, 5)] fun s u => wrote s u [] && srKept s u && (u.core 3).reg (zX 4) == 1,
  ins (.maxxu 3 2 0 1) [(0, m5), (2, 5), (52, 9)] fun s u => wrote s u [(2, false, m5), (1, false, 9)] && srKept s u && (u.core 3).reg (zX 4) == 10]

def witZoneAccumulators : List (State → Bool × Bool) := [
  ins (.mpy 3 (aPar .h .l .ss)) [(0, 0xFFFE000000), (1, 3), (9, 100), (17, 5), (22, 7), (25, 4), (33, 2)] fun s u =>
    wrote s u [(9, false, (seen 3 s).parMul (aPar .h .l .ss) |> ux 40), (2, true, 77), (7, true, 55)] && moved s u 1 1 && moved s u 6 (-1),
  ins (.mac 3 (aPar .l .m .uu)) [(0, 0xFFFE), (1, 3), (9, 100)] fun s u =>
    wrote s u [(9, false, 100 + ux 40 ((seen 3 s).parMul (aPar .l .m .uu))), (2, true, 0), (7, true, 0)] && (u.core 3).sr 4 == false,
  ins (.msu 3 (aPar .l .l .ss)) [(0, 1), (1, 1), (9, least)] fun s u =>
    wrote s u [(9, false, ux 40 (sx 40 least - (seen 3 s).parMul (aPar .l .l .ss))), (2, true, 0), (7, true, 0)] && (u.core 3).sr 4 == true,
  ins (.move 3 { aPar .h .h .ss with ye := false, acc := 0, sa := 0, sb := 0, yp := 0, yu := .none, yd := 0 }) [(17, 9)] fun s u =>
    wrote s u [(2, true, 66)] && srKept s u && moved s u 1 1,
  ins (.mova 3 2 0 4) [(8, m5)] fun s u => wrote s u [(2, false, 2 ^ 40 - 1)] && srKept s u,
  ins (.movta 3 1 0) [(0, m5)] fun s u => wrote s u [(9, false, m5)] && srKept s u,
  ins (.adda 3 1 0) [(0, 2 ^ 39 - 1), (9, 1)] fun s u => wrote s u [(9, false, least)] && (u.core 3).sr 4,
  ins (.clra 3 0) [(8, 5), (48, 16)] fun s u => wrote s u [(8, false, 0)] && srKept s u,
  ins (.sha 3 0 3) [(8, m5)] fun s u => wrote s u [(8, false, 2 ^ 40 - 1)] && srKept s u,
  ins (.sha 3 0 0x3F) [(8, m5)] fun s u => wrote s u [(8, false, 2 ^ 40 - 10)] && (u.core 3).sr 4 == false,
  insBad (.mpy 3 (aPar .h .l .ss)) [(17, 4), (22, 7)] fun _ u => memFaults 4103 u,
  insBad (.move 3 (aPar .h .l .ss)) [(17, 5), (22, 7)] fun _ u => memFaults 5 u]

def witZonePointersAndMemory : List (State → Bool × Bool) := [
  ins (.movp 3 2 0) [(0, 4097)] fun s u => wrote s u [] && (u.core 3).reg 18 == 1 && srKept s u,
  ins (.movb 3 2 0) [(0, 5)] fun s u => wrote s u [] && (u.core 3).reg 26 == 5 && srKept s u,
  ins (.movl 3 2 0) [(0, 5)] fun s u => wrote s u [] && (u.core 3).reg 34 == 5 && srKept s u,
  ins (.ldpi 3 2 0xFFF) [] fun s u => wrote s u [] && (u.core 3).reg 18 == 4095 && srKept s u,
  ins (.ldbi 3 2 7) [] fun s u => wrote s u [] && (u.core 3).reg 26 == 7 && srKept s u,
  ins (.ldli 3 2 7) [] fun s u => wrote s u [] && (u.core 3).reg 34 == 7 && srKept s u,
  ins (.addp 3 2 0xFFF) [(18, 4), (26, 4), (34, 8)] fun s u => wrote s u [] && moved s u 2 (-1) && (u.core 3).reg 18 == 11,
  ins (.rdp 3 2 1) [(17, 9)] fun s u => wrote s u [(2, false, 9)] && srKept s u,
  ins (.rdb 3 2 1) [(25, 9)] fun s u => wrote s u [(2, false, 9)] && srKept s u,
  ins (.rdl 3 2 1) [(33, 9)] fun s u => wrote s u [(2, false, 9)] && srKept s u,
  ins (.ld 3 2 1 .inc2 noSram) [(17, 5)] fun s u => wrote s u [(2, true, 77)] && moved s u 1 2 && (u.core 3).memW == (seen 3 s).memW,
  ins (.lda 3 1 4 .none) [(20, 7)] fun s u => wrote s u [(9, true, 55)] && moved s u 4 0 && (u.core 3).memW == (seen 3 s).memW,
  ins (.st 3 2 1 .dec) [(2, 99), (17, 5)] fun s u => wrote s u [] && moved s u 1 (-1) && (u.core 3).memW == (seen 3 s).memW ++ [(10, 5, 99)],
  ins (.sta 3 1 5 .inc) [(9, 98), (21, 5)] fun s u => wrote s u [] && moved s u 5 1 && (u.core 3).memW == (seen 3 s).memW ++ [(10, 4101, 98)],
  ins (.ldo 3 2 1 0xFFF) [(17, 6)] fun s u => wrote s u [(2, true, 77)] && srKept s u && (u.core 3).memW == (seen 3 s).memW,
  ins (.sto 3 2 1 3) [(2, 99), (17, 6)] fun s u => wrote s u [] && srKept s u && (u.core 3).memW == (seen 3 s).memW ++ [(10, 9, 99)],
  ins (.ldd 3 2 true 7) [] fun s u => wrote s u [(2, true, 55)] && srKept s u && (u.core 3).memW == (seen 3 s).memW,
  ins (.std 3 2 false 7) [(2, 99)] fun s u => wrote s u [] && srKept s u && (u.core 3).memW == (seen 3 s).memW ++ [(10, 7, 99)],
  insBad (.ld 3 2 1 .inc ⟨3, false⟩) [(17, 5)] fun _ u => memFaults 5 u,
  insBad (.ld 3 2 1 .inc ⟨0, true⟩) [(17, 6)] fun s u => memFaults 6 u && counts Reg.SYS_SRAM_UE s u,
  insBad (.lda 3 1 4 .none) [(20, 7)] fun _ u => memFaults 4103 u,
  insBad (.ldo 3 2 1 0xFFF) [(17, 6)] fun _ u => memFaults 5 u,
  insBad (.ldd 3 2 true 7) [] fun _ u => memFaults 4103 u]

def witZonePortsAndSpecials : List (State → Bool × Bool) := [
  ins (.inp 3 2 0x50) [] fun s u => wrote s u [(2, true, 3)] && u.capt == s.capt,
  ins (.inp 3 2 0x60) [] fun s u => (portIn 3 0x60 s).isNone && u.coreState 3 == 4 && u.st (Reg.ZCn_STATUS_FAULT.pg 3) == 5 && raised u 0x043 1,
  ins (.out 3 2 0x21) [(2, 44)] fun s u => (u.core 3).segOff == 44 && (u.core 3).pos == 11 && u.icu == s.icu && u.capt == s.capt,
  ins (.out 3 2 0x02) [(2, 44)] fun s u => (portOut 3 2 0 s).isNone && u.coreState 3 == 4 && u.st (Reg.ZCn_STATUS_FAULT.pg 3) == 5 && raised u 0x043 1,
  ins (.movs 3 2 3) [(51, 0x123)] fun s u => wrote s u [(2, false, 0x123)],
  ins (.movsr 3 2 4) [(2, 0x12345)] fun s u => wrote s u [] && (u.core 3).reg (zX 4) == 0x2345 && (u.core 3).loopW == (seen 3 s).loopW,
  ins (.movsr 3 2 5) [(2, 0x12345)] fun s u => wrote s u [] && (u.core 3).loopW == (seen 3 s).loopW ++ [(10, 53, 0x2345)]


]
/-! ### zone cores: control, events and faults -/

/-- Core 3 in state `k` with the core `c`. -/
def coreIn (k : Nat) (c : ZCore) (b : State) : State := stat [(Reg.ZCn_STATUS_STATE.pg 3, k)] { b with zc := [(3, c)] }

/-- An event. -/
def anEvent : Event :=
  { seq := 7, zone := 2, lane := 0, trig := 50, decide := 60, mask := 3, primary := 1, eflags := 0, fslot := 4, value := -5, width := 9, arg := 8, flags := 0 }

/-- Private source 0 of core 3's target is pending and asks for it. -/
def asked (b : State) : State :=
  conf [((Reg.ICUTt_PRIV_PRIOj.pg 5).ix 0, 5), (Reg.ICUTt_PRIV_EN.pg 5, 1), (Reg.ICUTt_THRESH.pg 5, 0)] { b with icu := { targets := [(5, { edges := 1 })] } }

def witZoneControl : List (State → Bool × Bool) := [
  ins (.nop 3) [] fun s u => wrote s u [] && srKept s u && (u.core 3).reg zPC == 101 && (u.core 3).delay == 0,
  ins (.br 3 .eq 0x1FFF) [(48, 1)] fun s u => wrote s u [] && (u.core 3).delay == 2 && (u.core 3).target == some 0x1FFF,
  ins (.br 3 .lt 5) [(48, 10)] fun s u => wrote s u [] && (u.core 3).delay == 2 && (u.core 3).target == none,
  ins (.call 3 5) [] fun s u => wrote s u [] && (u.core 3).delay == 2 && (u.core 3).target == some 5 && (u.core 3).reg (zX 3) == 103,
  ins (.ret 3 .always) [(51, 77)] fun s u => wrote s u [] && (u.core 3).delay == 2 && (u.core 3).target == some 77,
  ins (.jmpr 3 2) [(2, 8193)] fun s u => wrote s u [] && (u.core 3).delay == 2 && (u.core 3).target == some 1,
  ins (.rti 3) [(49, 0x13), (50, 44)] fun s u => wrote s u [] && (u.core 3).delay == 2 && (u.core 3).target == some 44 && (u.core 3).rti == some 0x13,
  ins (.loopi 3 0x1FFF 200) [] fun s u => !(s.core 3).sr 6 && wrote s u [] && (u.core 3).sr 6 && (u.core 3).reg (zX 5) == 0x1FFF && (u.core 3).reg (zX 6) == 101 && (u.core 3).reg (zX 7) == 200,
  ins (.loopr 3 2 200) [(2, 65536)] fun s u => wrote s u [] && (u.core 3).reg zPC == 201 && !(u.core 3).sr 6,
  ins (.loopr 3 2 0x1FFF) [(2, 65537)] fun s u => wrote s u [] && (u.core 3).reg zPC == 101 && (u.core 3).sr 6 && (u.core 3).reg (zX 5) == 1,
  ins (.loopi 3 4 200) [(48, 0xC0)] fun _ u => u.coreState 3 == 4 && u.st (Reg.ZCn_STATUS_FAULT.pg 3) == 3,
  ins (.brklp 3) [(48, 0xC0)] fun s u => wrote s u [] && !(u.core 3).sr 7 && (u.core 3).sr 6,
  ins (.brklp 3) [(48, 0x40)] fun s u => wrote s u [] && !(u.core 3).sr 7 && !(u.core 3).sr 6,
  fun b => ins (.wait 3) [] (fun s u => (icuRequest s 5 == false) && u.coreState 3 == 2) { b with icu := {}, live := [] },
  fun b => ins (.wait 3) [] (fun s u => (icuRequest s 5 == true) && wrote s u []) (asked b),
  ins (.halt 3) [] fun _ u => u.coreState 3 == 3 && raised u 0x043 0,
  ins (.setie 3 true) [] fun s u => wrote s u [] && (u.core 3).sr 5,
  ins (.clrv 3) [(48, 16)] fun s u => wrote s u [] && !(u.core 3).sr 4]

def witZoneStopsAndStarts : List (State → Bool × Bool) := [
  fun b => let s := conf [(Reg.ZCn_BKPT_EN.pg 3, 0)] (coreIn 1 { regs := [(zPC, 4)], pm := [(4, 0x40000000)] } b)
    (canIssue s 3 = true ∧ Amap.get (s.core 3).pm ((s.core 3).reg zPC) 0 = 0x40000000 ∧ zcDecode 3 0x40000000 = none, does (execIllegalInstruction 3 0x40000000) s fun u =>
      u.coreState 3 = 4 ∧ u.st (Reg.ZCn_STATUS_FAULT.pg 3) = 1 ∧ raised u 0x043 1),
  fun b => let s := conf [(Reg.ZCn_VECTOR.pg 3, 0x40)] (coreIn 2 { regs := [(zX 0, 0x21), (zPC, 9)], pos := 4 } (asked b))
    (s.coreState 3 = 2 ∧ (s.core 3).sr 5 = true ∧ (s.core 3).delay = 0 ∧ icuRequest s 5 = true, gives (.zcInterrupt 3) s fun u => u.coreState 3 = 1 ∧
      (u.core 3).reg zPC = 0x40 ∧ (u.core 3).reg (zX 2) = 9 ∧ (u.core 3).reg (zX 1) = 0x21 ∧ (u.core 3).sr 5 = false ∧ (u.core 3).sr 8 = true),
  fun b => let s := conf [(Reg.ZCn_BKPT_EN.pg 3, 1), (Reg.ZCn_BKPT_ADDR.pg 3, 9)] (coreIn 1 { regs := [(zPC, 9)] } b)
    (s.coreState 3 = 1 ∧ s.lv (Reg.ZCn_BKPT_EN.pg 3) ≠ 0 ∧ s.lv (Reg.ZCn_BKPT_ADDR.pg 3) = (s.core 3).reg zPC, gives (.bkptHit 3) s fun u =>
      u.coreState 3 = 3 ∧ u.st (Reg.ZCn_STATUS_BKPT_HIT.pg 3) = 1 ∧ raised u 0x043 0),
  fun b => let s := conf [(Reg.ZCn_BKPT_EN.pg 3, 1), (Reg.ZCn_BKPT_ADDR.pg 3, 9)] (coreIn 2 { regs := [(zPC, 9), (48, 1)] } (asked b))
    (s.coreState 3 = 2 ∧ icuRequest s 5 = true ∧ (s.core 3).sr 5 = false ∧ s.lv (Reg.ZCn_BKPT_EN.pg 3) ≠ 0 ∧ s.lv (Reg.ZCn_BKPT_ADDR.pg 3) = (s.core 3).reg zPC,
     gives (.bkptHit 3) s fun u => u.coreState 3 = 3 ∧ u.st (Reg.ZCn_STATUS_BKPT_HIT.pg 3) = 1),
  fun b => let s := conf [(Reg.ZCn_ENTRY.pg 3, 0x1FFF)] (coreIn 0 {} b)
    (s.reaches .s0 0x043 = true ∧ s.coreState 3 = 0, gives (.zcStart .s0 3) s fun u => u.coreState 3 = 1 ∧ (u.core 3).reg zPC = 0x1FFF),
  fun b => let s := coreIn 3 { pos := 4 } b
    (s.reaches .s0 0x043 = true ∧ s.coreState 3 = 3, gives (.zcStart .s0 3) s (fun u => u.coreState 3 = 1 ∧ u.zc = s.zc) &&
      gives (.zcStep .s0 3) s fun u => u.coreState 3 = 1 ∧ (u.core 3).stepping = true),
  fun b => let s := coreIn 1 { pos := 4 } b
    (s.reaches .s0 0x043 = true ∧ s.coreState 3 = 1 ∧ (s.core 3).delay = 0, gives (.haltReq .s0 3) s fun u => u.coreState 3 = 3 ∧ raised u 0x043 0),
  fun b => let s := coreIn 1 { delay := 1 } b
    (s.reaches .s0 0x043 = true ∧ s.coreState 3 = 1 ∧ (s.core 3).delay ≠ 0, gives (.haltReq .s0 3) s fun u => u.coreState 3 = 1 ∧ (u.core 3).haltReq = true),
  fun b => let s := coreIn 4 {} b
    (s.reaches .s0 0x043 = true ∧ s.coreState 3 = 4, gives (.clrFault .s0 3) s fun u => u.coreState 3 = 3 ∧ raised u 0x043 0)]


def witZoneEventsCopiesAndWindow : List (State → Bool × Bool) := [
  fun b => let s := coreIn 1 { evq := [anEvent, { anEvent with seq := 8 }] } b
    ((s.core 3).evq = [anEvent, { anEvent with seq := 8 }], gives (.evqPop 3) s fun u => (u.core 3).evq = [{ anEvent with seq := 8 }] ∧ (u.core 3).window = some anEvent),
  fun b => let x : SegCopy := { seg := 2, mode := 1, off := 64, stride := 1, cnt := 2, dst := 5, sh := 0 }
    let s := conf [(Reg.CAPT_SEG_SIZE, 12)] (coreIn 1 { segId := 0x30002, segOff := 64, segStride := 1, segCnt := 2, segDst := 5 } { b with capt := { segs := [(2, { st := 1, gen := 3, held := 50, width := 4, count := 4 })] }, regions := [(3, (0, 10))] })
    ((s.core 3).copy = none ∧ copyCheck s x (s.core 3).segId = 0, gives (.segGo 3 1) s fun u => (u.core 3).copy = some x ∧ (u.core 3).result = 0),
  fun b => let x : SegCopy := { seg := 2, mode := 0, off := 0, stride := 1, cnt := 0, dst := 5, sh := 1 }
    let s := conf [(Reg.CAPT_SEG_SIZE, 12)] (coreIn 1 { segId := 2, segStride := 1, segDst := 5 } b)
    ((s.core 3).copy = none ∧ copyCheck s x (s.core 3).segId = 3, gives (.segGo 3 0x100) s fun u => (u.core 3).copy = none ∧ (u.core 3).result = 3),
  fun b => let x : SegCopy := { seg := 2, mode := 1, off := 64, stride := 1, cnt := 2, dst := 5, sh := 0 }
    let s := conf [(Reg.CAPT_SEG_SIZE, 12)] (coreIn 1 { copy := some x, xm := [(5, 9)] } b)
    ((s.core 3).copy = some x, gives (.segCopyDone 3 true) s (fun u => (u.core 3).copy = none ∧ (u.tgt 5).edges / 2 % 2 = 1 ∧ (u.core 3).result = 4 ∧ (u.core 3).xm = [(5, 9)] ∧ (u.core 3).ym = []) &&
      gives (.segCopyDone 3 false) s (fun u => (u.core 3).copy = none ∧ (u.tgt 5).edges / 2 % 2 = 1)),
  fun b => let s := conf [(Reg.CAPT_SEG_SIZE, 12)] { b with capt := { segs := [(2, { st := 2, gen := 3, hold := 7, core := 3 })] }, zc := [], regions := [(3, (0, 10))] }
    (copying s 2 = false ∧ 0x30002 % 65536 < segCount s ∧ (s.seg 2).hold / 2 % 2 = 1, gives (.segRel 3 0x30002) s fun u => (u.seg 2).hold = 5),
  fun b => let s := conf [(Reg.CAPT_SEG_SIZE, 12)] { b with capt := { segs := [(2, { st := 2, gen := 3, hold := 7, core := 3, owed := 1 })] }, zc := [(1, { copy := some ⟨2, 0, 0, 1, 1, 0, 0⟩ })], regions := [(3, (0, 10))] }
    (copying s 2 = true ∧ 2 < segCount s ∧ (s.seg 2).hold / 2 % 2 = 1, gives (.segRel 3 0x30002) s fun u => (u.seg 2).hold = 7 ∧ (u.seg 2).owed = 3),
  fun b => let s := conf [(Reg.CAPT_SEG_SIZE, 12)] { b with capt := { segs := [(2, { st := 2, gen := 3, hold := 5, core := 3 })] }, regions := [(3, (0, 10))] }
    (2 < segCount s ∧ (s.seg 2).hold / 2 % 2 = 0, gives (.segRel 3 0x30002) s fun u => u.capt = s.capt ∧ counts (Reg.ZCn_REL_REJECTS.pg 3) s u ∧ raised u 0x043 4),
  fun b => let s := coreIn 1 { window := some anEvent, cycles := 66 } b
    ((s.core 3).vdAt = none, gives (.vdPost 3 9) s fun u => counts (Reg.ZCn_VERDICTS.pg 3) s u ∧ (u.core 3).vdAt = some (66, 9)),
  fun b => let s := coreIn 1 { vdAt := some (5, 100), cycles := 68 } b
    ((s.core 3).vdAt = some (5, 100) ∧ (s.core 3).cycles < 5 + 64 ∧ tDiff 10339 100 < 10240, gives (.vdPost 3 10339) s fun u =>
      counts (Reg.ZCn_VD_DROPS.pg 3) s u ∧ raised u 0x043 5 ∧ u.strm = s.strm ∧ u.core 3 = s.core 3),
  fun b => let s := coreIn 1 { tmrHi := 1 } b
    (tBefore (BitVec.ofNat 64 0x100000004) (BitVec.ofNat 64 0x100000005) = true, gives (.tmrCommit 3 (BitVec.ofNat 64 0x100000004) 5) s (fun u => (u.core 3).tmr = some (BitVec.ofNat 64 0x100000005) ∧ u.icu = s.icu) &&
      gives (.tmrCommit 3 (BitVec.ofNat 64 0x100000005) 5) s (fun u => (u.core 3).tmr = none ∧ (u.tgt 5).edges / 8 % 2 = 1)),
  fun b => let s := coreIn 1 { tmr := some 50 } b
    ((s.core 3).tmr = some 50 ∧ tBefore 50 50 = false, gives (.zcTimer 3 50) s fun u => (u.core 3).tmr = none ∧ (u.tgt 5).edges / 8 % 2 = 1),
  fun b => let s := (coreIn 4 {} b).setWinIndex .s0 0x043 8191
    (s.reaches .s0 0x043 = true ∧ s.winIndex .s0 0x043 / 65536 % 4 = 0 ∧ s.coreState 3 = 4, gives (.zcMemWrite .s0 3 0xABCD1234) s fun u =>
      Amap.find 8191 (u.core 3).pm = some 0xABCD1234 ∧ u.winIndex .s0 0x043 = 0),
  fun b => let s := (coreIn 1 {} b).setWinIndex .s0 0x043 8191
    (s.reaches .s0 0x043 = true ∧ s.winIndex .s0 0x043 / 65536 % 4 = 0 ∧ s.coreState 3 = 1, gives (.zcMemWrite .s0 3 0xABCD1234) s fun u =>
      u.zc = s.zc ∧ counts (Reg.ZCn_LOAD_REJECTS.pg 3) s u ∧ raised u 0x043 6)]
/-! ### stream codec -/

/-- A record of 4 points of 2 bytes, ready in slot 1, and its job. -/
def aRec (seq : Nat) : Ready :=
  { slot := 1, seq := seq, at_ := 5, rec_ := { product := 1, width := 1, sid := 5, pointCount := 4, frameCount := 1, body := [1, 0, 2, 0, 3, 0, 4, 0] } }
def aJob (seq : Nat) (pass : Bool) : CodeJob := { ready := aRec seq, no := 3, pred := 4, auto := true, pass := pass, reset := false, start := {} }

/-- Slot 1 bound to a stream with the engines `l`. -/
def codec (l : Amap Engine) (c : Ctx) (r : List Ready) (b : State) : State :=
  { b with regions := [(4, (100, 64)), (5, (200, 4))], cmp := { ready := r, slots := [(1, c)], engines := l, takes := 4 }, poison := []
           strm := { b.strm with streams := [{ sid := 5, slot := 1, sel := ⟨1, 0, 0, 4, 1, 0⟩ }], subs := [] } }

def witCompressEnginesCode : List (State → Bool × Bool) := [
  fun b => let s := codec [] { bound := true, sid := 5, pred := 2, fresh := false } [aRec 9, aRec 10] b
    ((s.engine 2).phase = 0 ∧ pickReady s = some (aRec 9) ∧ (s.ctx 1).held = none, gives (.cmpTake 2) s fun u => (u.engine 2).phase = 1 ∧
      (u.cmp.ready.all fun x => !(x.slot == 1 && x.seq == 9)) = true ∧
      ((u.engine 2).job.any fun j => j.ready == aRec 9 && j.pass == false && j.pred == 2 && j.reset == wantsReset (s.ctx 1) (aRec 9).rec_) = true),
  fun b => let s := codec [(2, { phase := 1, job := some (aJob 9 false) })] { bound := true, sid := 5 } [] b
    ((s.engine 2).phase = 1 ∧ (s.engine 2).job = some (aJob 9 false) ∧ ctxBad s 1 = false, gives (.cmpRestoreDone 2 false) s fun u =>
      (u.engine 2).phase = 2 ∧ (u.engine 2).job = some (aJob 9 false)),
  fun b => let s := codec [(2, { phase := 1, job := some (aJob 9 false), store := some 0 })] { bound := true, sid := 5 } [] b
    ((s.engine 2).phase = 1 ∧ (s.engine 2).store ≠ some 1, gives (.cmpRestoreDone 2 true) s fun u => (u.engine 2).phase = 2 ∧ raised u 0x080 2 ∧
      ((u.engine 2).job.any fun k => k.ready == aRec 9 && k.reset) = true),
  fun b => let s := codec [(2, { phase := 2, job := some (aJob 9 true) })] { bound := true, sid := 5, quota := 4 } [] b
    ((s.engine 2).phase = 2 ∧ (s.engine 2).job = some (aJob 9 true), gives (.cmpCodeDone 2 noSram) s fun u => (u.engine 2).phase = 3 ∧
      (u.engine 2).job = some (aJob 9 true) ∧ (counts Reg.CMP_RECORDS s u && (u.ctx 1).lastSeq == 9)),
  fun b => let s := codec [(2, { phase := 2, job := some (aJob 9 false) })] { bound := true, sid := 5, quota := 0 } [] b
    ((s.engine 2).phase = 2 ∧ (s.engine 2).job = some (aJob 9 false), gives (.cmpCodeDone 2 noSram) s fun u => (u.engine 2).phase = 3 ∧
      (u.engine 2).job = some (aJob 9 false) ∧ ((counts Reg.CMP_RECORDS s u && (u.ctx 1).lastSeq == 9) || (u.ctx 1).paused)),
  fun b => let j := { aJob 9 true with ready := { aRec 9 with rec_ := { (aRec 9).rec_ with pointCount := 0, body := [] } } }; let s := codec [(2, { phase := 2, job := some j })] { bound := true, sid := 5, quota := 4 } [] b
    ((s.engine 2).phase = 2 ∧ (s.engine 2).job = some j, gives (.cmpCodeDone 2 ⟨0, true⟩) s fun u => (u.engine 2).phase = 3 ∧
      (u.engine 2).job = some j ∧ counts Reg.SYS_SRAM_UE s u ∧ ((counts Reg.CMP_RECORDS s u && (u.ctx 1).lastSeq == 9) || (u.ctx 1).paused)),
  fun b => let s := codec [(2, { phase := 3, job := some (aJob 9 false) })] { bound := true, sid := 5, lastSeq := 9 } [] b
    ((s.engine 2).phase = 3 ∧ (s.engine 2).job = some (aJob 9 false) ∧ 1 < slotCount s ∧ slotBytes (s.ctx 1) ≤ 262144, gives (.cmpSaveDone 2) s fun u =>
      u.engine 2 = { phase := 0, job := none, store := some 1 } ∧ (u.ctx 1).saved = true ∧ memRead u ((regionBytes s 5).1 + 1468416) 256 = ctxHeader (s.ctx 1)),
  fun b => let s := codec [] { bound := true, sid := 5, quota := 4, paused := true, held := some (aJob 9 false) } [aRec 10] b
    ((s.ctx 1).held = some (aJob 9 false) ∧ (s.ctx 1).paused = true ∧ linkAvailable s 1 = true, gives (.chainLinkAvailable 1) s fun u =>
      u.cmp.ready = [{ aRec 9 with at_ := s.time }, aRec 10] ∧ (u.ctx 1).paused = false ∧ (u.ctx 1).held = some (aJob 9 false) ∧ (u.ctx 1).gapPending = true),
  fun b => let s := codec [] { bound := true, sid := 5, quota := 1, bufs := [3], paused := true, held := some (aJob 9 false) } [aRec 10] b
    ((s.ctx 1).held = some (aJob 9 false) ∧ (s.ctx 1).paused = true ∧ linkAvailable s 1 = false, gives (.abandoned 1) s fun u =>
      (u.ctx 1).paused = false ∧ (u.ctx 1).held = none ∧ (u.ctx 1).resetPending = true ∧
      (u.cmp.ready.any fun x => x.slot == 1 && x.seq == 10 && x.rec_.flags == 0x40 ||| (aRec 10).rec_.flags) = true ∧ counts Reg.CMP_ABANDONED s u ∧ raised u 0x080 1),
  fun b => let s := codec [] { bound := true, sid := 5, quota := 1, bufs := [3], paused := true, held := some (aJob 9 false) } [] b
    ((s.ctx 1).held = some (aJob 9 false) ∧ (s.ctx 1).paused = true ∧ linkAvailable s 1 = false, gives (.abandoned 1) s fun u =>
      (u.ctx 1).gapPending = true ∧ counts Reg.CMP_ABANDONED s u),
  fun b => let s := codec [] { bound := true, sid := 5, paused := true } [] b
    ((s.ctx 1).paused = true, gives (.pauseDrop 1) s fun u => counts Reg.CMP_PAUSE_DROPS s u ∧ (u.ctx 1).gapPending = true ∧ (u.ctx 1).resetPending = true),
  fun b => let s := b.setWinIndex .s0 0x080 1023
    (s.reaches .s0 0x080 = true ∧ ctxIndex s .s0 = 1023, gives (.ctxReset .s0 1) s (fun u => (u.ctx 1023).resetPending = true) &&
      gives (.ctxCfgWrite .s0 0x051B0000) s (fun u => (u.ctx 1023).pass = true ∧ (u.ctx 1023).auto = true ∧ (u.ctx 1023).resync = 5 ∧ (u.ctx 1023).pred = 3 ∧ (u.ctx 1023).bufs = (s.ctx 1023).bufs)),
  fun b => let s := b.setWinIndex .s0 0x080 1023
    (s.reaches .s0 0x080 = true, gives (.ctxCfgWrite .s0 0x00070000) s (fun u => (u.ctx 1023).pass = false ∧ (u.ctx 1023).auto = false ∧ (u.ctx 1023).resync = 0))]


/-- A plain record's header (R372) of stream 5, SEQ 6, with the payload `p`. -/
def aHeader (p : List Byte) : List Byte :=
  let h := leBytes 2 0x5A58 ++ leBytes 1 1 ++ leBytes 1 0x21 ++ leBytes 2 5 ++ leBytes 2 0 ++ leBytes 4 6 ++ leBytes 4 p.length ++ leBytes 8 77 ++
    leBytes 4 0 ++ leBytes 4 4 ++ leBytes 4 1 ++ leBytes 4 p.length ++ leBytes 4 (crc32c p)
  h ++ leBytes 4 (crc32c h)

/-- Decompress engine 1 running on host memory. -/
def dcmpUp (b : State) : State :=
  conf [(Reg.DCMP_Ee_CFG_SRC_SPACE.ix 1, 0), (Reg.DCMP_Ee_CFG_VERIFY_ONLY.ix 1, 0), (Reg.DCMP_Ee_SRC_LEN.ix 1, 56), (Reg.DCMP_Ee_DST_LEN.ix 1, 56)]
    (stat [(Reg.DCMP_Ee_STATUS_STATE.ix 1, 1), (Reg.DCMP_Ee_CONSUMED.ix 1, 0), (Reg.DCMP_Ee_PRODUCED.ix 1, 0)] b)

def witDecompressJobsRun : List (State → Bool × Bool) := [
  fun b => let s := conf [(Reg.DCMP_Ee_SRC_LEN.ix 1, 1), (Reg.DCMP_Ee_CFG_SRC_SPACE.ix 1, 0), (Reg.DCMP_Ee_CFG_CTX.ix 1, 7), (Reg.DCMP_Ee_CFG_KEEP.ix 1, 0)] (stat [(Reg.DCMP_Ee_STATUS_STATE.ix 1, 0)] { b with cmp := { slots := [(7, { sid := 3, saved := true, fresh := false, gapPending := true })] } })
    (s.reaches .s0 0x081 = true ∧ s.st (Reg.DCMP_Ee_STATUS_STATE.ix 1) = 0 ∧ (s.ctx 7).bound = false ∧ dcmpSource s 1 = true ∧ s.lv (Reg.DCMP_Ee_SRC_LEN.ix 1) ≠ 0, gives (.dcmpGo .s0 1) s fun u =>
      u.st (Reg.DCMP_Ee_STATUS_STATE.ix 1) = 1 ∧ u.st (Reg.DCMP_Ee_CONSUMED.ix 1) = 0 ∧ u.st (Reg.DCMP_Ee_PRODUCED.ix 1) = 0 ∧
      u.st (Reg.DCMP_Ee_RECORDS.ix 1) = 0 ∧ (u.ctx 7).coder = {} ∧ (u.ctx 7).fresh = true ∧ (u.ctx 7).saved = false),
  fun b => let s := conf [(Reg.DCMP_Ee_SRC_LEN.ix 1, 1), (Reg.DCMP_Ee_CFG_SRC_SPACE.ix 1, 1), (Reg.DCMP_Ee_CFG_CTX.ix 1, 7)] (stat [(Reg.DCMP_Ee_STATUS_STATE.ix 1, 0)] { b with regions := [], cmp := {} })
    (s.reaches .s0 0x081 = true ∧ s.st (Reg.DCMP_Ee_STATUS_STATE.ix 1) = 0 ∧ dcmpSource s 1 = false, gives (.dcmpGo .s0 1) s fun u =>
      u.st (Reg.DCMP_Ee_STATUS_STATE.ix 1) = 0 ∧ raised u 0x081 6 ∧ u.cmp = s.cmp),
  fun b => let s := conf [(Reg.DCMP_Ee_CFG_CTX.ix 1, 7)] (stat [(Reg.DCMP_Ee_STATUS_STATE.ix 1, 0)] { b with cmp := { slots := [(7, { bound := true })] } })
    (s.reaches .s0 0x081 = true ∧ s.st (Reg.DCMP_Ee_STATUS_STATE.ix 1) = 0 ∧ (s.ctx 7).bound = true, gives (.dcmpGo .s0 1) s fun u =>
      u.st (Reg.DCMP_Ee_STATUS_STATE.ix 1) = 0 ∧ raised u 0x081 6 ∧ u.cmp = s.cmp),
  fun b => let s := dcmpUp b
    (s.st (Reg.DCMP_Ee_STATUS_STATE.ix 1) = 1 ∧ s.st (Reg.DCMP_Ee_CONSUMED.ix 1) + 48 ≤ s.lv (Reg.DCMP_Ee_SRC_LEN.ix 1) ∧
       (match parseHeader (List.replicate 48 0) with | .error k => k == 1 | _ => false) = true, gives (.dcmpRecord 1 (List.replicate 56 0)) s fun u =>
      u.st (Reg.DCMP_Ee_STATUS_STATE.ix 1) = 2 ∧ u.st (Reg.DCMP_Ee_STATUS_ERR_CODE.ix 1) = 1 ∧ raised u 0x081 5),
  fun b => let p : List Byte := [1, 0, 2, 0, 3, 0, 4, 0]; let s := dcmpUp b
    (s.st (Reg.DCMP_Ee_STATUS_STATE.ix 1) = 1 ∧ (match parseHeader (aHeader p) with
        | .ok h => !h.compressed && h.product != 0xFF && h.payload == 8 && crc32c p == h.check && h.seq == 6 | _ => false) = true,
     gives (.dcmpRecord 1 (aHeader p ++ p)) s fun u => counts (Reg.DCMP_Ee_RECORDS.ix 1) s u ∧ u.st (Reg.DCMP_Ee_LAST_SEQ.ix 1) = 6 ∧
      u.st (Reg.DCMP_Ee_PRODUCED.ix 1) = 56 ∧ u.st (Reg.DCMP_Ee_CHECK_FAILS.ix 1) = s.st (Reg.DCMP_Ee_CHECK_FAILS.ix 1) ∧
      u.mem = s.mem),
  fun b => let s := stat [(Reg.DCMP_Ee_STATUS_STATE.ix 0, 1)] b
    (s.reaches .s0 0x081 = true ∧ s.st (Reg.DCMP_Ee_STATUS_STATE.ix 0) = 1, gives (.dcmpAbort .s0 0) s fun u => u.cmp.abort.get 0 = true ∧ u.status = s.status),
  fun b => let s := stat [(Reg.DCMP_Ee_STATUS_STATE.ix 0, 2)] b
    (s.reaches .s0 0x081 = true ∧ s.st (Reg.DCMP_Ee_STATUS_STATE.ix 0) = 2, gives (.dcmpClear .s0 0) s fun u => u.st (Reg.DCMP_Ee_STATUS_STATE.ix 0) = 0)]


/-! ### record memory -/

/-- Channel `0` as `c`, one channel of 16 GB. -/
def memUp (c : MemChan) (b : State) : State := { b with live := [], shadow := [], memc := ⟨c, {}⟩ }

/-- The request that a choice serves. -/
def pickReq (p : MemPick) : Option MemReq := match p with | .request r => some r | _ => none

def witMemoryTrainsAndFills : List (State → Bool × Bool) := [
  fun b => let s := stat [(Reg.SYS_MODE_STATUS_CUR, 1), (Reg.SYS_SUPPLY_BELOW, 0)] b
    (s.reaches .s0 0x089 = true ∧ s.mode = 1 ∧ s.st Reg.SYS_SUPPLY_BELOW = 0, gives (.memcTrain .s0 1) s fun u => (u.memc.get 1).training = true ∧ u.live = s.live ∧ u.mem = s.mem),
  fun b => let s := stat [(Reg.SYS_MODE_STATUS_CUR, 1), (Reg.SYS_SUPPLY_BELOW, 2)] b
    (s.reaches .s0 0x088 = true ∧ s.mode = 1 ∧ s.st Reg.SYS_SUPPLY_BELOW ≠ 0, gives (.memcTrain .s0 0) s fun u => u.memc = s.memc ∧
      u.st (Reg.MEMCn_STATUS_TRAIN_FAIL.pg 0) = 6 ∧ raised u 0x088 3),
  fun b => let s := memUp { training := true } { b with mem := [(3, 4), (2 ^ 33, 9), (2 ^ 34, 7)] }; let e := List.replicate 9 (200, 200)
    ((s.memc.get 0).training = true ∧ narrowEye (applyMemCfg 0 s) 0 e = none, gives (.trainDone 0 e 0 0) s fun u => u.st (Reg.MEMCn_STATUS_TRAINED.pg 0) = 1 ∧
      u.st (Reg.MEMCn_STATUS_TRAIN_FAIL.pg 0) = 0 ∧ (u.memc.get 0).filling = true ∧ u.st (Reg.MEMCn_STATUS_READY.pg 0) = 0 ∧
      u.st (Reg.MEMCn_CAPACITY.pg 0) = chanMb (applyMemCfg 0 s) 0 % 2 ^ 17 ∧ u.lv (Reg.MEMCn_CFG_SPEED.pg 0) = s.sh (Reg.MEMCn_CFG_SPEED.pg 0) % 4 ∧ memByte u.mem 3 = 0 ∧ memByte u.mem (2 ^ 33) = 0),
  fun b => let s := memUp { training := true } b
    ((s.memc.get 0).training = true, gives (.trainDone 0 [] 9 2) s fun u => u.st (Reg.MEMCn_STATUS_TRAINED.pg 0) = 0 ∧
      u.st (Reg.MEMCn_STATUS_TRAIN_FAIL.pg 0) = 1 ∧ u.mem = s.mem),
  fun b => let s := memUp { filling := true, scrub := 640 } b
    ((s.memc.get 0).filling = true, gives (.ready 0) s fun u => u.st (Reg.MEMCn_STATUS_READY.pg 0) = 1 ∧ (u.memc.get 0).filling = false ∧
      (u.memc.get 0).scrub = 0 ∧ raised u 0x088 2),
  fun b => let s := (stat [(Reg.SYS_MODE_STATUS_CUR, 1)] b).setWinIndex .s0 0x088 7
    (s.reaches .s0 0x088 = true ∧ s.winIndex .s0 0x088 % 8 = 7 ∧ s.mode ≤ 1, gives (.regionWrite .s0 true 0x40005) s fun u =>
      Amap.get u.regionShadow 7 (0, 0) = ((Amap.get s.regionShadow 7 (0, 0)).1, 5) ∧ u.regions = s.regions),
  fun b => let s := (stat [(Reg.SYS_MODE_STATUS_CUR, 1)] b).setWinIndex .s0 0x088 2
    (s.reaches .s0 0x088 = true ∧ s.winIndex .s0 0x088 % 8 = 2 ∧ s.mode ≤ 1, gives (.regionWrite .s0 false 0x40005) s fun u =>
      Amap.get u.regionShadow 2 (0, 0) = (5, (Amap.get s.regionShadow 2 (0, 0)).2) ∧ u.regions = s.regions),
  fun b => let s := stat [(Reg.SYS_MODE_STATUS_CUR, 2)] b
    (s.reaches .s0 0x088 = true ∧ 1 < s.mode, gives (.regionWrite .s0 true 5) s fun u => u.regionShadow = s.regionShadow ∧ raised u 0x088 6)]

def witMemoryServesRequests : List (State → Bool × Bool) := [
  fun b => let s := memUp { queue := List.replicate 63 { at_ := 1, rd := .slow, write := false, ra := 0 } } { b with mem := [(40, 1), (64, 2)] }
    ((chanOf s 33).1 = 0 ∧ 33 < fittedBytes s ∧ (s.memc.get 0).queue.length < 64, gives (.memcRequest 9 .capt true 33 [7, 8, 9]) s fun u =>
      (u.memc.get 0).queue = (s.memc.get 0).queue ++ [{ at_ := 9, rd := .capt, write := true, merge := true, ra := 33, len := 3 }] ∧
      memRead u 33 3 = [7, 8, 9] ∧ memByte u.mem 32 = memByte s.mem 32 ∧ memByte u.mem 36 = memByte s.mem 36 ∧ memByte u.mem 40 = 1),
  fun b => let r : MemReq := { at_ := 1, rd := .capt, write := false, ra := 4096 * 7 }
    let s := memUp { queue := [r], banks := [((reqBank (memUp {} b) 0 r).1, { row := some (reqBank (memUp {} b) 0 r).2.1 })] } b
    (((s.memc.get 0).queue.filter (·.write)).length ≤ 32 ∧ pickReq (memPick (advance 9 s) 0) = some r ∧ rowHit (advance 9 s) 0 r = true, gives (.memcIssue 0 9) s fun u =>
      (u.memc.get 0).queue = (s.memc.get 0).queue.erase r ∧ (u.memc.get 0).issued = (s.memc.get 0).issued ++ [r]),
  fun b => let r : MemReq := { at_ := 1, rd := .capt, write := true, ra := 4096 * 7 }
    let s := memUp { queue := [r] } b
    (pickReq (memPick (advance 9 s) 0) = some r ∧ ((s.memc.get 0).bank (reqBank (advance 9 s) 0 r).1).row = none, gives (.memcIssue 0 9) s fun u =>
      (u.memc.get 0).queue = (s.memc.get 0).queue ∧ ((u.memc.get 0).bank (reqBank (advance 9 s) 0 r).1).row = some (reqBank (advance 9 s) 0 r).2.1 ∧ u.free = s.free + 1),
  fun b => let s := memUp { owed := ⟨9, 0⟩ } b
    ((match memPick (advance 9 s) 0 with | .refresh 0 true => true | _ => false) = true, gives (.memcIssue 0 9) s fun u => (u.memc.get 0).owed.get 0 = 8 ∧
      u.out = .dram 0 "REF" 0 0 0 :: .dram 0 "PREA" 0 0 0 :: s.out ∧ counts (Reg.MEMCn_REF_FORCED.pg 0) s u),
  fun b => let s := memUp {} b
    (true, gives (.refreshDue 0 1) s fun u => (u.memc.get 0).owed.get 1 = 1 ∧ u.status = s.status ∧ u.mem = s.mem),
  fun b => let s := memUp { queue := [{ at_ := 1, rd := .capt, write := false, ra := 0 }, { at_ := 1, rd := .scrub, write := false, ra := 0 }] } b; let t : Time := 2 ^ 60
    ((promote 0 (fun r => (r.rd != .scrub || r.write) && decide (s.lv (Reg.MEMCn_SCHED_AGE_LIMIT.pg 0) * 128 < (tDiff t r.at_).toNat)) (advance t s)).isSome = true,
     gives (.agePromote 0 t) s (fun u => counts (Reg.MEMCn_PROMOTED.pg 0) s u ∧ u.mem = s.mem) &&
      gives (.scrubUrgent 0 t) s (fun u => counts (Reg.MEMCn_SCRUB_URGENT.pg 0) s u)),
  fun b => let s := stat [(Reg.MEMCn_STATUS_READY.pg 0, 1)] (memUp { scrub := chanMb (memUp {} b) 0 * 2 ^ 20 - 64 } b)
    (s.st (Reg.MEMCn_STATUS_READY.pg 0) ≠ 0 ∧ (s.memc.get 0).queue.length < 64, gives (.scrubRead 0 9) s fun u =>
      (u.memc.get 0).queue = [{ at_ := 9, rd := .scrub, write := false, ra := raOf s 0 (s.memc.get 0).scrub }] ∧ (u.memc.get 0).scrub = 0),
  fun b => let s := stat [(Reg.SYS_MODE_STATUS_CUR, 3)] b
    (s.mode = 3, gives (.zqShort 1) s fun u => u.out = .dram 1 "ZQCS" 0 0 0 :: s.out ∧ u.memc = s.memc),
  fun b => let r : MemReq := { at_ := 1, rd := .capt, write := false, ra := 160 }; let s := memUp { issued := [r, { r with ra := 0 }] } b
    let e := fun (beat : Fin 8) (pos : Fin 18) => (⟨beat, pos, 5⟩ : BurstError)
    ((s.memc.get 0).issued = [r, { r with ra := 0 }] ∧ unitsOf (badSymbols [e 4 17, e 5 17] 2) = [17] ∧ badSymbols [e 4 17, e 5 17] 1 = [] ∧
        badSymbols [e 4 3, e 4 17] 2 = [3, 17] ∧ (unitsOf (badSymbols [e 4 3, e 4 17] 2)).length = 2 ∧ badSymbols [⟨4, 3, 0⟩] 2 = [],
      gives (.readData 0 []) s (fun u => (u.memc.get 0).issued = [{ r with ra := 0 }] ∧ u.status = s.status ∧ u.poison = s.poison) &&
      gives (.readData 0 [e 4 17, e 5 17]) s (fun u => (u.memc.get 0).issued = [{ r with ra := 0 }] ∧ counts (Reg.MEMCn_CE.pg 0) s u ∧ raised u 0x088 0 ∧
        u.st (Reg.MEMCn_ERR_LAST_UE.pg 0) = 0 ∧ u.st (Reg.MEMCn_ERR_LAST_UNIT.pg 0) = 17 ∧ u.st (Reg.MEMCn_ERR_ADDR_LO.pg 0) = 160 ∧ u.poison = s.poison) &&
      gives (.readData 0 [e 4 3, e 4 17]) s (fun u => (u.memc.get 0).issued = [{ r with ra := 0 }] ∧ counts (Reg.MEMCn_UE.pg 0) s u ∧ raised u 0x088 1 ∧
        u.st (Reg.MEMCn_ERR_LAST_UE.pg 0) = 1 ∧ Amap.find 10 u.poison = some true ∧ u.mem = s.mem))]
/-! ### subscribers -/

/-- Control messages: by mailbox 0 and from an Ethernet sender, with a token. -/
def mbCtl (token : Word) : Ctl := ⟨.mailbox 0, token, 7, none⟩
def ethCtl (token : Word) : Ctl := ⟨.eth 1 0xFFFF0A000001 5000, token, 7, none⟩

/-- The stewards run their whole code and ask for no authentication; `l` is the subscriber table. -/
def served (l : Amap Sub) (b : State) : State :=
  conf [(Reg.STRM_CFG_AUTH_REQUIRE, 0), (Reg.STRM_LEASE_MAX, 60)] (stat [(Reg.MGMT_BOOT_STATUS_RESIDENT, 0), (Reg.SYS_STEWARD_LOAD_SHEDDING, 0)]
    { b with strm := { subs := l }, mbox := [], cmp := {} })

/-- `Served`, decided. -/
def servedOk (t : Time) (c : Ctl) (typ : Nat) (s : State) : Bool :=
  s.st Reg.MGMT_BOOT_STATUS_RESIDENT == 0 && (match c.path with
    | .eth _ _ _ => s.lv Reg.STRM_CFG_AUTH_REQUIRE == 0 && c.auth == none && storedReply s t c typ == none
    | _ => true)

/-- The message is answered where it came from. -/
def answered (c : Ctl) (s u : State) : Bool :=
  match c.path with
  | .mailbox f => (u.mb f).answer.isSome
  | .eth p a n => match (u.port p).stew.drop (s.port p).stew.length with
    | [.reply b m _] => b == a && m == n
    | _ => false

def witLeasesAndEntries : List (State → Bool × Bool) := [
  fun b => let s := served [] b; let t : Time := 1000
    (servedOk t (mbCtl 0) 1 s, gives (.hello t (mbCtl 0)) s fun u => answered (mbCtl 0) s u ∧ (u.mb 0).answer =
      some { token := 0, body := leBytes 1 1 ++ leBytes 1 0 ++ leBytes 2 (freeSubs s) ++ leBytes 2 60 ++ leBytes 2 0 ++ leBytes 8 1000 }),
  fun b => let s := served [] b
    (servedOk 9 (ethCtl 0) 1 s, gives (.hello 9 (ethCtl 0)) s fun u => answered (ethCtl 0) s u),
  fun b => let s := served [(3, { gen := 2, st := 2, path := .mailbox 0, granted := 5 })] b
    (servedOk 9 (mbCtl 0x20003) 5 s ∧ tokenEntry s (mbCtl 0x20003) = some 3, gives (.status 9 (mbCtl 0x20003)) s fun u => answered (mbCtl 0x20003) s u ∧
      (u.sub 3).expiry = 9 + BitVec.ofNat 64 (5 * duPerS) ∧ (u.sub 3).st = 2),
  fun b => let s := served [(3, { gen := 2, st := 2, path := .eth 1 5 6, granted := 5 })] b
    (servedOk 9 (ethCtl 0x20003) 3 s ∧ tokenEntry s (ethCtl 0x20003) = some 3, gives (.renew 9 (ethCtl 0x20003) 61) s fun u => answered (ethCtl 0x20003) s u ∧
      (u.sub 3).granted = 60 ∧ (u.sub 3).expiry = 9 + BitVec.ofNat 64 (60 * duPerS)),
  fun b => let s := served [(3, { gen := 2, st := 2, path := .mailbox 0, granted := 5 })] b
    (servedOk 9 (mbCtl 0x30003) 3 s ∧ tokenEntry s (mbCtl 0x30003) = none, gives (.renew 9 (mbCtl 0x30003) 61) s fun u => answered (mbCtl 0x30003) s u ∧ u.strm.subs = s.strm.subs),
  fun b => let s := served [(3, { gen := 2, st := 1, path := .mailbox 0, granted := 5 })] b
    (servedOk 9 (mbCtl 0x20003) 4 s ∧ tokenEntry s (mbCtl 0x20003) = some 3, gives (.unsubscribe 9 (mbCtl 0x20003)) s fun u => answered (mbCtl 0x20003) s u ∧
      (u.sub 3).st = 3 ∧ (u.sub 3).gen = 2),
  fun b => let s := stat [(Reg.SYS_MODE_STATUS_CUR, 3)] (served [(3, { gen := 2, st := 1, path := .mailbox 0, expiry := 50 })] b)
    (s.mode ≠ 5 ∧ (s.sub 3).st = 1, gives (.leaseExpiry 50 3) s (fun u => (u.sub 3).st = 3 ∧ counts Reg.STRM_EXPIRED s u ∧ raised u 0x090 2) &&
      gives (.leaseExpiry 49 3) s (fun u => u = advance 49 s)),
  fun b => let s := served [(3, { gen := 2, st := 3 }), (4, { st := 3, cur := some (0, 5) })] b
    ((s.sub 3).st = 3 ∧ (s.sub 3).cur = none ∧ (s.sub 4).st = 3 ∧ (s.sub 4).cur ≠ none, gives (.entryFree 3) s (fun u => u.sub 3 = { gen := 2 }) &&
      gives (.entryFree 4) s (fun u => u = s))]

def witAdmissionDecides : List (State → Bool × Bool) := [
  fun b => let s := conf [(Reg.STRM_CFG_EN, 0)] (served [] b); let c := mbCtl 0; let y : SubBody := ⟨30, 0, 0, 1024, 0, [⟨7, 0, 0, 0, 1, 0⟩]⟩
    (servedOk 9 c 2 s ∧ (admission (advance 9 s) c y).map (·.reason) = some 0x0C, gives (.subscribe 9 c y) s fun u =>
      u.st Reg.STRM_REFUSED = (s.st Reg.STRM_REFUSED + 1) % 2 ^ 32 ∧ u.st Reg.STRM_LAST_REFUSE_REASON = 0x0C ∧
      u.st Reg.STRM_LAST_REFUSE_PATH = 2 ∧ raised u 0x090 0 ∧ u.strm.streams = s.strm.streams ∧ u.cmp = s.cmp ∧
      (u.mb 0).answer = some { token := 0, body := subReply 0x0C 0xFF 0 0 0 [] }),
  fun b => let s := { served [] (ready [(Reg.STRM_CFG_EN, 1)] b) with regions := [(4, (100, 64)), (5, (200, 4))], regionShadow := [(4, (100, 64)), (5, (200, 4))] }
    let s := conf [(Reg.STRM_CFG_AUTH_REQUIRE, 0), (Reg.STRM_LEASE_MAX, 60), (Reg.STRM_CFG_EN, 1), (Reg.STRM_PCIE_BUDGET, 1000), (laneModeF 0, 5), (Reg.SHOTn_LENGTH.pg 0, 1000000)] s
    let c := mbCtl 0; let y : SubBody := ⟨30, 0, 1, 1024, 0, [⟨0x09, 0, 0, 1, 1, 0⟩, ⟨0x0A, 0, 0, 1, 1, 0⟩]⟩
    (servedOk 9 c 2 s ∧ (admission (advance 9 s) c y).isNone = true ∧ tokenEntry s c = none ∧ freeEntryIndex s = 0, gives (.subscribe 9 c y) s fun u =>
      (u.sub 0).st = 1 ∧ (u.sub 0).gen = 1 ∧ (u.sub 0).path = c.path ∧ (u.sub 0).body = y ∧ (u.sub 0).granted = 30 ∧
      (u.sub 0).expiry = 9 + BitVec.ofNat 64 (30 * duPerS) ∧ (u.sub 0).sels.length = 2 ∧ ((u.sub 0).sels.all fun x => x.wait && x.todo == []) = true ∧
      u.st (Reg.DMACHn_STATUS_BOUND.pg 1) = 1 ∧ ((u.mb 0).answer.map (·.token)) = some 65536),
  fun b => let x : Stream := { sid := 5, slot := 1, sel := ⟨7, 0, 0, 0, 1, 0⟩, resetDue := true }
    let s := { b with strm := { b.strm with streams := [x] } }
    (s.stream 5 = some x, gives (.joinHoldoffEnd 9 5) s fun u => (u.ctx 1).resetPending = true ∧
      ((u.stream 5).map fun y => (y.resetDue, y.sel)) = some (false, x.sel))]


/-! ### Ethernet and PTP -/

/-- Port 1 with link as `p`, every family bound. -/
def linkUpAs (p : Port) (b : State) : State :=
  stat [(Reg.ETHn_STATUS_LINK.pg 1, 1), (Reg.ETHn_STATUS_V4_BOUND.pg 1, 1), (Reg.ETHn_STATUS_V6_BOUND.pg 1, 0), (Reg.MGMT_BOOT_STATUS_RESIDENT, 0)]
    { b with strm := { b.strm with ports := ⟨{}, p⟩ }, twin := {} }

/-- A datagram of entry 3's flow. -/
def aGram : Dgram := { at_ := 5, bytes := [1, 2, 3], last := true, sel := 0, seq := 9 }

/-- Entry 3 with the record of SEQ 9 to deliver to an Ethernet sender. -/
def toDeliver (path : Path) (b : State) : State :=
  { b with strm := { b.strm with streams := [{ sid := 5, slot := 1, sel := ⟨7, 0, 0, 0, 1, 0⟩ }]
                                 subs := [(3, { st := 2, path := path, body := ⟨30, 0, 0, 256, 0, [⟨7, 0, 0, 0, 1, 0⟩]⟩, sels := [{ sid := 5, wait := false, todo := [9] }] })] }
           cmp := { slots := [(1, { bound := true, sid := 5, recs := [{ seq := 9, start := 0, opens := true, no := 1, done := 1, bytes := List.replicate 300 7 }] })] }
           poison := [] }

def witPortsSendAndReceive : List (State → Bool × Bool) := [
  fun b => let s := linkUpAs {} (toDeliver (.eth 1 0xFFFF0A000001 5000) b)
    (flowLead s 3 = 3 ∧ linked s 1 = true ∧ (s.sub 3).cur = none ∧ ((nextRec s 3).map fun x => (x.1, x.2.2.seq)) = some (0, 9), gives (.data 3 ⟨1, false⟩) s (fun u =>
      (u.sub 3).cur = some (0, 0) ∧ flowOf u 1 3 = dataGrams 256 5 9 0 s.time (List.replicate 300 7)) &&
      gives (.data 3 ⟨0, true⟩) s fun u => flowOf u 1 3 = flowOf s 1 3 ∧ counts Reg.SYS_SRAM_UE s u),
  fun b => let s := linkUpAs { events := [.sync, .delayReq], stew := [.ptp .announce] } b
    (linked s 1 = true ∧ (s.port 1).events = [.sync, .delayReq], gives (.ethTxFrame 1 9) s fun u => u.out = .ptp 1 .sync (s.on Reg.PTP_CFG_TRANSPORT) (wireOf s 1 false) :: s.out ∧ (u.port 1).events = [.delayReq] ∧
      (u.port 1).stew = [.ptp .announce] ∧ counts (Reg.ETHn_TX_FRAMES.pg 1) s u),
  fun b => let s := linkUpAs { stew := [.reply 5 6 [7], .answer .arp], flows := [(3, [aGram])] } b
    (linked s 1 = true ∧ (s.port 1).events = [], gives (.ethTxFrame 1 9) s fun u => u.out = .frame 1 5 6 [7] 47310 (wireOf s 1 false) :: s.out ∧ (u.port 1).stew = [.answer .arp] ∧
      (u.port 1).flows = [(3, [aGram])] ∧ counts (Reg.ETHn_TX_FRAMES.pg 1) s u),
  fun b => let s := conf [(Reg.ETHn_TX_AGE.pg 1, 1)] (linkUpAs { flows := [(3, [{ aGram with last := false }, aGram])] } b)
    (linked s 1 = true ∧ agedFlow s 1 (5 + 128001) = some 3, gives (.ethTxFrame 1 (5 + 128001)) s fun u => ((u.out.head?.any fun o => match o with | .frame 1 _ _ l 47311 _ => l == [1, 2, 3] | _ => false) = true) ∧
      flowOf u 1 3 = [aGram] ∧ counts (Reg.ETHn_TX_FRAMES.pg 1) s u ∧ counts (Reg.ETHn_TX_PROMOTED.pg 1) s u),
  fun b => let s := linkUpAs {} b
    (linked s 1 = true ∧ familyBound s 1 false = true ∧ familyBound s 1 (!isV4 5) = false ∧ s.st Reg.MGMT_BOOT_STATUS_RESIDENT = 0,
      gives (.ethRxFrame 1 9 .pause) s (fun u => counts (Reg.ETHn_PAUSE_RX.pg 1) s u ∧ u.strm = s.strm) &&
      gives (.ethRxFrame 1 9 .badFcs) s (fun u => counts (Reg.ETHn_RX_FCS_ERR.pg 1) s u ∧ u.strm = s.strm) &&
      gives (.ethRxFrame 1 9 .fecUncorr) s (fun u => counts (Reg.ETHn_FEC_UNCORR.pg 1) s u ∧ raised u 0x092 3) &&
      gives (.ethRxFrame 1 9 .other) s (fun u => counts (Reg.ETHn_RX_DROPPED.pg 1) s u ∧ u.strm = s.strm) &&
      gives (.ethRxFrame 1 9 .arp) s (fun u => (u.port 1).stew = (s.port 1).stew ++ [.answer .arp]) &&
      gives (.ethRxFrame 1 9 (.udp 0xFFFF0A000001 5 (List.replicate 15 1))) s (fun u => counts Reg.STRM_BAD_MSGS s u ∧ u.strm = s.strm) &&
      gives (.ethRxFrame 1 9 (.udp 5 5 [1])) s (fun u => counts (Reg.ETHn_RX_DROPPED.pg 1) s u ∧ u.strm = s.strm)),
  fun b => let s := stat [(Reg.ETHn_STATUS_LINK.pg 0, 0)] b
    (linked s 0 = false, gives (.ethRxFrame 0 9 .arp) s fun u => u = advance 9 s)]

def witLinksAddressesAndPtp : List (State → Bool × Bool) := [
  fun b => let s := conf [(Reg.ETHn_CFG_EN.pg 1, 1), (pageEnable 0x092, 1)] (stat [(Reg.ETHn_STATUS_LINK.pg 1, 0)] b)
    (s.lv (Reg.ETHn_CFG_EN.pg 1) ≠ 0 ∧ s.lv (pageEnable 0x092) ≠ 0 ∧ s.st (Reg.ETHn_STATUS_LINK.pg 1) = 0, gives (.linkUp 1) s fun u =>
      u.st (Reg.ETHn_STATUS_LINK.pg 1) = 1 ∧ raised u 0x092 0 ∧ u.live = s.live),
  fun b => let s := linkUpAs { stew := [.answer .arp], flows := [(3, [aGram])] } b
    (s.st (Reg.ETHn_STATUS_LINK.pg 1) ≠ 0, gives (.linkDown 1) s (fun u => u.st (Reg.ETHn_STATUS_LINK.pg 1) = 0 ∧ counts (Reg.ETHn_LINK_DOWNS.pg 1) s u ∧ raised u 0x092 1 ∧ u.live = s.live) &&
      gives (.addrBound 1 false false) s (fun u => u.st (Reg.ETHn_STATUS_V4_BOUND.pg 1) = 0 ∧ raised u 0x092 2) &&
      gives (.addrBound 1 true true) (conf [(Reg.ETHn_IP_CFG_V4.pg 1, 1), (Reg.ETHn_IP_CFG_V6.pg 1, 2)] s) (fun u => u.st (Reg.ETHn_STATUS_V6_BOUND.pg 1) = 1 ∧ raised u 0x092 2)),
  fun b => let s := linkUpAs { stew := [.answer .arp] } b
    (s.reaches .s0 0x092 = true ∧ s.st (Reg.ETHn_STATUS_LINK.pg 1) ≠ 0, gives (.ethCfgWrite .s0 1 0x040 1) s (fun u => u.st (Reg.ETHn_STATUS_LINK.pg 1) = 0 ∧
        u.lv (Reg.ETHn_CFG_EN.pg 1) = 1) &&
      gives (.ethCfgWrite .s0 1 0x040 1) (stat [(Reg.SYS_MODE_STATUS_CUR, 1)] s) (fun u => (u.port 1).txdis = false) &&
      gives (.ethCfgWrite .s0 1 0x040 2) (stat [(Reg.SYS_MODE_STATUS_CUR, 1)] s) (fun u => (u.port 1).txdis = true) &&
      gives (.ethCfgWrite .s0 1 0x044 0x14001) s (fun u => u.lv (Reg.ETHn_MTU.pg 1) = 1 ∧ u.status = s.status)),
  fun b => let s := conf [(Reg.PTP_CFG_EN, 1), (Reg.PTP_CFG_PORT, 1), (Reg.PTP_CFG_DISCIPLINE, 1), (Reg.PTP_CFG_ROLE, 2), (Reg.PTP_ASYM, 0)] (stat [(Reg.PTP_STATUS_STATE, 9)] (linkUpAs { events := [.sync] } b))
    (s.lv Reg.PTP_CFG_EN ≠ 0 ∧ s.st Reg.PTP_STATUS_STATE = 9 ∧ s.lv Reg.PTP_CFG_DISCIPLINE ≠ 0 ∧ 256000000 ≤ (-256000000 : Int).natAbs, gives (.ptpEventMessage .sync 9 (-256000000) 5) s (fun u =>
        u.stS Reg.PTP_OFFSET = -256000000 ∧ counts Reg.PTP_STEPS s u ∧ raised u 0x093 2) &&
      gives (.ptpEventMessage .delayReq 9 5000000000 5) s (fun u => u.stS Reg.PTP_OFFSET = satS 32 5000000000) &&
      gives (.ptpMessageSend .delayReq 9) s (fun u => (u.port 1).events = [.sync, .delayReq]) &&
      gives .announceTimeout s (fun u => u.st Reg.PTP_STATUS_STATE = 4 ∧ counts Reg.PTP_ANNOUNCE_TIMEOUTS s u ∧ raised u 0x093 1))]
/-! ### PCIe and DMA -/

/-- Channel 1 in a state and a mode, with its other fields and configuration. -/
def chanUp (st mode : Nat) (c : DmaChan) (sl cl : List (Fld × Nat)) (b : State) : State :=
  let b := { b with pcie := { b.pcie with chans := [(1, c)], asleep := [], d3 := [], l2 := false } }
  let l := [(Reg.DMACHn_CFG_MODE, mode), (Reg.DMACHn_CFG_DIR, 0), (Reg.DMACHn_CFG_RING_K, 12), (Reg.DMACHn_BASE_LO, 0x10000), (Reg.DMACHn_BASE_HI, 1),
    (Reg.DMACHn_WB_LO, 16), (Reg.DMACHn_WB_HI, 0), (Reg.DMACHn_MOD_COUNT, 4), (Reg.DMACHn_MOD_TIME, 9), (Reg.DMACHn_RP, 0)] ++ cl
  let m := [(Reg.DMACHn_STATUS_STATE, st), (Reg.DMACHn_STATUS_WAITING_RP, 0), (Reg.DMACHn_STATUS_WAITING_DESC, 0), (Reg.DMACHn_STATUS_WAITING_DATA, 0),
    (Reg.DMACHn_WP, 0), (Reg.DMACHn_HELD, 0), (Reg.DMACHn_DESC_LO, 0x40), (Reg.DMACHn_DESC_HI, 0)] ++ sl
  stat [(Reg.SYS_MODE_STATUS_CUR, 3)] (conf (l.map fun e => (e.1.pg 1, e.2)) (stat (m.map fun e => (e.1.pg 1, e.2)) b))

/-- 32 bytes of a descriptor: ADDR, LEN, CONTROL, NEXT. -/
def descBytes (a n c x : Nat) : List Byte := leBytes 8 a ++ leBytes 4 n ++ leBytes 4 c ++ leBytes 8 x ++ leBytes 8 0

def witChannelsStartAndStop : List (State → Bool × Bool) := [
  fun b => let s := chanUp 0 1 {} [] [] b
    (s.reaches .s0 0x0C1 = true ∧ s.chanState 1 = 0 ∧ dmaLegal s 1 = true, gives (.dmaGo .s0 1) s fun u =>
      u.chanState 1 = 1 ∧ u.st (Reg.DMACHn_WP.pg 1) = 0 ∧ u.lv (Reg.DMACHn_RP.pg 1) = 0 ∧ u.st (Reg.DMACHn_DONE.pg 1) = 0 ∧
        u.st (Reg.DMACHn_HELD.pg 1) = 0 ∧ u.st (Reg.DMACHn_STATUS_ERR.pg 1) = 0 ∧ u.mem = s.mem ∧ u.out = s.out),
  fun b => let s := chanUp 0 3 {} [(Reg.DMACHn_WP, 7), (Reg.DMACHn_HELD, 2)] [] b
    (s.reaches .s0 0x0C1 = true ∧ s.chanState 1 = 0 ∧ dmaLegal s 1 = true, gives (.dmaGo .s0 1) s fun u =>
      u.chanState 1 = 1 ∧ u.st (Reg.DMACHn_WP.pg 1) = 0 ∧ u.st (Reg.DMACHn_HELD.pg 1) = 2 ∧ u.out = .hostRead 0 0x100010000 32 :: s.out),
  fun b => let s := chanUp 0 2 {} [] [(Reg.DMACHn_BASE_LO, 16)] b
    (s.reaches .s0 0x0C1 = true ∧ dmaLegal s 1 = false, gives (.dmaGo .s0 1) s fun u =>
      u.chanState 1 = 0 ∧ counts (Reg.DMACHn_REJECTS.pg 1) s u ∧ raised u 0x0C1 3 ∧ u.live = s.live),
  fun b => let s := chanUp 3 2 {} [(Reg.DMACHn_HELD, 2)] [] b
    (s.reaches .s0 0x0C1 = true ∧ s.asleep 0 = false ∧ s.chanState 1 = 3, gives (.dmaAbort .s0 1) s (fun u => u.chanState 1 = 0 ∧ raised u 0x0C1 0 ∧ raised u 0x0C1 1 ∧
        u.st (Reg.DMACHn_HELD.pg 1) = 0) && gives (.dmaGo .s0 1) s (fun u => u.chanState 1 = 3 ∧ counts (Reg.DMACHn_REJECTS.pg 1) s u)),
  fun b => let s := chanUp 1 2 {} [(Reg.DMACHn_STATUS_WAITING_DESC, 1)] [] b
    (s.reaches .s0 0x0C1 = true ∧ s.asleep 0 = false ∧ s.chanState 1 = 1 ∧ chanWaits s 1 = true ∧ (s.chan 1).fetch = false,
      gives (.dmaAbort .s0 1) s (fun u => u.chanState 1 = 0 ∧ raised u 0x0C1 0 ∧ raised u 0x0C1 1 ∧ u.st (Reg.DMACHn_HELD.pg 1) = 0) &&
      gives (.db .s0 1) s (fun u => u.out = .hostRead 0 0x50 8 :: s.out ∧ (u.chan 1).fetch = true ∧ u.chanState 1 = 1)),
  fun b => let s := chanUp 1 3 {} [] [] b
    (s.reaches .s0 0x0C1 = true ∧ s.chanState 1 = 1 ∧ chanWaits s 1 = false, gives (.dmaAbort .s0 1) s fun u => u.chanState 1 = 2 ∧ u.out = s.out),
  fun b => let s := chanUp 1 1 {} [(Reg.DMACHn_WP, 5), (Reg.DMACHn_STATUS_WAITING_RP, 1)] [(Reg.DMACHn_RP, 0xFFFFF005)] b
    (s.reaches .s0 0x0C1 = true ∧ s.lv (Reg.DMACHn_RP.pg 1) = 0xFFFFF005, gives (.rpWrite .s0 1 0xFFFFF006) s (fun u =>
        u.lv (Reg.DMACHn_RP.pg 1) = 0xFFFFF006 ∧ u.st (Reg.DMACHn_STATUS_WAITING_RP.pg 1) = 0) &&
      gives (.rpWrite .s0 1 0xFFFFF005) s (fun u => u.lv (Reg.DMACHn_RP.pg 1) = 0xFFFFF005 ∧ u.st (Reg.DMACHn_STATUS_WAITING_RP.pg 1) = 1) &&
      gives (.rpWrite .s0 1 6) s (fun u => u.live = s.live ∧ counts (Reg.DMACHn_REJECTS.pg 1) s u ∧ raised u 0x0C1 3)),
  fun b => let s := chanUp 1 1 {} [] [] b
    (s.reaches .s0 0x0C1 = true ∧ s.chanState 1 ≠ 0, gives (.dmaCfgWrite .s0 1 0x054 0x00030801) s (fun u =>
        u.lv (Reg.DMACHn_MOD_COUNT.pg 1) = 1 ∧ u.lv (Reg.DMACHn_MOD_TIME.pg 1) = 3 ∧ u.status = s.status) &&
      gives (.dmaCfgWrite .s0 1 0x044 5) s (fun u => u.live = s.live ∧ counts (Reg.DMACHn_REJECTS.pg 1) s u ∧ raised u 0x0C1 3)),
  fun b => let s := chanUp 0 1 {} [] [] b
    (s.reaches .s0 0x0C1 = true ∧ s.chanState 1 = 0, gives (.dmaCfgWrite .s0 1 0x040 0x157) s (fun u =>
        u.lv (Reg.DMACHn_CFG_MODE.pg 1) = 3 ∧ u.lv (Reg.DMACHn_CFG_DIR.pg 1) = 1 ∧ u.lv (Reg.DMACHn_CFG_RING_K.pg 1) = 0x15 ∧ u.status = s.status)),
  fun b => let s := chanUp 2 3 {} [(Reg.DMACHn_HELD, 2)] [] b; let z := { s with pcie := { s.pcie with d3 := [0] } }
    (s.mode ≠ 5 ∧ s.chanState 1 = 2 ∧ s.asleep 0 = false ∧ z.asleep 0 = true, gives (.abortDone 1) s (fun u =>
        u.chanState 1 = 0 ∧ raised u 0x0C1 0 ∧ raised u 0x0C1 1 ∧ u.st (Reg.DMACHn_HELD.pg 1) = 0) &&
      gives (.abortDone 1) z (fun u => (u.chan 1).abortWb = true ∧ u.status = z.status))]


def witDescriptorsRecordsAndCopies : List (State → Bool × Bool) := [
  fun b => let s := chanUp 1 2 { fetch := true } [] [] b
    (s.mode ≠ 5 ∧ s.chanState 1 = 1 ∧ (s.chan 1).fetch = true ∧ (s.chan 1).reread = false ∧ s.st2 (Reg.DMACHn_DESC_LO.pg 1) (Reg.DMACHn_DESC_HI.pg 1) = 0x40,
      gives (.descFetch 1 (.ok (descBytes 0x5000 64 3 0x60))) s (fun u => (u.chan 1).desc = some ⟨0x5000, 64, 3, 0x60⟩ ∧ (u.chan 1).off = 0 ∧
          (u.chan 1).fetch = false ∧ u.chanState 1 = 1 ∧ u.st (Reg.DMACHn_STATUS_WAITING_DESC.pg 1) = 0) &&
      gives (.descFetch 1 (.ok (descBytes 0x5000 0 3 0x60))) s (fun u => u.chanState 1 = 3 ∧ u.st (Reg.DMACHn_STATUS_ERR.pg 1) = 3 ∧ raised u 0x0C1 2) &&
      gives (.descFetch 1 (.ok (descBytes 0x5000 1 4 0x60))) s (fun u => u.chanState 1 = 3 ∧ u.st (Reg.DMACHn_STATUS_ERR.pg 1) = 3 ∧ raised u 0x0C1 2) &&
      gives (.descFetch 1 .failed) s (fun u => u.chanState 1 = 3 ∧ u.st (Reg.DMACHn_STATUS_ERR.pg 1) = 1 ∧ raised u 0x0C1 2) &&
      gives (.descFetch 1 .poisoned) s (fun u => u.chanState 1 = 3 ∧ u.st (Reg.DMACHn_STATUS_ERR.pg 1) = 2 ∧ raised u 0x0C1 2) &&
      does (execCompletionTimeout 1) s (fun u => u.chanState 1 = 3 ∧ u.st (Reg.DMACHn_STATUS_ERR.pg 1) = 1 ∧ raised u 0x0C1 2)),
  fun b => let d : Desc := ⟨0x5000, 3, 2, 0⟩; let s := chanUp 1 3 { desc := some d, copyRa := 77 } [] [(Reg.DMACHn_CFG_DIR, 1)] b
    (s.mode ≠ 5 ∧ s.chanState 1 = 1 ∧ (s.chan 1).fetch = false ∧ (s.chan 1).desc = some d ∧ (s.chan 1).off ≠ d.len ∧ s.lv (Reg.DMACHn_CFG_DIR.pg 1) ≠ 0 ∧
      s.lv (Reg.DMACHn_CFG_MODE.pg 1) = 3 ∧ s.asleep 0 = false, gives (.copyTransfer 1 (.ok [1, 0, 3, 4])) s fun u =>
        memRead u 77 3 = [1, 0, 3] ∧ u.mem = (memWrite 77 [1, 0, 3] s).mem ∧ counts (Reg.DMACHn_DONE.pg 1) s u ∧
        u.st (Reg.DMACHn_WP.pg 1) = 3 ∧ u.chanState 1 = 0),
  fun b => let d : Desc := ⟨0x5000, 3, 0, 0⟩; let s := chanUp 1 3 { desc := some d, copyRa := 100 } [] [] { b with mem := [(100, 7)] }
    (s.mode ≠ 5 ∧ s.chanState 1 = 1 ∧ (s.chan 1).fetch = false ∧ (s.chan 1).desc = some d ∧ (s.chan 1).off ≠ d.len ∧ s.lv (Reg.DMACHn_CFG_DIR.pg 1) = 0 ∧
      s.lv (Reg.DMACHn_CFG_MODE.pg 1) = 3 ∧ s.asleep 0 = false, gives (.copyTransfer 1 .failed) s fun u => u.mem = s.mem ∧ counts (Reg.DMACHn_DONE.pg 1) s u),
  fun b => let s := chanUp 1 1 {} [(Reg.DMACHn_WP, 0x1E00)] [(Reg.DMACHn_RP, 0x1E00)] (stat [(Reg.DMA_STATUS_L2_KEEP, 1)] (toDeliver (.mailbox 0) b))
    let s := { s with strm := { s.strm with subs := s.strm.subs.map fun e => (e.1, { e.2 with chan := 1 }) } }
    (s.mode ≠ 5 ∧ s.chanState 1 = 1 ∧ s.asleep 0 = false ∧ chanSub s 1 = some 3 ∧ ((nextRec s 3).map fun x => (x.1, x.2.1, x.2.2.bytes)) = some (0, 0, List.replicate 300 7) ∧
      (s.sub 3).cur = none ∧ s.poison = [], gives (.dmaRecordWrite 1 9 ⟨2, false⟩) s fun u => u.st (Reg.DMACHn_WP.pg 1) = 0x1E00 + 300 ∧ counts (Reg.DMACHn_DONE.pg 1) s u ∧ u.mem = s.mem ∧
        u.st Reg.DMA_STATUS_L2_KEEP = 0 ∧ (u.sub 3).cur = none ∧ (u.sub 3).sels.map (·.todo) = [[]]),
  fun b => let s := chanUp 1 1 {} [(Reg.DMACHn_HELD, 3)] [] b
    (s.mode ≠ 5 ∧ s.chanState 1 = 1 ∧ s.st (Reg.DMACHn_HELD.pg 1) ≠ 0 ∧ s.lv (Reg.DMACHn_MOD_TIME.pg 1) ≠ 0, gives (.modTimeout 1) s fun u =>
      u.st (Reg.DMACHn_HELD.pg 1) = 0 ∧ raised u 0x0C1 0 ∧ u.mem = s.mem)]


def witWindowResetsSleepAndLink : List (State → Bool × Bool) := [
  fun b => let s := conf [(Reg.DMA_WIN_BASE, 5)] (stat [(Reg.MEMCn_CAPACITY.pg 0, 4096), (Reg.MEMCn_CAPACITY.pg 1, 0)] { b with regions := [(6, (5, 1))] })
    (s.lv Reg.DMA_WIN_BASE = 5 ∧ regionBytes s 6 = (5 * 2 ^ 20, 2 ^ 20) ∧ 6 * 2 ^ 20 ≤ fittedBytes s - 16 * 2 ^ 20,
      gives (.bar2Access true 0xFFFFD 0 [1, 0, 3]) s (fun u => memRead u 0x5FFFFD 3 = [1, 0, 3] ∧ u.mem = (memWrite 0x5FFFFD [1, 0, 3] s).mem ∧ u.out = s.out) &&
      gives (.bar2Access false 0x10 4 []) s (fun u => u = s.emit (.completion (some (memRead s 0x500010 4)) (poisoned s 0x500010 4)))),
  fun b => let s := conf [(Reg.DMA_WIN_BASE, 16383)] { b with live := [], shadow := [] }
    (fittedBytes s = 16384 * 2 ^ 20, gives (.bar2Access true 0xFFFFF 0 [1, 2]) s (fun u => u.mem = s.mem ∧ counts Reg.DMA_WIN_REJECTS s u ∧ raised u 0x098 3) &&
      gives (.bar2Access false 0xFFFFF 2 []) s (fun u => u = s.emit (.completion none false))),
  fun b => let s := chanUp 1 2 { fetch := true } [] [] { b with pcie := { unmasked := [(3, true), (67, true)], pba := [(4, true)] } }
    (s.chanState 1 = 1, gives (.flr 0 false) s (fun u => u.chanState 0 = 0 ∧ u.chanState 1 = 0 ∧ u.mem = s.mem ∧ u.live = s.live ∧ u.pcie.unmasked = [(67, true)] ∧ u.pcie.pba = []) &&
      gives (.flr 0 true) s (fun u => u.chanState 0 = 0 ∧ u.chanState 1 = 0 ∧ u.mem = s.mem ∧ u.live = s.live ∧ u.pcie.unmasked = [(3, true), (67, true)])),
  fun b => let s := chanUp 1 2 { fetch := true } [] [] b; let z := { s with pcie := { s.pcie with l2 := true } }
    (s.pcie.l2 = false ∧ z.pcie.l2 = true, gives (.pcieReset .hot) s (fun u => u.chanState 1 = 0 ∧ u.mem = s.mem) &&
      gives (.pcieReset .perst) z (fun u => u.chanState 1 = z.chanState 1 ∧ u.st Reg.DMA_STATUS_LINK_UP = 0 ∧ u.pcie.unmasked = [])),
  fun b => let s := stat [(Reg.SYS_MODE_STATUS_CUR, 3)] { b with pcie := { pba := [(67, true)] } }
    (s.mode ≠ 5 ∧ s.asleep 1 = false, does (execMsixUnmask 1 3) s (fun u => u.out = .msix 1 3 :: s.out ∧ u.pcie.pba = []) &&
      does (execMsixUnmask 1 4) s (fun u => u.out = s.out ∧ u.pcie.unmasked = [(68, true)] ∧ u.pcie.pba = [(67, true)])),
  fun b => let s := stat [(Reg.DMACHn_HELD.pg 3, 1), (Reg.DMA_STATUS_WAKE, 0)] { b with pcie := { d3 := [1] } }; let z := { s with pcie := { s.pcie with l2 := true } }
    (heldItem s 1 = true ∧ s.pcie.l2 = false ∧ heldItem z 1 = true ∧ z.st Reg.DMA_STATUS_WAKE = 0, does (execD3hotEntry 2) s (fun u => u.pcie.d3 = [1, 2] ∧ u.status = s.status) &&
      gives (.pme 1) s (fun u => u.out = .pme 1 :: s.out ∧ counts Reg.DMA_PME_SENT s u ∧ raised u 0x098 0) &&
      gives (.pme 1) z (fun u => u.out = .wakeN true :: s.out ∧ u.st Reg.DMA_STATUS_WAKE = 1 ∧ counts Reg.DMA_WAKES s u ∧ raised u 0x098 1) &&
      gives (.d0Return 1) s (fun u => u.pcie.d3 = [] ∧ u.pcie.l2 = false)),
  fun b => let s := stat [(Reg.DMA_STATUS_WAKE, 1)] b
    (s.st Reg.DMA_STATUS_WAKE ≠ 0, does execPerstNRelease s (fun u => u.out = .wakeN false :: s.out ∧ u.st Reg.DMA_STATUS_WAKE = 0) &&
      gives .l2Entry s (fun u => u.pcie.l2 = true ∧ u.st Reg.DMA_STATUS_LSTATE = 2 ∧ u.st Reg.DMA_STATUS_L2_KEEP = 1 ∧
        u.st Reg.DMA_STATUS_LINK_UP = 0 ∧ ∀ ch : Chan, u.chanState ch = s.chanState ch) &&
      does (execPcieLinkUp 12 18) s (fun u => u.st Reg.DMA_STATUS_LINK_UP = 1 ∧ u.st Reg.DMA_STATUS_SPEED = 4 ∧ u.st Reg.DMA_STATUS_WIDTH = 2 ∧
        u.st Reg.DMA_STATUS_LSTATE = 0 ∧ u.pcie.l2 = false))]
/-! ### interrupts, stewards, mailboxes and firmware -/

/-- A firmware image without code: header, key and signature, made outside with the curve's own equations (R456). -/
def image : List Byte := leBytes 184 0x07a4e744ea8fc5d40dcdbab1707ae022af6f2cc7d84ff3e45a01aff7470ded76a3b28731702806305bef0fa8b8f8f97e60fb017c6630bb25467bbfa06f3b538ea46da1fd44bbd0d18808d8d4002f010d26798abf36bfe18a7d724a90a87dc1e0ed33d0c30d4a552124e55b1ffd828cefdf8f660856c884d7d24051517a0b595155b852781b9995a44c939b64e441ae2724b96f99c8f4fb9a141cfc9842c4b0e3000000000000000000000007000000000000000157465850 ++ List.replicate 72 0

/-- Flash whose OTP holds the image's key (R456). -/
def keyed (b : State) : State := { b with flash := { keyHash := [(0, sha256 ((image.drop 0x38).take 64))], svn := 0, serial := [1, 2, 3] } }

/-- Two shared sources and a private one pending at target 3, which runs. -/
def pendingAt (b : State) : State :=
  conf [((Reg.ICUTt_THRESH).pg 3, 1), ((Reg.ICUTt_PRIV_EN).pg 3, 0xFFFFFFFF), (((Reg.ICUTt_PRIV_PRIOj).pg 3).ix 0, 0x00200000)]
    { b with zc := [], icu := { edges := [(0x105, true), (0x106, true)], cfg := [(0x105, 0x30003), (0x106, 0x30003)], targets := [(3, { edges := 0x20 })] } }

def witInterruptsAreClaimed : List (State → Bool × Bool) := [
  fun b => let s := pendingAt b
    (deliverable s 3 = [(0x405, 2), (0x105, 3), (0x106, 3)], gives (.icuClaim 3) s fun u => u.req.data = 0x105 ∧ (u.tgt 3).stack = [(0x105, 3)] ∧
      u.icu.edges = [(0x106, true)] ∧ u.status = s.status),
  fun b => let s := conf [((Reg.ICUTt_THRESH).pg 3, 3)] (pendingAt b)
    (deliverable s 3 = [], gives (.icuClaim 3) s fun u => u = s.answer 0x3FF),
  fun b => let s := { b with icu := { targets := [(3, { stack := [(0x105, 4), (0x106, 3)] })], stranded := [(0x105, 0)] } }
    ((s.tgt 3).stack.map (·.1) = [0x105, 0x106] ∧ claimer s 7 = none, gives (.icuComplete (some 3) 3 0x105) s (fun u => (u.tgt 3).stack = [(0x106, 3)] ∧ u.status = s.status ∧ Amap.find 0x105 u.icu.stranded = none) &&
      gives (.icuComplete (some 3) 3 0x106) s (fun u => (u.tgt 3).stack = (s.tgt 3).stack ∧ counts Reg.ICU_FAULTS s u ∧ counts (Reg.ICUTt_FAULTS.pg 3) s u ∧
        u.st Reg.ICU_FAULT_LAST_CAUSE = 0 ∧ raised u 0x0A0 0) &&
      gives (.icuComplete (some 3) 3 7) s (fun u => u.icu = s.icu ∧ counts Reg.ICU_FAULTS s u ∧ u.st Reg.ICU_FAULT_LAST_CAUSE = 2 ∧ u.st Reg.ICU_FAULT_LAST_VALUE = 7 ∧ raised u 0x0A0 0) &&
      gives (.icuComplete (some 4) 3 0x105) s (fun u => u.icu = s.icu ∧ counts Reg.ICU_FAULTS s u ∧ u.st Reg.ICU_FAULT_LAST_CAUSE = 1 ∧
        u.st Reg.ICU_FAULT_LAST_TARGET = 4 ∧ raised u 0x0A0 0) &&
      gives (.icuComplete none 3 0x105) s (fun u => u.icu = s.icu ∧ counts Reg.ICU_FAULTS s u ∧ u.st Reg.ICU_FAULT_LAST_CAUSE = 1 ∧
        u.st Reg.ICU_FAULT_LAST_TARGET = 0x7F ∧ raised u 0x0A0 0) &&
      gives (.icuComplete (some 3) 3 0x3FF) s (fun u => u = s)),
  fun b => let s := { b with icu := { targets := [(3, { edges := 2, stack := [(5, 1)] })] } }
    (s.reaches .s0 0x0A0 = true ∧ s.reaches .s0 0x203 = true, gives (.icuSwSet .s0 0x2FF) s (fun u => u.icu.edges = [(0x2FF, true)] ∧ u.icu.targets = s.icu.targets ∧ u.status = s.status) &&
      gives (.icuSwSet .s0 0x500) s (fun u => u.icu.edges = [(0x100, true)]) &&
      gives (.icuSwSet .s0 0x0FF) s (fun u => u.icu.edges = []) &&
      gives (.privSwSet .s0 3 0x0001001F) s (fun u => (u.tgt 3).edges = 0x12 ∧ (u.tgt 3).stack = [(5, 1)] ∧ u.status = s.status) &&
      gives (.srcCfgWrite .s0 0xFFFFFFFF) s (fun u => srcCfg u (s.winIndex .s0 0x0A0 % 1024) = 0xF7F7F ∧ u.icu.edges = s.icu.edges ∧ u.status = s.status)),
  fun b => let s := stat [(Reg.SYS_STEWARD_LOAD_S0_UP, 1), (Reg.ZCn_STATUS_STATE.pg 1, 0), (Reg.ZCn_STATUS_STATE.pg 2, 0)] { b with icu := { edges := [(0x105, true), (0x106, true)], cfg := [(0x105, 0x30403), (0x106, 0x30403)], stranded := [(0x106, 4)] } }
    (srcPending s 0x105 = true ∧ srcPending s 0x106 = true ∧ icuOnline s (srcAt s 0x105) = false ∧ icuOnline s (srcAt s 0x106) = false,
      gives (.stranded 0x105) s (fun u => srcAt u 0x105 = 4 ∧ counts Reg.ICU_STRANDED s u ∧ u.st Reg.ICU_STRAND_LAST_SOURCE = 0x105 ∧
        u.st Reg.ICU_STRAND_LAST_FROM = 3 ∧ u.st Reg.ICU_STRAND_LAST_TO = 4 ∧ raised u 0x0A0 1) &&
      gives (.stranded 0x106) s (fun u => srcAt u 0x106 = 0 ∧ u.st Reg.ICU_STRAND_LAST_FROM = 4 ∧ u.st Reg.ICU_STRAND_LAST_TO = 0))]


def witStewardsRun : List (State → Bool × Bool) := [
  fun b => let s := { b with stew := { b.stew with timers := [(1, 100)] }, icu := { targets := [(1, { edges := 4 })] } }
    (Amap.find 1 s.stew.timers = some 100, gives (.stewardTimer 1 100) s (fun u => u.stew.timers = [] ∧ (u.tgt 1).edges = 5) &&
      gives (.stewardTimer 1 99) s (fun u => u = advance 99 s)),
  fun b => let s := stat [(stewUp 1, 1)] { b with stew := { b.stew with warned := [(1, true)] }, icu := { targets := [(0, { edges := 4 }), (1, { edges := 4, stack := [(5, 1)] })] } }
    (s.reaches .s1 0x201 = true ∧ s.st (stewUp 1) ≠ 0 ∧ Amap.get s.stew.warned 1 false = true,
      gives (.wdtService .s1 1 9) s (fun u => Amap.get u.stew.warned 1 false = false ∧ u.status = (advance 9 s).status) &&
      gives (.wdtWarning 1) s (fun u => Amap.get u.stew.warned 1 false = true ∧ (u.tgt 1).edges = 6) &&
      gives (.wdt 1) s (fun u => u.st (stewUp 1) = 0 ∧ counts Reg.MGMT_WDT_RESETS s u ∧ raised u 0x0A8 16 ∧ (u.tgt 1).stack = [] ∧
        Amap.get u.stew.warned 1 false = false ∧ u.live = s.live ∧ u.strm = s.strm ∧ u.mem = s.mem) &&
      gives (.mcheck 1) s (fun u => u.st (stewUp 1) = 0 ∧ counts Reg.MGMT_MCHECKS s u ∧ raised u 0x0A8 17 ∧ (u.tgt 1).stack = [] ∧ (u.tgt 0).edges = 12 ∧ u.live = s.live ∧ u.strm = s.strm ∧ u.mem = s.mem)),
  fun b => (true, gives (.stewardRestartDone 1) b fun u => u.st (stewUp 1) = 1 ∧ u.stew = b.stew ∧ u.icu = b.icu),
  fun b => let s := stat [(Reg.SYS_STEWARD_LOAD_S1_UP, 1)] b; let z := stat [(Reg.SYS_STEWARD_LOAD_S1_UP, 0)] b
    (z.st Reg.SYS_STEWARD_LOAD_S1_UP = 0, gives (.loadWindow 851 850) s (fun u => u.st Reg.SYS_STEWARD_LOAD_S0 = 851 ∧ u.st Reg.SYS_STEWARD_LOAD_S1 = 850 ∧
        u.st Reg.SYS_STEWARD_LOAD_SHEDDING = 0 ∧ raised u 0x0A8 19) &&
      gives (.loadWindow 1200 3) z (fun u => u.st Reg.SYS_STEWARD_LOAD_S0 = 1000 ∧ u.st Reg.SYS_STEWARD_LOAD_SHEDDING = 1)),
  fun b => let s := conf [(Reg.MGMT_GPIO_IRQ, 0x31)] (stat [(Reg.MGMT_GPIO_IN, 0x6)] b)
    (s.lv Reg.MGMT_GPIO_IRQ = 0x31, does (execGpioEdge 0 true) s (fun u => u.st Reg.MGMT_GPIO_IN = 7 ∧ raised u 0x0A8 0) &&
      does (execGpioEdge 2 false) s (fun u => u.st Reg.MGMT_GPIO_IN = 2 ∧ raised u 0x0A8 2) &&
      does (execGpioEdge 1 false) s (fun u => u.st Reg.MGMT_GPIO_IN = 4 ∧ u.st (irqStatus 0x0A8) = s.st (irqStatus 0x0A8))),
  fun b => let s := stat [(Reg.SYS_MODE_STATUS_CUR, 0), (Reg.SYS_STRAPS_BOOT_SEL, 2)] { b with icu := {} }; let z := stat [(Reg.SYS_MODE_STATUS_CUR, 1)] s
    (s.mode = 0 ∧ s.st Reg.SYS_STRAPS_BOOT_SEL = 2 ∧ z.mode ≠ 0, does (execUartReceive 9) s (fun u => u.stew.uart = s.stew.uart ++ [9] ∧ u.icu = s.icu) &&
      does (execUartReceive 9) z (fun u => u.icu.edges = [(0x322, true)] ∧ u.stew = z.stew) &&
      does execTwinLinkCommand z (fun u => u.icu.edges = [(0x321, true)] ∧ u.status = z.status))]


/-- `Serves`, decided; the mailbox holds a request. -/
def serves (f : Option Func) (cmd : Nat) (s : State) : Bool :=
  !mbDenied f cmd && (s.st Reg.MGMT_BOOT_STATUS_RESIDENT == 0 || [0x01, 0x30, 0x31, 0x32].contains cmd) && s.st Reg.SYS_STEWARD_LOAD_SHEDDING == 0

/-- `Says`, decided. -/
def answersWith (f : Option Func) (r : Nat) (body : List Byte) (s u : State) : Bool :=
  (u.mb (mbKey f)).answer == some { result := r, token := (s.mb (mbKey f)).word 1, body := body }

/-- A request with a token waits in the mailbox of function 0; the stewards run their whole code. -/
def mailed (b : State) : State :=
  stat [(Reg.MGMT_BOOT_STATUS_RESIDENT, 0), (Reg.SYS_STEWARD_LOAD_SHEDDING, 0), (Reg.MGMT_BOOT_STATUS_SLOT, 1)]
    { b with mbox := [(0, { busy := true, req := [(0, 1), (1, 77), (2, 5)] })], regions := [(6, (5, 1)), (7, (7, 1))], mem := [], poison := [] }

def witMailboxesAndFirmware : List (State → Bool × Bool) := [
  fun b => let s := stat [(Reg.SYS_MODE_STATUS_CUR, 3)] (mailed { b with icu := {} }); let z := { s with mbox := [(0, { req := [(0, 1), (1, 77), (2, 5)] })] }
    (s.reaches (mbRequester (some 0)) (mbPage (some 0)) = true ∧ (s.mb 0).busy = true ∧ (z.mb 0).busy = false,
      gives (.mboxGo (some 0) 9) z (fun u => (u.mb 0).busy = true ∧ (u.mb 0).done = false ∧ u.icu.edges = [(0x300, true)]) &&
      gives (.mboxGo (some 0) 9) s (fun u => (u.mb 0).rejects = 1 ∧ (u.mb 0).busy = true ∧ u.icu = s.icu)),
  fun b => let a : Answer := { result := 5, token := 77, body := [1, 2] }; let s := { b with mbox := [(32, { busy := true, req := [(0, 0x20001), (2, 0x12345678)], answer := some a })] }
    ((s.mb 32).busy = true ∧ (s.mb 32).answer = some a, gives (.mboxDone none) s fun u => (u.mb 32).busy = false ∧ (u.mb 32).done = true ∧ raised u 0x0A8 20 ∧
      (u.mb 32).rep = bytesWords [1, 0x80, 2, 0, 77, 0, 0, 0, 0x78, 0x56, 0x34, 0x12, 5, 0, 0, 0, 1, 2]),
  fun b => let s := keyed (mailed b)
    (serves (some 0) 0x01 s, gives (.getInfo (some 0)) s fun u => answersWith (some 0) 0 (leBytes 4 (s.st Reg.MGMT_FW_VERSION) ++ leBytes 4 0 ++ leBytes 4 0xB0 ++
      [1, 2, 3] ++ List.replicate 13 0 ++ leBytes 2 (freeSubs s)) s u ∧ u.status = s.status),
  fun b => let s := stat [(Reg.ZCn_STATUS_STATE.pg 3, 1), (Reg.ZCn_STATUS_STATE.pg 4, 3)] (mailed b)
    (serves (some 0) 0x10 s, gives (.zcLoad (some 0) 0x18 0x500000) s (fun u => answersWith (some 0) 5 (leBytes 8 0) s u ∧ u.core 3 = s.core 3 ∧ u.core 5 = s.core 5 ∧ u.mem = s.mem) &&
      gives (.zcLoad (some 0) 0x10 0x500000) s (fun u => answersWith (some 0) 0 (leBytes 8 0) s u ∧ u.core 3 = s.core 3) &&
      gives (.zcLoad (some 1) 0x10 0x500000) s (fun u => answersWith (some 1) 2 [] s u ∧ u.zc = s.zc ∧ u.live = s.live)),
  fun b => let s := mailed b
    (serves (some 0) 0x30 s, does (execFwChunk (some 0) 0xFFFFE [1, 2]) s (fun u => answersWith (some 0) 0 [] s u ∧ u.mem = [⟨0x7FFFFE, 1⟩, ⟨0x7FFFFF, 2⟩] ∧ u.flash = s.flash) &&
      does (execFwChunk (some 0) 0xFFFFF [1, 2]) s (fun u => answersWith (some 0) 5 [] s u ∧ u.mem = s.mem)),
  fun b => let s := mailed b
    (serves (some 0) 0x31 s, does (execFwInstall (some 0) true 0x500000 9) s fun u => answersWith (some 0) 6 [0, 1] s u ∧ u.flash = s.flash ∧ u.out = s.out),
  fun b => let s := mailed b
    (serves (some 0) 0x32 s, does (execFwSelect (some 0) 1) s fun u => answersWith (some 0) 0 [] s u ∧ preferredSlot u.flash = some 1 ∧ u.flash.slots = s.flash.slots),
  fun b => let s := mailed { b with flash := { b.flash with svn := 4 }, stew := { b.stew with header := List.replicate 8 0 ++ [7, 0, 0, 0] } }
    (serves (some 0) 0x33 s ∧ imgNum s.stew.header 8 4 = 7, does (execFwCommitSvn (some 0) 7) s (fun u => answersWith (some 0) 0 (leBytes 4 7) s u ∧ u.flash.svn = 7) &&
      does (execFwCommitSvn (some 0) 3) s (fun u => answersWith (some 0) 0 (leBytes 4 4) s u ∧ u.flash.svn = 4) &&
      does (execFwCommitSvn (some 0) 8) s (fun u => answersWith (some 0) 6 (leBytes 4 4) s u ∧ u.flash = s.flash)),
  fun b => let s := stat [(Reg.MGMT_BOOT_STATUS_RESIDENT, 1), (Reg.MEMCn_STATUS_READY.pg 0, 1), (Reg.MGMT_BOOT_STATUS_COPY_FAIL, 0)] { b with stew := { b.stew with header := List.replicate 0x18 0 ++ sha256 [5] } }
    (s.st Reg.MGMT_BOOT_STATUS_RESIDENT ≠ 0 ∧ s.st (Reg.MEMCn_STATUS_READY.pg 0) ≠ 0 ∧ s.st Reg.MGMT_BOOT_STATUS_COPY_FAIL = 0 ∧ (s.stew.header.drop 0x18).take 32 = sha256 [5],
      does (execCodeCopy [5]) s (fun u => u.st Reg.MGMT_BOOT_STATUS_RESIDENT = 0) &&
      does (execCodeCopy [6]) s (fun u => u.st Reg.MGMT_BOOT_STATUS_COPY_FAIL = 1 ∧ u.st Reg.MGMT_BOOT_STATUS_RESIDENT = 1))]


/-- A valid image that FW_INSTALL finds in record memory: the hypotheses of its clause (`image` verifies). -/
def witInstall : List (State → Bool × Bool) := [
  fun b => let s := { keyed (mailed b) with mem := (memWrite 0x700000 image { b with mem := [] }).mem }
    (serves (some 0) 0x31 s ∧ memRead s 0x700000 256 = image ∧ fwVerify s.flash (memRead s 0x700000 256) = 0, true)]
/-! ### almanac and calibration -/

/-- A CAL_RUN is asked for in RUN: both lanes RUNNING in a DAS mode, no procedure running. -/
def calAsked (mode busy : Nat) (b : State) : State :=
  conf [(laneModeF 0, 1), (laneModeF 1, 2)] (stat [(laneStateF 0, 2), (laneStateF 1, 2), (Reg.SYS_MODE_STATUS_CUR, mode), (Reg.ALM_STATUS_CAL_BUSY, busy),
    (Reg.ALM_STATUS_PROC, 0)] { mailed b with mbox := [(0, { busy := true, req := [(1, 77)] })], regionShadow := [(0, (0, 64)), (7, (64, 100))] })

/-- `Begun`, decided. -/
def begun (p : Nat) (l : List Lane) (s u : State) : Bool :=
  u.st Reg.ALM_STATUS_CAL_BUSY == 1 && u.st Reg.ALM_STATUS_PROC == p && u.cal.lanes == l && u.st Reg.ALM_CAL_PROGRESS == 0 && u.alm == s.alm &&
  (match (u.mb 0).answer with | some a => a.result == 0 && a.token == 77 && a.body.take 4 == [5, 0, 0, 0] && a.body.length == 8 | none => false)

/-- `Denied`, decided. -/
def denied (r : Nat) (s u : State) : Bool :=
  answersWith (some 0) 0 (leBytes 1 3 ++ leBytes 1 r ++ leBytes 6 0) s u && u.status == s.status && u.live == s.live && u.cal == s.cal && u.alm == s.alm

def witProceduresStart : List (State → Bool × Bool) := [
  fun b => let s := calAsked 3 0 b
    (serves (some 0) 0x20 s ∧ lanesOf 3 = [0, 1] ∧ lanesOf 0 = [] ∧ s.st Reg.ALM_STATUS_CAL_BUSY = 0 ∧ s.mode = 3 ∧ s.laneState 0 = 2 ∧ s.laneState 1 = 2 ∧ usesSlow s.live 0 = true ∧
      usesSlow s.live 1 = true, does (execCalAdcIlv (some 0) 3 1) s (begun 1 [0, 1] s) && does (execCalIq (some 0) 2 1) s (begun 2 [1] s) &&
      does (execCalRange (some 0) 3 1 9) s (fun u => begun 3 [0, 1] s u ∧ u.cal.squeeze = true ∧ ∀ n : Lane, u.lv (Reg.RXFn_INJ_CFG_MODE.pg n) = 2 ∧ u.lv (Reg.RXFn_INJ_CFG_SRC.pg n) = 2) &&
      does (execCalTdc (some 0) 1) s (begun 4 [] s) && does (execCalAux (some 0) 1 7) s (begun 5 [] s) && does (execCalDtsBath (some 0) 1 1 0 1) s (begun 6 [1] s) &&
      does (execCalAdcIlv (some 0) 0 1) s (denied 4 s) && does (execCalIq (some 0) 0 1) s (denied 4 s)),
  fun b => let s := calAsked 3 0 b
    (serves (some 0) 0x20 s ∧ mainLane s 1 = true, does (execCalRange (some 0) 2 0 9) s fun u => u.mode = 4 ∧ u.st Reg.ALM_STATUS_CAL_BUSY = 1 ∧ u.st Reg.ALM_STATUS_PROC = 3 ∧ u.cal.lanes = [1] ∧
      u.cal.back = 3 ∧ u.alm = s.alm),
  fun b => let s := calAsked 1 0 (ready [] b); let s := stat [(laneStateF 0, 0)] s
    (serves (some 0) 0x20 s ∧ mainLane s 0 = true ∧ s.mode = 1 ∧ regionError (advance 9 s) (fun _ => false) = none, does (execCalRange (some 0) 1 0 9) s fun u => u.mode = 4 ∧ u.cal.lanes = [0] ∧
      u.st Reg.ALM_STATUS_PROC = 3 ∧ u.cal.back = 1 ∧ u.regions = s.regionShadow),
  fun b => let s := calAsked 3 1 b
    (serves (some 0) 0x20 s ∧ s.st Reg.ALM_STATUS_CAL_BUSY ≠ 0, does (execCalAdcIlv (some 0) 3 1) s (denied 1 s) && does (execCalIq (some 0) 3 0) s (denied 1 s) && does (execCalTdc (some 0) 5) s (denied 1 s) &&
      does (execCalRange (some 0) 0 0 9) s (denied 1 (advance 9 s)) && does (execCalAux (some 0) 1 9) s (denied 1 s) && does (execCalDtsBath (some 0) 2 0 1 1) s (denied 1 s)),
  fun b => let s := calAsked 3 0 b
    (serves (some 0) 0x20 s ∧ s.st Reg.ALM_STATUS_CAL_BUSY = 0, does (execCalTdc (some 0) 2) s (denied 3 s) && does (execCalIq (some 0) 3 2) s (denied 3 s))]


/-- A squeezed procedure runs on the lanes `l`. -/
def running (p : Nat) (l : List Lane) (acc : Amap Nat) (b : State) : State :=
  conf [(Reg.ALM_TOLp_VAL.ix 0, 5), (Reg.ALM_TOLp_VAL.ix 2, 5), (Reg.ALM_TOLp_PHASE.ix 2, 5)] (stat [(Reg.SYS_MODE_STATUS_CUR, 3), (Reg.ALM_STATUS_CAL_BUSY, 1), (Reg.ALM_STATUS_PROC, p),
    (Reg.SYS_SUPPLY_BELOW, 0)] { b with cal := { squeeze := true, lanes := l, todo := l, acc := acc } })

/-- `Ended`, decided. -/
def ended (p o c : Nat) (u : State) : Bool :=
  u.st Reg.ALM_STATUS_CAL_BUSY == 0 && u.st Reg.ALM_STATUS_PROC == 0 && u.st Reg.ALM_CAL_RESULT_PROC == p && u.st Reg.ALM_CAL_RESULT_OUTCOME == o && u.st Reg.ALM_CAL_RESULT_CAUSE == c && raised u 0x014 0

def witProceduresEnd : List (State → Bool × Bool) := [
  fun b => let s := { b with cal := { todo := [1], stage := 2 } }
    (s.cal.todo = [1] ∧ s.cal.stage = 2, does (execCalRun2Start 9) s fun u => u.cal.stage = 3 ∧ u.st (Reg.RXFn_STATUS_RANGE_CUR.pg 1) = 1 ∧ u.st Reg.ALM_CAL_PROGRESS = 500 ∧ u.live = s.live),
  fun b => let s := running 1 [0] [] b; let g : CalFigures := ⟨-5, 0, 0, 0, 0⟩
    (s.st Reg.ALM_STATUS_PROC = 1 ∧ ofProc 1 [0] s [⟨3, 10, 15⟩, ⟨0x203, 0, 99⟩] = [⟨3, 10, 15⟩] ∧ pairAgrees s 1 ⟨3, 10, 15⟩ = true ∧ pairAgrees s 1 ⟨3, 10, 16⟩ = false,
      does (execCalDone [⟨3, 10, 15⟩, ⟨0x203, 0, 99⟩] g) s (ended 1 0 0) &&
      does (execCalDone [⟨3, 10, 16⟩] g) s (fun u => ended 1 1 0 u ∧ counts Reg.ALM_DISAGREES s u ∧ raised u 0x014 1 ∧ u.alm = s.alm)),
  fun b => let s := running 3 [1] ((List.range 8).map fun i => (8 + i, 22500000)) b
    (s.st Reg.ALM_STATUS_PROC = 3 ∧ s.cal.squeeze = true ∧ squeezeComplete s = true ∧ (ofProc 3 [1] s [⟨0x330, 7, -7⟩]).all (pairAgrees s 3) = false, does (execCalDone [] ⟨0, 0, 0, 0, 0⟩) s (ended 3 0 0) &&
      does (execCalDone [⟨0x330, 7, -7⟩] ⟨0, 0, 0, 0, 0⟩) s (ended 3 1 0)),
  fun b => let s0 := conf [(Reg.SHOTn_LENGTH.pg 1, 0), (Reg.MERID_CFG_SRC, 1), (Reg.MERID_DIV_N, 1), (Reg.MERID_PERIOD_PERIOD_NS, 1000000)] (laneUp 1 2 (running 3 [1] ((List.range 4).map fun i => (8 + i, 22500000)) b))
    let s1 := { s0 with cal := { s0.cal with windows := [(1, 6)] }, lanes := s0.lanes.set 1 { s0.lanes.get 1 with lastTick := s0.time } }; let s := { s1 with time := (duskWindow s1 1).2 - 1 }
    (s.st Reg.ALM_STATUS_PROC = 3 ∧ s.cal.squeeze = true ∧ (1 : Lane) ∈ s.cal.lanes ∧ s.laneState 1 = 2 ∧ s.dasMode 1 ≠ 1 ∧ squeezeNs s 1 ≠ 0 ∧ tBefore s.time (duskWindow s 1).2 = true ∧ (advance (duskWindow s 1).2 s).reached (duskWindow s 1).2 = true,
      does (execSqueezeWindow 1 (duskWindow s 1).2) s (fun u => u.cal.windows = [(1, 7)] ∧ u.st Reg.ALM_CAL_PROGRESS ≤ 1000 ∧
        Amap.get u.cal.acc (8 + 6) 0 = squeezeNs s 1 ∧ ([0, 1, 2, 3, 4, 5, 7].all fun j => Amap.get u.cal.acc (8 + j) 0 == Amap.get s.cal.acc (8 + j) 0) = true) &&
      does (execSqueezeWindow 1 s.time) s (fun u => u = advance s.time s)),
  fun b => let s := running 3 [0, 1] [] b
    (s.st Reg.ALM_STATUS_CAL_BUSY ≠ 0 ∧ s.reaches .s0 0x014 = true ∧ s.st Reg.ALM_STATUS_PROC = 3 ∧ s.cal.squeeze = true, does (execCalAbort .s0) s (fun u => ended 3 2 1 u ∧ u.alm = s.alm) &&
      does execSqueezeTimeout s (fun u => ended 3 2 3 u ∧ u.alm = s.alm))]

def witBackgroundAndUserValues : List (State → Bool × Bool) := [
  fun b => let s := { calAsked 3 0 (running 3 [] [] b) with alm := {} }; let s := conf [(Reg.ALM_BG_CFG_EN, 1), (Reg.ALM_TOLp_VAL.ix 0, 5)] (stat [(Reg.ALM_STATUS_CAL_STATE, 0), (Reg.SYS_SUPPLY_BELOW, 0)] s)
    (s.mode = 3 ∧ s.lv Reg.ALM_BG_CFG_EN ≠ 0 ∧ s.st Reg.ALM_STATUS_CAL_BUSY = 0 ∧ bgOff s [⟨3, 6, 6⟩] = [⟨3, 6, 6⟩] ∧ bgOff s [⟨3, 5, 5⟩] = [] ∧ bgOff s [⟨3, 5, -5⟩] = [] ∧ bgMine s [⟨3, 5, -5⟩] ≠ [] ∧ pairAgrees s 1 ⟨3, 5, -5⟩ = false ∧
      s.st Reg.SYS_SUPPLY_BELOW = 0 ∧ s.cal.railsBack = none,
      does (execBgCheck 5 9 [⟨3, 6, 6⟩] ⟨0, 0, 0, 0, 0⟩) s (fun u => u.st Reg.ALM_STATUS_CAL_STATE = 1 ∧ u.st Reg.ALM_STATUS_SUSPECT_CAUSE = 2 ∧ counts Reg.ALM_SUSPECT_ENTRIES s u ∧ raised u 0x014 2) &&
      does (execBgCheck 5 9 [⟨3, 5, -5⟩] ⟨0, 0, 0, 0, 0⟩) s (fun u => counts Reg.ALM_DISAGREES s u ∧ raised u 0x014 1 ∧ u.alm = s.alm) &&
      does (execBgCheck 5 9 [⟨3, 5, 5⟩] ⟨0, 0, 0, 0, 0⟩) (stat [(Reg.ALM_STATUS_CAL_STATE, 1)] s) (fun u => u.st Reg.ALM_STATUS_CAL_STATE = 0)),
  fun b => let s := (stat [(Reg.ALM_STATUS_CAL_BUSY, 0)] b).setWinIndex .s0 0x014 0x003; let z := (stat [(Reg.ALM_STATUS_CAL_BUSY, 0)] b).setWinIndex .s0 0x014 0xFFF
    (s.reaches .s0 0x014 = true ∧ s.winIndex .s0 0x014 = 3 ∧ almUserItem 3 = true ∧ almUserItem 0xFFF = false ∧ z.winIndex .s0 0x014 = 0xFFF,
      does (execAlmUserWrite .s0 77) s (fun u => Amap.get u.alm.user 3 0 = 77 ∧ u.alm.eff = s.alm.eff ∧ u.winIndex .s0 0x014 = 4 ∧ u.status = s.status) &&
      does (execAlmUserWrite .s0 77) z (fun u => u.alm = z.alm ∧ u.winIndex .s0 0x014 = 0 ∧ u.status = z.status)),
  fun b => let s := (running 1 [0] [] b).setWinIndex (.pcie 0) 0x014 3
    (s.reaches (.pcie 0) 0x014 = true ∧ s.winIndex (.pcie 0) 0x014 = 3 ∧ almUserItem 3 = true ∧ s.st Reg.ALM_STATUS_CAL_BUSY ≠ 0 ∧ calSets s 1 [0] 0 3 = true,
      does (execAlmUserWrite (.pcie 0) 77) s (fun u => u.alm = s.alm ∧ counts Reg.ALM_REJECTS s u ∧ raised u 0x014 4))]
/-! ### twin operation -/

/-- The claim at a stage, with PEER_ACT_IN and ACT_OUT; unit `side` of a pair. -/
def claiming (claim peer out_ side : Nat) (b : State) : State :=
  conf [(Reg.TWIN_CFG_EN, 1), (Reg.TWIN_CFG_ADDR_TAKE, 1), (Reg.TWIN_CLAIM_WAIT, 50)] (stat [(Reg.LDRV_GATE_STATUS_PEER_ACT_IN, peer), (Reg.LDRV_GATE_STATUS_ACT_OUT, out_), (Reg.TWIN_STATUS_SIDE, side),
    (Reg.SYS_MODE_STATUS_CUR, 3)] { b with twin := { claim := claim, cameFrom := 2, claimAt := b.time - nsT 20000, runAt := b.time - nsT 50000 }, merid := {} })

def witClaimsComplete : List (State → Bool × Bool) := [
  fun b => let s := claiming 1 0 0 0 b
    (s.twin.claim = 1 ∧ s.st Reg.LDRV_GATE_STATUS_PEER_ACT_IN = 0 ∧ s.st Reg.LDRV_GATE_STATUS_ACT_OUT = 0 ∧ elapsed 20 s.twin.claimAt (advance 9 s) = true,
     does (execClaimAssert 9) s fun u => u.twin.claim = 2 ∧ u.twin.claimAt = (advance 9 s).time ∧
      u.st Reg.LDRV_GATE_STATUS_ACT_OUT = 1 ∧ u.out.head? = some (.actOut true)),
  fun b => let s := { claiming 2 0 1 0 b with twin := { (claiming 2 0 1 0 b).twin with claimAt := b.time - nsT 19999, runAt := b.time - nsT 49999 } }
    (elapsed 20 s.twin.claimAt (advance 9 s) = false ∧ elapsed (s.lv Reg.TWIN_CLAIM_WAIT) s.twin.runAt (advance 9 s) = false, does (execClaimAssert 9) s (fun u => u = advance 9 s) &&
      does (execClaimHoldEnd 9) s (fun u => u = advance 9 s) && does (execTakeoverFail 9) s (fun u => u = advance 9 s)),
  fun b => let s := claiming 2 0 1 0 b; let s := { s with twin := { s.twin with takeover := some (0, 5), addrs := [(1, (5, 6, 7))] } }
    (s.twin.claim = 2 ∧ s.st Reg.LDRV_GATE_STATUS_PEER_ACT_IN = 0 ∧ elapsed 20 s.twin.claimAt (advance 9 s) = true, does (execClaimHoldEnd 9) s fun u => u.twin.claim = 3 ∧ u.st Reg.TWIN_STATUS_ROLE = 3 ∧ u.live = s.live ∧
      u.twin.adopted = [(1, (5, 6, 7))] ∧ u.twin.announces = 3),
  fun b => let s := claiming 2 1 1 0 b
    (s.twin.claim = 2 ∧ s.st Reg.LDRV_GATE_STATUS_PEER_ACT_IN ≠ 0 ∧ elapsed 20 s.twin.claimAt (advance 9 s) = true, does (execClaimHoldEnd 9) s fun u => u.twin.claim = 1 ∧ u.st Reg.LDRV_GATE_STATUS_ACT_OUT = 0),
  fun b => let s := claiming 2 0 1 1 b
    (s.twin.claim = 2 ∧ s.st Reg.TWIN_STATUS_SIDE ≠ 0 ∧ elapsed (s.lv Reg.TWIN_CLAIM_WAIT) s.twin.runAt (advance 9 s) = true, does (execBackoff 9) s (fun u => u.twin.claim = 1 ∧ u.st Reg.LDRV_GATE_STATUS_ACT_OUT = 0 ∧ counts Reg.TWIN_BACKOFFS s u ∧ raised u 0x0B0 4) &&
      does (execTakeoverFail 9) { s with twin := { s.twin with takeover := some (1, 5) } } (fun u => u.twin.claim = 0 ∧ u.twin.takeover = none ∧ u.twin.failed = some 1 ∧ u.twin.failedAt = (advance 9 s).time ∧
        u.st Reg.LDRV_GATE_STATUS_ACT_OUT = 0 ∧ counts Reg.TWIN_TAKEOVER_FAILS s u ∧ raised u 0x0B0 3)),
  fun b => let s := claiming 3 0 1 0 b
    (s.twin.claim = 3, does (execPeerClaim 9) s fun u => u.twin.claim = 3 ∧ u.st Reg.LDRV_GATE_STATUS_PEER_ACT_IN = 1 ∧ u.st Reg.LDRV_GATE_STATUS_ACT_OUT = 1 ∧ raised u 0x0B0 5),
  fun b => let s := { b with twin := { announces := 3, adopted := [(1, (5, 6, 7))] } }
    (s.twin.announces ≠ 0, does (execAddrAnnounce 9) s (fun u => u.twin.announces = 2 ∧ .announce 5 6 7 ∈ (u.port 1).stew) &&
      does (execAddrAnnounce 9) { s with twin := {} } (fun u => u = advance 9 { s with twin := {} }))]


/-- A unit of a pair whose last valid heartbeat came at time 100. -/
def paired (present : Nat) (b : State) : State :=
  conf [(Reg.TWIN_CFG_EN, 1), (Reg.TWIN_HB_N, 3), (Reg.TWIN_CFG_AUTO, 1), (Reg.TWIN_CFG_TIME_FOLLOW, 0)] (stat [(Reg.TWIN_STATUS_LINK_UP, 1), (Reg.TWIN_STATUS_PEER_PRESENT, present),
    (Reg.TWIN_STATUS_ROLE, 3), (Reg.SYS_MODE_STATUS_CUR, 3), (Reg.SYS_STEWARD_LOAD_SHEDDING, 0), (Reg.MGMT_BOOT_STATUS_RESIDENT, 0)] { b with twin := { lastBeat := some 100 }, mbox := [], merid := { started := true } })

def aBeat : Heartbeat := { role := 3, health := 77, mapSec := 5, mapSubs := 6, eventSeq := 1000, alive := true, relinquish := true }

def witHeartbeatsAndHealth : List (State → Bool × Bool) := [
  fun b => let s := paired 1 b; let s := { s with twin := { s.twin with aliveAt := some 100, dead := 2, relinquish := true } }
    (s.lv Reg.TWIN_CFG_EN ≠ 0 ∧ s.st Reg.TWIN_STATUS_LINK_UP ≠ 0, does (execHeartbeatSend 5) s (fun u => u.st Reg.TWIN_STATUS_ALIVE = 1 ∧ u.twin.dead = 0 ∧
        (match u.out with | .heartbeat hb :: _ => hb.role == 3 && hb.health == BitVec.ofNat 32 (s.st Reg.TWIN_HEALTH) && hb.alive && hb.relinquish | _ => false) = true) &&
      does (execHeartbeatSend (100 + 4000001 * 128)) s (fun u => u.st Reg.TWIN_STATUS_ALIVE = 0 ∧ u.twin.dead = 3) &&
      does (execHeartbeatReceive 9 none) s (fun u => counts Reg.TWIN_HB_MISSED s u ∧ u.twin = s.twin) &&
      does (execHeartbeatReceive 9 (some { aBeat with alive := false })) s (fun u => counts Reg.TWIN_HB_MISSED s u ∧ u.twin = s.twin) &&
      does (execTwinAlive .s0 9) s (fun u => u.twin.aliveAt = some u.time ∧ u.status = (advance 9 s).status)),
  fun b => let s := conf [(Reg.TWIN_CFG_EN, 0)] b
    (s.lv Reg.TWIN_CFG_EN = 0, does (execHeartbeatSend 9) s fun u => u = advance 9 s),
  fun b => let s := paired 0 b
    (s.lv Reg.TWIN_CFG_EN ≠ 0 ∧ peerGone s = true, does (execHeartbeatReceive 9 (some aBeat)) s fun u => u.st Reg.TWIN_STATUS_PEER_PRESENT = 1 ∧ u.st Reg.TWIN_PEER_HEALTH = 77 ∧ u.twin.lastBeat = some 9 ∧
      u.twin.peerRelinquish = true ∧ u.twin.peerSeq = 1000 ∧ raised u 0x0B0 1),
  fun b => let s := paired 1 b
    (s.twin.lastBeat = some 100 ∧ s.st Reg.TWIN_STATUS_PEER_PRESENT ≠ 0, does (execPeerLost (100 + 3000000 * 128)) s (fun u => u.st Reg.TWIN_STATUS_PEER_PRESENT = 0 ∧ raised u 0x0B0 0 ∧ u.twin = s.twin) &&
      does (execPeerLost (99 + 3000000 * 128)) s (fun u => u = advance (99 + 3000000 * 128) s)),
  fun b => let s := paired 1 b; let s := stat [(Reg.LDRV_GATE_STATUS_ACT_OUT, 1)] { s with twin := { s.twin with dead := 3 } }
    (s.st Reg.TWIN_STATUS_ROLE = 3 ∧ s.ticksRun = true ∧ s.lv Reg.TWIN_HB_N ≤ s.twin.dead, does (execSelfDemote 9) s fun u => u.st Reg.LDRV_GATE_STATUS_ACT_OUT = 0 ∧ raised u 0x0B0 9),
  fun b => let s := stat [(Reg.TWIN_STATUS_LINK_UP, 1)] b
    (s.st Reg.TWIN_STATUS_LINK_UP ≠ 0, does (execHealthWord 9) s (fun u => u.st Reg.TWIN_HEALTH = healthOf s % 2 ^ 32 ∧ u.twin.seconds = s.twin.seconds + 1) &&
      does execTwinLinkUp s (fun u => u.st Reg.TWIN_STATUS_LINK_UP = 1 ∧ u.twin = s.twin) &&
      does execTwinLinkDown s (fun u => u.st Reg.TWIN_STATUS_LINK_UP = 0 ∧ raised u 0x0B0 6 ∧ u.twin = s.twin))]


/-- A standby that may enter RUN, whose peer is lost. -/
def standby (b : State) : State :=
  let s := ready [(Reg.TWIN_CFG_EN, 1), (Reg.TWIN_CFG_AUTO, 1), (laneModeF 0, 5), (laneModeF 1, 0)] b
  stat [(Reg.SYS_MODE_STATUS_CUR, 2), (Reg.TWIN_STATUS_ROLE, 1), (Reg.TWIN_STATUS_PEER_PRESENT, 0), (Reg.SYS_STEWARD_LOAD_SHEDDING, 0), (Reg.MGMT_BOOT_STATUS_RESIDENT, 0)]
    { s with twin := { lastBeat := some 5, peerRelinquish := true, failed := some 1, failedAt := s.time - nsT 1000000000, peerSeq := 7 }, mbox := [(0, { busy := true, req := [(1, 77)] })] }

/-- `TakesOver`, decided, where the entry to RUN is admitted. -/
def takesOver (cause : Nat) (s u : State) : Bool :=
  u.mode == 3 && u.twin.claim == 1 && u.twin.takeover == some (cause, s.time) && u.twin.failed == none && u.st Reg.ZONE_EVENT_SEQ == 2 ^ 30 + 7

/-- The answer's first byte. -/
def saysFirst (k : Byte) (u : State) : Bool := ((u.mb 0).answer.any fun a => a.result == 0 && a.token == 77 && a.body.head? == some k)

def witTakeoverAndHandover : List (State → Bool × Bool) := [
  fun b => let s := standby b
    (s.mode = 2 ∧ peerGone s = true ∧ s.lv Reg.TWIN_CFG_AUTO ≠ 0 ∧ s.twin.peerRelinquish = true ∧ s.twin.failed = some 1 ∧ elapsed 1000000 s.twin.failedAt (advance 9 s) = true ∧ serves (some 0) 0x40 s ∧ entryRefusal (taking (advance 9 s)) false = none,
      does (execTakeoverTrigger 0 9) s (takesOver 0 (advance 9 s)) && does (execTakeoverTrigger 1 9) s (takesOver 1 (advance 9 s)) &&
      does (execTakeoverRetry 9) s (takesOver 1 (advance 9 s)) && does (execTakeover (some 0) 9) s (fun u => takesOver 2 (advance 9 s) u ∧ saysFirst 0 u)),
  fun b => let s := { standby b with twin := { (standby b).twin with failedAt := (standby b).time - nsT 999999999 } }
    (elapsed 1000000 s.twin.failedAt (advance 9 s) = false, does (execTakeoverRetry 9) s fun u => u = advance 9 s),
  fun b => let s := conf [(laneModeF 0, 2)] (standby b)
    (s.mode = 2 ∧ entryRefusal (taking (advance 9 s)) false = some (3, 1), does (execTakeoverTrigger 0 9) s fun u => u.mode = 2 ∧ u.st Reg.SYS_MODE_STATUS_REJECT = 3 ∧ u.st Reg.TWIN_STATUS_ROLE = 1),
  fun b => let s := stat [(Reg.SYS_MODE_STATUS_CUR, 1)] (standby b)
    (s.mode ≠ 2 ∧ serves (some 0) 0x40 s, does (execTakeoverTrigger 0 9) s (fun u => u = advance 9 s) && does (execTakeoverRetry 9) s (fun u => u = advance 9 s) &&
      does (execTakeover (some 0) 9) s (fun u => u.status = (advance 9 s).status ∧ u.twin = s.twin ∧ saysFirst 1 u)),
  fun b => let s := stat [(laneStateF 0, 0), (laneStateF 1, 2)] (paired 1 b); let s := { s with merid := {}, mbox := [(0, { req := [(1, 77)] })] }
    (s.mode = 3 ∧ s.st Reg.TWIN_STATUS_ROLE = 3 ∧ s.merid.leaving = none ∧ serves (some 0) 0x40 s ∧ s.laneState 1 ≠ 0, does (execHandover (some 0) 9) s (fun u => u.twin.relinquish = true ∧ saysFirst 0 u ∧ u.merid.leaving = some 1) &&
      does (execHandover (some 0) 9) (stat [(laneStateF 1, 0)] s) (fun u => u.twin.relinquish = true ∧ u.mode = 1) &&
      does (execHandover (some 0) 9) (stat [(Reg.TWIN_STATUS_ROLE, 1)] s) (fun u => u.status = (advance 9 (stat [(Reg.TWIN_STATUS_ROLE, 1)] s)).status ∧ u.twin = s.twin ∧ saysFirst 1 u) &&
      does (execTwinStatusOp (some 0)) s (fun u => u.status = s.status ∧ u.twin = s.twin ∧ answersWith (some 0) 0 ([0, 3, 0, 0] ++ leBytes 4 (s.st Reg.TWIN_HEALTH) ++ leBytes 4 (s.st Reg.TWIN_PEER_HEALTH)) s u))]


def witMirrorAndNightwatch : List (State → Bool × Bool) := [
  fun b => let s := { paired 1 b with alm := { user := [(3, 9)] }, mbox := [(0, { req := [(1, 77)] })] }; let s := { s with twin := { s.twin with nextSeq := 5, unacked := [(4, (9, false, .calibration []))] } }
    (s.st Reg.TWIN_STATUS_ROLE = 3 ∧ s.st Reg.TWIN_STATUS_LINK_UP ≠ 0 ∧ serves (some 0) 0x40 s, does (execMirrorSend 9 (.calibration [])) s (fun u => u.out = .mirror 5 (.calibration [(3, 9)]) :: s.out ∧ u.twin.nextSeq = 6 ∧
        Amap.find 5 u.twin.unacked = some (9, false, .calibration [(3, 9)])) &&
      does (execMirrorResend 10 4) s (fun u => u.out = .mirror 4 (.calibration []) :: s.out ∧ counts Reg.TWIN_MIRROR_RESENDS s u ∧ u.twin.unacked = [(4, (10, true, .calibration []))])),
  fun b => let s := { paired 1 b with live := [], shadow := [], cmp := {}, mbox := [(0, { req := [(1, 77)] })] }
    (s.st Reg.TWIN_STATUS_ROLE = 3 ∧ serves (some 0) 0x40 s, does (execResync (some 0) 9) s (fun u => u.live = s.live ∧ saysFirst 0 u)),
  fun b => let s := stat [(Reg.TWIN_STATUS_IN_STEP, 1)] b
    (s.st Reg.TWIN_STATUS_IN_STEP ≠ 0, does execOutOfStep s fun u => u.st Reg.TWIN_STATUS_IN_STEP = 0 ∧ raised u 0x0B0 7 ∧ u.twin = s.twin),
  fun b => let s := stat [(Reg.SYS_MODE_STATUS_CUR, 2)] { b with twin := {}, alm := { user := [(9, 9)] } }; let es := [{ ctl := ethCtl 5, body := ⟨30, 0, 0, 256, 0, []⟩, leaseS := 7, sids := [] }]


    (s.mode = 2 ∧ almUserItem 3 = true ∧ ([0x010, 0x018, 0x040, 0x0C0, 0x200].all pagePresent) = true,
      does (execMirrorReceive 9 5 (.calibration [(3, 77), (4, 0)])) s (fun u => u.alm.user = [(3, 77)] ∧ u.alm.userLive = u.alm.user ∧ u.twin.calAt = some 9) &&
      ([0x010, 0x018, 0x040, 0x0C0, 0x200].all fun p => does (execMirrorReceive 9 5 (.commitState p [] [])) s (fun u => u.st (commitState p) = 2)) &&
      does (execMirrorReceive 9 5 (.subscribers es [])) s (fun u => u.twin.entries = es ∧ u.twin.entriesAt = some 9 ∧ u.strm.subs = s.strm.subs) &&
      does (execMirrorReceive 9 5 (.codecContext 1 7 88 [])) s (fun u => Amap.get u.twin.lastSeqs 7 0 = 88 ∧ Amap.find 7 u.twin.ctxAt = some 9 ∧ u.cmp = s.cmp) &&
      does (execMirrorReceive 9 5 (.zcImage 5 [])) s (fun u => u.twin.images = 5 ∧ u.mem = s.mem) &&
      does (execMirrorReceive 9 5 (.addresses 1 5 6 7)) s (fun u => u.twin.addrs = [(1, (5, 6, 7))])),
  fun b => let s := conf [(Reg.TWIN_NW_TESTS, 0x3F)] (stat [(Reg.SYS_MODE_STATUS_CUR, 2)] { b with twin := { pass := 1, ran := 0, injFail := 0 } })
    (s.mode = 2 ∧ s.lv Reg.TWIN_NW_TESTS = 0x3F, does (execNwTest 0 false 7) s (fun u => u.twin.pass = 0 ∧ u.twin.ran = 1 ∧ u.twin.injFail = 0x80 ∧ counts Reg.TWIN_NW_FAILS s u ∧ raised u 0x0B0 8 ∧ u.live = s.live) &&
      does (execNwTest 5 true 0) s (fun u => u.twin.pass = 0x21 ∧ u.twin.ran = 0x20 ∧ u.twin.injFail = 0 ∧ u.status = s.status))
]
/-! ### B50 mode -/

/-- B50 mode with lane L0 in a state, its window at reset values but for `l`, channel 0 as given. -/
def b50Up (lane chan : Nat) (c : DmaChan) (l : List (Fld × Nat)) (b : State) : State :=
  let keep := fun (k : Nat) => decide (k < 131072)
  stat [(Reg.SYS_MODE_STATUS_CUR, 5), (laneStateF 0, lane), (Reg.DMACHn_STATUS_STATE.pg 0, chan), (Reg.TBASE_STATUS_PLL_LOCK, 1), (Reg.MEMCn_STATUS_READY.pg 0, 1),
    (Reg.MEMCn_STATUS_READY.pg 1, 1)]
    (conf l { b with live := Amap.drop keep b.live, shadow := Amap.drop keep b.shadow, b50 := {}, strm := {}, cmp := {}, pcie := { chans := [(0, c)] }, poison := [] })

/-- The ring's stream holds one record of 300 bytes. -/
def b50Record (b : State) : State :=
  { b with
    strm := { streams := [{ sid := 1, slot := 0, sel := ⟨0x10, 0, 0, 0, 0, 0⟩ }], subs := [(0, { st := 2, path := .mailbox 0, chan := 0, sels := [{ sid := 1, wait := false, started := true, todo := [0] }] })] }
    cmp := { slots := [(0, { bound := true, sid := 1, pass := true, recs := [{ seq := 0, start := 0, opens := true, no := 1, done := 1, bytes := List.replicate 300 7 }] })] } }

/-- 16 bytes of a ring descriptor: ADDR, LEN and CTRL, STATUS (R426). -/
def ringDesc (a n st : Nat) : List Byte := leBytes 8 a ++ leBytes 4 n ++ leBytes 4 st

/-- `RingRead`, decided. -/
def ringTook (a n : Nat) (u : State) : Bool :=
  u.chanState 0 == 1 && !(u.chan 0).fetch && u.st (Reg.DMACHn_STATUS_WAITING_DATA.pg 0) == 1 && (u.chan 0).off == 0 &&
  ((u.chan 0).desc.any fun d => d.addr == a && d.len == n)
def ringHalted (e : Nat) (u : State) : Bool := u.chanState 0 == 3 && u.st Reg.B50_DMA_STATUS_STATE == 3 && u.st (Reg.DMACHn_STATUS_ERR.pg 0) == e

/-- A start that R535 admits. -/
def goodStart : List (Fld × Nat) :=
  [(Reg.B50_PERIOD, 40000), (Reg.B50_IF, 100000), (Reg.B50_RX_BW, 1), (Reg.B50_POINTS, 100), (Reg.B50_SPACING, 10), (Reg.B50_GAUGE, 4), (Reg.B50_TAU0, 1000), (Reg.B50_PULSE, 100), (Reg.B50_CTRL_REF_EN, 0)]

def witB50LaneRuns : List (State → Bool × Bool) := [
  fun b => let s := b50Up 0 0 {} goodStart b
    (s.mode = 5 ∧ s.reaches .s0 0 = true ∧ s.laneState 0 = 0 ∧ b50Refusal s = none, does (execB50Run .s0 9) s fun u => u.laneState 0 = 1 ∧ u.lv Reg.B50_CTRL_RUN = 1 ∧
      u.st Reg.B50_STATUS_REJECT = 0 ∧ u.st Reg.B50_FRAMES = 0 ∧ u.twin.claim = 1 ∧ u.st Reg.MERID_STATUS_RUNNING = 1 ∧ u.mode = 5),
  fun b => let s := b50Up 0 0 {} (goodStart ++ [(Reg.B50_IF, 27499)]) b
    (s.mode = 5 ∧ s.reaches .s0 0 = true ∧ s.laneState 0 = 0 ∧ b50Refusal s = some 2, does (execB50Run .s0 9) s fun u => u.laneState 0 = 0 ∧ u.lv Reg.B50_CTRL_RUN = 0 ∧
      u.st Reg.B50_STATUS_REJECT = 2 ∧ u.st Reg.B50_IRQ_STATUS / 2 ^ 7 % 2 = 1),
  fun b => let s := b50Up 3 0 {} [] b
    (s.mode = 5 ∧ s.laneState 0 = 3, does (execB50Run .s0 9) s (fun u => u.b50.again = true ∧ u.laneState 0 = 3) &&
      does (execB50Stop .s0 9) s (fun u => u.b50.stop = true ∧ u.b50.again = false ∧ u.lv Reg.B50_CTRL_RUN = 0 ∧ u.laneState 0 = 3) &&
      does (execB50SoftReset .s0) s (fun u => u = s)),
  fun b => let s := b50Up 0 1 { fetch := true } [(Reg.B50_TAU0, 77)] b
    (s.mode = 5 ∧ s.laneState 0 = 0, does (execB50SoftReset .s0) s fun u => u.chanState 0 = 0 ∧ u.mode = 5 ∧ u.lv Reg.B50_TAU0 = Reg.B50_TAU0.reset ∧
      ((Reg.pageFields 0).all fun f => u.lv f == f.reset && u.sh f == f.reset) = true),
  fun b => let s := stat [(Reg.B50_IRQ_STATUS, 0xF0)] (b50Up 0 0 {} [] b)
    (s.mode = 5 ∧ s.reaches .s0 0 = true, does (execB50IrqClear .s0 0x30 0x41) s fun u => u.live = s.live ∧ u.st Reg.B50_IRQ_STATUS = 0xC1),
  fun b => let s := b50Up 2 0 {} (goodStart ++ [(Reg.B50_POINTS, 2), (Reg.B50_GAUGE, 1), (Reg.B50_REC_FRAMES, 5)]) { b with shots := ⟨{ shots := [aShot 7 0 true] }, {}⟩ }
    (s.mode = 5 ∧ (oldestShot s 0 0).map (·.id) = some 7, does (execB50Shot (List.replicate 64 5)) s fun u => counts Reg.B50_FRAMES s u ∧ (u.shots.get 0).shots = []),
  fun b => let s := b50Up 2 0 {} (goodStart ++ [(Reg.B50_POINTS, 2), (Reg.B50_GAUGE, 1), (Reg.B50_REC_FRAMES, 1)]) { b with shots := ⟨{ shots := [aShot 7 0 true] }, {}⟩, regions := [(4, (0, 64))] }
    (s.mode = 5 ∧ (oldestShot s 0 0).map (·.id) = some 7, does (execB50Shot (List.replicate 64 5)) s fun u => counts Reg.B50_FRAMES s u ∧ (u.shots.get 0).shots = []),
  fun b => let s := b50Up 2 0 {} [] { b with shots := ⟨{}, {}⟩ }
    (s.mode = 5 ∧ oldestShot s 0 0 = none, does (execB50Shot [5]) s fun u => u = s)]

def witB50RingRuns : List (State → Bool × Bool) := [
  fun b => let s := b50Up 0 0 {} [(Reg.B50_RING_LO, 0x40), (Reg.B50_RING_HI, 1)] b
    (s.mode = 5 ∧ s.reaches .s0 0 = true ∧ s.chanState 0 = 0, does (execB50DmaEn .s0) s fun u => u.chanState 0 = 1 ∧ u.st Reg.B50_DMA_STATUS_STATE = 1 ∧ u.st Reg.B50_DMA_STATUS_INDEX = 0 ∧
      u.lv Reg.B50_DMA_CTRL_EN = 1 ∧ u.out = .hostRead 0 0x100000040 16 :: s.out),
  fun b => let s := b50Up 0 1 {} [(Reg.B50_RING_LO, 0x40), (Reg.B50_RING_HI, 1)] b; let s := { s with b50 := { idx := 2 } }
    (s.chanState 0 ≠ 0 ∧ b50Waits s = true, does (execB50DmaEn .s0) s (fun u => u = s) &&
      gives (.b50DescPoll (.ok (ringDesc 0x5000 0x03000100 0x80000000))) s (fun u => ringTook 0x5000 0x100 u ∧ u.out = .hostRead 0 0x100000060 16 :: s.out) &&
      does (execB50Doorbell .s0 (.ok (ringDesc 0x5000 0x100 0x7FFFFFFF))) s (fun u => u.st (Reg.DMACHn_STATUS_WAITING_DESC.pg 0) = 1 ∧ u.chanState 0 = 1 ∧ u.out = .hostRead 0 0x100000060 16 :: s.out) &&
      gives (.b50DescPoll .failed) s (fun u => ringHalted 1 u) && does (execB50Doorbell .s0 .poisoned) s (fun u => ringHalted 2 u)),
  fun b => let s := b50Up 0 1 { fetch := true } [] b
    (s.mode = 5 ∧ s.chanState 0 = 1 ∧ (s.chan 0).fetch = true, gives (.descFetch 0 (.ok (ringDesc 0x5000 0x03000100 0x80000000))) s (ringTook 0x5000 0x100) &&
      gives (.descFetch 0 .poisoned) s (ringHalted 2)),
  fun b => let s := stat [(Reg.DMACHn_HELD.pg 0, 2)] (b50Up 0 3 {} [] b)
    (s.mode = 5 ∧ s.chanState 0 = 3, does (execB50DmaAbort .s0) s fun u => u.chanState 0 = 0 ∧ u.lv Reg.B50_DMA_CTRL_EN = 0 ∧ u.st Reg.B50_IRQ_STATUS % 4 = 3 ∧ u.st (Reg.DMACHn_HELD.pg 0) = 0 ∧ u.mem = s.mem),
  fun b => let d : Desc := ⟨0x5000, 400, 0, 0⟩; let s := b50Record (b50Up 0 1 { desc := some d } [] b)
    (s.mode = 5 ∧ s.chanState 0 = 1 ∧ (s.chan 0).desc ≠ none ∧ (nextRec s 0).isSome = true, does (execB50DmaAbort .s0) s fun u => u.chanState 0 = 2 ∧ u.out = s.out),
  fun b => let s := b50Up 0 2 { desc := some ⟨0x5000, 400, 0, 0⟩ } [] b
    (s.mode = 5 ∧ s.chanState 0 = 2 ∧ s.asleep 0 = false, gives (.abortDone 0) s fun u => u.chanState 0 = 0 ∧ u.lv Reg.B50_DMA_CTRL_EN = 0 ∧ u.st Reg.B50_IRQ_STATUS % 4 = 3)]
/-! ### register pages -/

def witStatusCountersAndPairs : List (State → Bool × Bool) := [
  fun b => let s := stat [(irqStatus 0x012, 0x800000F0)] b
    (s.reaches .s0 0x012 = true ∧ pagePresent 0x012 = true, does (execIrqStatusClear .s0 0x012 0x80000030 0x41) s fun u => u.live = s.live ∧ u.st (irqStatus 0x012) = 0xC1),
  fun b => let s := stat [(Reg.STRM_EXPIRED, 9)] b
    (s.reaches .s0 0x090 = true ∧ (wordFields 0x090 Reg.STRM_EXPIRED.off).find? (fun f => f.ty == .rc) = some Reg.STRM_EXPIRED, does (execRcRead .s0 0x090 Reg.STRM_EXPIRED.off 2) s (fun u =>
        u.req.data = 7 ∧ u.st Reg.STRM_EXPIRED = 2 ∧ u.status = (s.setSt Reg.STRM_EXPIRED 2).status) &&
      does (execRcRead .s0 0x090 Reg.STRM_EXPIRED.off 11) s (fun u => u.req.data = 0 ∧ u.st Reg.STRM_EXPIRED = 9)),
  fun b => let f := Reg.SYS_SUPPLY_MINj.ix 1; let s := stat [(f, 700)] b
    (f.off = 0x824 ∧ (wordFields 0x010 0x824).find? (fun f => f.ty == .rc) = some f, does (execRcRead .s0 0x010 0x824 1200) s fun u => u.req.data = 700 ∧ u.st f = 1200),
  fun b => let s := { b with req := {} }
    (s.reaches .s0 0x012 = true, does (execPairLoRead .s0 0x012 0x800) s fun u => u.req.data = BitVec.ofNat 32 (readWord s .s0 0x012 0x800) ∧ u.status = s.status ∧ u.live = s.live ∧
      u.snapOf .s0 (regAddr 0x012 0x804) = some (BitVec.ofNat 32 (readWord s .s0 0x012 0x804)) ∧ readWord u .s0 0x012 0x804 = readWord s .s0 0x012 0x804),
  fun b => (b.reaches .s0 0x011 = true ∧ b.reaches .s1 0x201 = true ∧ b.reaches .s0 0x07F = true, does (execPairHiWrite .s0 0x011 0x05C 0x1FE) b (fun u =>
        u.staged .s0 (regAddr 0x011 0x05C) = some 0xFE ∧ u.live = b.live ∧ u.zc = b.zc) &&
      does (execPairHiWrite .s0 0x07F 0xC08 0x1FE) b (fun u => u.staged .s0 (regAddr 0x07F 0xC08) = some 0xFE ∧ u.live = b.live ∧ u.zc = b.zc) &&
      does (execPairHiWrite .s1 0x201 0x060 0x12345678) b (fun u => u.staged .s1 (regAddr 0x201 0x060) = some 0x12345678 ∧ u.live = b.live ∧ u.stew = b.stew)),
  fun b => let s := ({ b with req := {} }).stageWord .s1 (regAddr 0x201 0x060) 5; let z := conf [(Reg.ICUTt_TIMER_HI.pg 0, 3)] { b with req := {} }
    (s.reaches .s1 0x201 = true, does (execPairLoWrite .s1 9 0x201 0x05C 0xFFFFFFFF) s (fun u => u.lv (Reg.ICUTt_TIMER_LO.pg 1) = 0xFFFFFFFF ∧ u.lv (Reg.ICUTt_TIMER_HI.pg 1) = 5 ∧
        u.staged .s1 (regAddr 0x201 0x060) = none) &&
      does (execPairLoWrite .s0 9 0x200 0x05C 7) z (fun u => u.lv (Reg.ICUTt_TIMER_LO.pg 0) = 7 ∧ u.lv (Reg.ICUTt_TIMER_HI.pg 0) = 3)),
  fun b => (b.reaches .s0 0x011 = true, does (execPairLoWrite .s0 9 0x011 0x058 77) b fun u => gives (.applyTickWrite .s0 9 77) b fun v => u = v),
  fun b => let s := (({ coreIn 4 {} b with req := {} }).stageWord .s0 (regAddr 0x043 0xC08) 0xAB).setWinIndex .s0 0x043 0x10FFF; let z := ({ coreIn 4 { xm := [(0, 2 ^ 36)] } b with req := {} }).setWinIndex .s0 0x043 0x10000
    (s.winIndex .s0 0x043 = 0x10FFF ∧ z.winIndex .s0 0x043 = 0x10000, does (execPairLoWrite .s0 9 0x043 0xC04 5) s (fun u => Amap.get (u.core 3).xm 0xFFF 0 = 0xAB00000005 ∧
        u.winIndex .s0 0x043 = 0x11000 ∧ (u.core 3).pm = (s.core 3).pm) &&
      does (execPairLoWrite .s0 9 0x043 0xC04 5) z (fun u => Amap.get (u.core 3).xm 0 0 = 2 ^ 36 + 5 ∧ u.winIndex .s0 0x043 = 0x10001))]


def witWritesByAddress : List (State → Bool × Bool) := [
  fun b => (b.reaches .s0 0x300 = true ∧ pagePresent 0x300 = false ∧ pagePresent 0x012 = true, does (execRegisterWrite .s0 9 0x300 0x040 5) b (fun u => u = advance 9 b) &&
      does (execRegisterWrite .s0 9 0x012 0x042 5) b (fun u => u = advance 9 b) && does (execRegisterWrite .s0 9 0x012 0x1000 5) b (fun u => u = advance 9 b)),
  fun b => (b.reaches .s0 0x012 = true ∧ pagePresent 0x012 = true, does (execRegisterWrite .s0 9 0x012 0x014 0xFFFFFFFF) b (fun u => u.lv (irqEnable 0x012) = 0xFFFFFFFF ∧ u.status = (advance 9 b).status) &&
      does (execRegisterWrite .s0 9 0x0A0 0x040 0x12345) b (fun u => u.lv Reg.ICU_STRAND_TIME = 0x2345 ∧ u.sh Reg.ICU_STRAND_TIME = 0x2345 ∧ u.status = (advance 9 b).status) &&
      does (execRegisterWrite .s0 9 0x014 0x048 0x12345) b (fun u => u.sh Reg.ALM_SQZ_LIMIT = 0x2345 ∧ u.live = b.live ∧ u.status = (advance 9 b).status)),
  fun b => (b.reaches .s0 0x0A0 = true ∧ b.reaches .s0 0x012 = true, does (execRegisterWrite .s0 9 0x0A0 0x044 0x105) b (fun u => gives (.icuSwSet .s0 0x105) (advance 9 b) fun v => u = v) &&
      does (execRegisterWrite .s0 9 0x012 0x050 5) b (fun u => gives (.epochSet .s0 9 5) (advance 9 b) fun v => u = v) &&
      does (execRegisterWrite .s0 9 0x012 0x010 5) b (fun u => does (execIrqStatusClear .s0 0x012 5 0) (advance 9 b) fun v => u = v) &&
      does (execRegisterWrite .s0 9 0x012 0x018 5) b (fun u => gives (.pageCommit .s0 9 0x012 5) (advance 9 b) fun v => u = v)),
  fun b => let s := ({ b with req := {} }).setWinIndex .s0 0x038 0xFFFF
    (s.winIndex .s0 0x038 = 0xFFFF, does (execWindowAccess .s0 0x038 0xC00 (some 0xFFFFFFFF)) s (fun u => u.winIndex .s0 0x038 = indexMask 0x038 0xC00 ∧ u.live = s.live ∧ u.status = s.status) &&
      does (execWindowAccess .s0 0x038 0xC00 none) s (fun u => u = s.answer 0xFFFF) &&
      does (execWindowAccess .s0 0x038 0xC04 none) s (fun u => u.req.data = BitVec.ofNat 32 (winWord s .s0 0x038 0xC04 0xFFFF) ∧ u.winIndex .s0 0x038 = 0 ∧ u.live = s.live ∧ u.status = s.status) &&
      does (execWindowAccess .s0 0x038 0x800 (some 5)) s (fun u => u = s)),
  fun b => let s := { ({ b with req := {} }).setWinIndex .s0 0x011 7 with budget := [(7, (40, 90))] }
    (s.reaches .s0 0x011 = true ∧ s.winIndex .s0 0x011 = 7, does (execWindowAccess .s0 0x011 0xC04 none) s (fun u => u.req.data = 40 ∧ u.status = s.status ∧ u.live = s.live) &&
      does (execWindowAccess .s0 0x011 0xC08 none) s (fun u => u.req.data = 90 ∧ Amap.get u.budget 7 (0, 0) = (40, 0))),
  fun b => let s := ({ coreIn 4 { bad := [9], xm := [(9, 77)] } b with req := {} }).setWinIndex .s0 0x043 0x10009
    (s.winIndex .s0 0x043 = 0x10009 ∧ (s.core 3).bad.contains 9 = true, does (execWindowAccess .s0 0x043 0xC04 none) s fun u => u.req.data = 0 ∧ counts Reg.SYS_SRAM_UE s u),
  fun b => let s := ({ b with req := {} }).setWinIndex .s0 0x080 3
    (s.reaches .s0 0x080 = true ∧ s.winIndex .s0 0x080 = 3, does (execWindowAccess .s0 0x080 0xC08 (some 0x10005)) s fun u => (u.ctx 3).quota = 5 ∧ u.live = s.live ∧ u.status = s.status),
  fun b => let s := conf [(Reg.ICU_STRAND_TIME, 77)] (stat [(Reg.SYS_MODE_STATUS_CUR, 1)] b)
    (pagePresent 0x0A0 = true ∧ pageIdle s 0x0A0 = true, does (execPageSoftReset .s0 0x0A0) s fun u => ((Reg.pageFields 0x0A0).all fun f => u.sh f == f.reset) = true ∧
      u.lv Reg.ICU_STRAND_TIME = Reg.ICU_STRAND_TIME.reset),
  fun b => let s := stat [(Reg.SYS_MODE_STATUS_CUR, 3)] b
    (pagePresent 0x0A0 = true ∧ pageIdle s 0x0A0 = false, does (execPageSoftReset .s0 0x0A0) s fun u => u.st (pageResetRejected 0x0A0) = 1 ∧ u.live = s.live ∧ u.shadow = s.shadow),
  fun b => (b.reaches .s0 0x010 = true, does (execPageSoftReset .s0 0x010) b fun u => does (execSysSoftReset .s0) b fun v => u = v)]
/-! ### resets, start-up, supplies, temperature -/

/-- Start-up with good eyes on channel 0. -/
def anEnv : StartEnv :=
  { refPresent := true, eyes0 := List.replicate 9 (400, 400), eyes1 := [], dipTimeout := false, pairs := [], fig := ⟨0, 0, 0, 0, 0⟩, calDip := false, startTimeUs := 300000 }

/-- The device in RESET for a cause, with straps. -/
def inReset (cause compat sel : Nat) (b : State) : State :=
  stat [(Reg.SYS_MODE_STATUS_CUR, 0), (Reg.SYS_RESET_CAUSE_CAUSE, cause), (Reg.SYS_STRAPS_COMPAT, compat), (Reg.SYS_STRAPS_BOOT_SEL, sel)] b

def witResetsAndStartUp : List (State → Bool × Bool) := [
  fun b => (true, does (execPor ⟨true, false, 2⟩) b (fun u => u.mode = 0 ∧ u.live = [] ∧ u.shadow = [] ∧ u.mem = [] ∧ u.time = 0 ∧ u.zc = [] ∧ u.strm = State.reset.strm ∧
      (u.st Reg.SYS_RESET_CAUSE_CAUSE = 1 ∧ u.st Reg.SYS_STRAPS_SIDE = 1 ∧ u.st Reg.SYS_STRAPS_COMPAT = 0 ∧
      u.st Reg.SYS_STRAPS_BOOT_SEL = 2 ∧ u.flash = b.flash ∧ u.alm.factory = b.alm.factory ∧ u.st Reg.LDRV_GATE_STATUS_ACT_OUT = 0)) &&
    does (execResetN ⟨true, true, 2⟩) b (fun u => u.mode = 0 ∧ u.live = [] ∧ u.shadow = [] ∧ u.mem = [] ∧ u.time = 0 ∧
      u.st Reg.SYS_RESET_CAUSE_CAUSE = 2 ∧ u.st Reg.SYS_STRAPS_SIDE = b.st Reg.SYS_STRAPS_SIDE % 2 ∧ u.st Reg.SYS_STRAPS_COMPAT = 1 ∧ u.flash = b.flash) &&
    does (execSupplyReset .ahi) b (fun u => u.mode = 0 ∧ u.live = [] ∧ u.shadow = [] ∧ u.mem = [] ∧ u.st Reg.SYS_RESET_CAUSE_CAUSE = 3 ∧ u.st Reg.SYS_RESET_CAUSE_RAIL = 2 ∧ u.flash = b.flash)),
  fun b => (b.reaches .s0 0x010 = true, does (execSysSoftReset .s0) b fun u => u.mode = 0 ∧ u.shadow = [] ∧ u.mem = b.mem ∧ u.time = b.time ∧ u.st Reg.SYS_RESET_CAUSE_CAUSE = 4 ∧
      u.flash = b.flash ∧ u.st Reg.LDRV_GATE_STATUS_ACT_OUT = 0 ∧ u.st Reg.SYS_STRAPS_COMPAT = b.st Reg.SYS_STRAPS_COMPAT),
  fun b => let s := inReset 1 0 3 b
    (s.mode = 0 ∧ s.st Reg.SYS_RESET_CAUSE_CAUSE ≠ 4 ∧ (bootStep s).2 = false, does (execStartUp anEnv) s fun u => u.mode = 0 ∧ u.live = s.live ∧ u.mem = s.mem),
  fun b => let s := inReset 4 0 1 b; let z := inReset 4 1 1 b
    (s.mode = 0 ∧ s.st Reg.SYS_RESET_CAUSE_CAUSE = 4 ∧ z.mode = 0, does (execStartUp anEnv) s (fun u => u.mode = 1 ∧ u.st Reg.SYS_START_STEP = 7 ∧ u.time = s.time) &&
      does (execStartUp anEnv) z (fun u => u.mode = 5 ∧ u.st Reg.SYS_START_STEP = 7 ∧ u.time = s.time))]

def witSuppliesAndTemperature : List (State → Bool × Bool) := [
  fun b => let s := conf [(Reg.SYS_SUPPLY_LIGHT_HOLD, 1)] (stat [(Reg.SYS_SUPPLY_BELOW, 1), (Reg.SYS_SUPPLY_MINj.ix 1, 1100)] { b with memc := ⟨{ training := true }, {}⟩ })
    (s.lv Reg.SYS_SUPPLY_LIGHT_HOLD ≠ 0, does (execDip .ddr 1050 9) s fun u => u.st Reg.SYS_SUPPLY_DIP = 1 ∧ u.st Reg.SYS_SUPPLY_BELOW = 3 ∧ counts Reg.SYS_DIP_DDR s u ∧ raised u 0x010 1 ∧
      u.st (Reg.SYS_SUPPLY_MINj.ix 1) = 1050 ∧ u.st Reg.ALM_STATUS_CAL_STATE ≠ 0 ∧ (u.memc.get 0).training = false ∧ ((u.memc.get 1).training = false ∧ u.st Reg.SYS_SUPPLY_HOLDING ≠ 0 ∧ u.holds.fst = true ∧ u.mem = s.mem)),
  fun b => let s := stat [(Reg.SYS_SUPPLY_BELOW, 4), (Reg.SYS_SUPPLY_DIP, 1)] b; let z := stat [(Reg.SYS_SUPPLY_BELOW, 5), (Reg.SYS_SUPPLY_DIP, 1)] b
    (s.st Reg.SYS_SUPPLY_BELOW = 4 ∧ s.st Reg.SYS_SUPPLY_DIP ≠ 0 ∧ z.st Reg.SYS_SUPPLY_BELOW = 5, does (execRecover .ahi 9) s (fun u => u.st Reg.SYS_SUPPLY_DIP = 0 ∧ u.st Reg.SYS_SUPPLY_BELOW = 0 ∧ raised u 0x010 3 ∧
        u.cal.railsBack = some 9) &&
      does (execRecover .ahi 9) z (fun u => u.st Reg.SYS_SUPPLY_DIP = 1 ∧ u.st Reg.SYS_SUPPLY_BELOW = 1)),
  fun b => let s := stat [(Reg.SYS_SUPPLY_DIP, 0), (Reg.SYS_SUPPLY_HOLDING, 1)] { b with holds := ⟨true, false⟩, cal := { railsBack := some 100 } }
    (s.holds.fst = true ∧ s.holds.snd = false ∧ s.st Reg.SYS_SUPPLY_DIP = 0, does (execLightHoldEnd (100 + 12800000)) s (fun u => u.holds = ⟨false, false⟩ ∧ u.st Reg.SYS_SUPPLY_HOLDING = 0) &&
      does (execLightHoldEnd (99 + 12800000)) s (fun u => u = advance (99 + 12800000) s)),
  fun b => let s := conf [(Reg.SYS_THERM_WARN, 100)] b
    (s.lv Reg.SYS_THERM_WARN = 100, does (execThermWarn [99900, -4000000, 100000, 460]) s (fun u => raised u 0x010 4 ∧ ([0, 1, 2, 3].map fun k => u.stS (Reg.SYS_TEMPk.ix k)) = [999, -32768, 1000, 5]) &&
      does (execThermWarn [99900]) s (fun u => u.st (irqStatus 0x010) = s.st (irqStatus 0x010)) &&
      does (execThermTrip [0, 115000]) s (fun u => u.st Reg.SYS_THERM_STATUS_TRIP = 1 ∧ raised u 0x010 5 ∧ u.holds.snd = true ∧ u.st Reg.SYS_SUPPLY_HOLDING ≠ 0)),
  fun b => let s := conf [(Reg.SYS_THERM_WARN, 100)] (stat [(Reg.SYS_THERM_STATUS_TRIP, 0), (Reg.SYS_SUPPLY_HOLDING, 1)] { b with holds := ⟨false, true⟩ })
    (s.holds.snd = true ∧ s.st Reg.SYS_THERM_STATUS_TRIP = 0, does (execThermHoldEnd [94900]) s (fun u => u.holds = ⟨false, false⟩ ∧ u.st Reg.SYS_SUPPLY_HOLDING = 0) &&
      does (execThermHoldEnd [95000]) s (fun u => u.holds.snd = true))]


/-- Start-up with a valid image in slot A; it takes longer to check. -/
def witBoot : List (State → Bool × Bool) := [
  fun b => let s := inReset 1 0 0 (keyed b); let s := { s with flash := { s.flash with slots := ⟨image, []⟩ } }
    (s.mode = 0 ∧ s.st Reg.SYS_RESET_CAUSE_CAUSE ≠ 4 ∧ (bootStep s).2 = true, does (execStartUp anEnv) s fun u => u.mode = 1 ∧ u.time = 0 ∧ u.st Reg.SYS_START_STEP = 7 ∧
      u.st Reg.SYS_START_TIME = 300000 ∧ u.st Reg.TBASE_STATUS_PLL_LOCK = 1)]

/-! ### the whole machine -/

/-- MemoryStaysCanonical and StepRunsTheFrontCommand: a step that stores; the stored bytes read back, the neighbour still reads 0. -/
def storing (b : State) : State :=
  stat [(Reg.MEMCn_CAPACITY.pg 0, 4096), (Reg.MEMCn_CAPACITY.pg 1, 0)] { b with pending := [.memcRequest 0 .bar2 true 64 [7, 0, 9], .zqShort 0] }

theorem test_memoryStaysCanonical :
    memWf (storing State.reset).mem = true ∧ (match step (storing State.reset) with
      | .next t => t.mem == [(64, 7), (66, 9)] && memWf t.mem && memRead t 63 5 == [0, 7, 0, 9, 0] && t.pending == [.zqShort 0]
      | _ => false) = true := by decide +kernel

theorem test_memoryForgetsZeros :
    (memWrite 64 [0, 5] (memWrite 64 [7, 0, 9] State.reset)).mem = [(65, 5), (66, 9)] := by decide +kernel

/-- An empty queue. -/
theorem test_emptyQueueIdles : (match step State.reset with | .next t => t == State.reset | _ => false) = true := by decide +kernel

/-- StorageChangesOnlyByItsCommands and ServiceCommandsKeepTheRest: a command of each kind answers. -/
theorem test_frames :
    (storesTo (.zqShort 0) = false ∧ programs (.zqShort 0) = false ∧ gives (.zqShort 0) State.reset (fun _ => true) = true) ∧
    (storesTo (.dlLock 5) = false ∧ does (execDlLock 5) State.reset (fun u => u.mem == State.reset.mem) = true) := by decide +kernel

/-- ZoneInstructionsKeepTheRest: ADD issues. -/
theorem test_zoneFrame :
    issuing 3 (.add 3 2 0 1) (coreUp (.add 3 2 0 1) [(0, 1), (1, 2)] State.reset) = true ∧ zoneWrites (.add 3 2 0 1) = some [zX 0] ∧
    gives (.add 3 2 0 1) (coreUp (.add 3 2 0 1) [(0, 1), (1, 2)] State.reset) (fun u => u.core 4 == {}) = true := by decide +kernel

/-- B50IsLeftOnlyByReset: in B50 mode a mode write stays, a reset leaves. -/
theorem test_b50Leaves :
    (stat [(Reg.SYS_MODE_STATUS_CUR, 5)] State.reset).mode = 5 ∧
    gives (.modeRun .s0 5) (stat [(Reg.SYS_MODE_STATUS_CUR, 5)] State.reset) (fun u => u.mode == 5) = true ∧
    does (execPor ⟨false, false, 0⟩) (stat [(Reg.SYS_MODE_STATUS_CUR, 5)] State.reset) (fun u => u.mode == 0) = true := by decide +kernel

/-- ZoneCodeReadsBack. -/
theorem test_zoneCode : zcEncode (.loopi 63 170 0x206) = some (63, 0x14154206) ∧ zcDecode 63 0x14154206 = some (.loopi 63 170 0x206) := by decide +kernel

/-! ### encodings, written out from R298 to R301 -/

theorem test_decode_parallel : zcDecode 3 0xC8212200 = some (.mac 3 ⟨0, 0, .m, 0, .m, .ss, true, 0, .inc, 0, false, 0, .none, 0⟩) := by decide
theorem test_decode_register : zcDecode 3 0x88747FFF = some (.addi 3 3 5 0x7FFF) := by decide
theorem test_decode_pointer : zcDecode 3 0xB2C80002 = some (.st 3 6 2 .dec) := by decide
theorem test_decode_control : zcDecode 3 0x05401ABC = some (.br 3 .gt 0x1ABC) := by decide
theorem test_decode_reserved : zcDecode 3 0x9D000000 = none := by decide

/-! ### well-formedness: a command that each check refuses, and one that it takes -/

theorem test_wf_bus : wellFormed (.pageCommit .s0 0 0x1000 0) = false ∧ wellFormed (.pageCommit .s0 0 0x0FF 0) = true := by decide
theorem test_wf_aligned : wellFormed (.registerWrite .s0 0 0x10 0x42 0) = false ∧ wellFormed (.registerWrite .s0 0 0x10 0x44 0) = true := by decide
theorem test_wf_window : wellFormed (.windowAccess .s0 0x13 0x800 none) = false ∧ wellFormed (.windowAccess .s0 0x13 0xC08 none) = true := by decide
theorem test_wf_all : wellFormed (.phzProcess 0 0 [262144] noSram) = false ∧ wellFormed (.phzProcess 0 0 [262143] noSram) = true := by decide
theorem test_wf_codes : wellFormed (.traceFrame 0 [[2048], [], [], []]) = false ∧ wellFormed (.traceFrame 0 [[-2048], [], [], []]) = true := by decide
theorem test_wf_channels : wellFormed (.traceFrame 0 [[], [], []]) = false := by decide
theorem test_wf_means : wellFormed (.loopUpdate 0 [[1, 2, 3, 4, 5]]) = false ∧ wellFormed (.loopUpdate 0 [[1, 2, 3, 4, 5, 65535]]) = true := by decide
theorem test_wf_check : wellFormed (.outputCheck (.pump 0 1700 65536)) = false ∧ wellFormed (.outputCheck (.pump 0 1700 65535)) = true := by decide
theorem test_wf_faultPage : wellFormed (.faultClear .s0 0x019 0) = false ∧ wellFormed (.faultClear .s0 0x01B 0) = true := by decide
theorem test_wf_raman : wellFormed (.ramanReturn 0 [8192] [] [] [] noSram) = false ∧ wellFormed (.ramanReturn 0 [-8192] [] [] [] noSram) = true := by decide
theorem test_wf_eyes : wellFormed (.trainDone 0 [] 0 0) = false ∧ wellFormed (.trainDone 0 (List.replicate 9 (1, 1)) 0 0) = true := by decide
theorem test_wf_request : wellFormed (.memcRequest 0 .bar2 true 60 [1, 2, 3, 4, 5]) = false ∧ wellFormed (.memcRequest 0 .bar2 true 60 [1, 2, 3, 4]) = true := by decide
theorem test_wf_ctl : wellFormed (.hello 0 ⟨.eth 0 5 65536, 0, 0, none⟩) = false ∧ wellFormed (.hello 0 ⟨.eth 0 5 65535, 0, 0, none⟩) = true := by decide
theorem test_wf_body : wellFormed (.subscribe 0 ⟨.mailbox 0, 0, 0, none⟩ ⟨65536, 0, 0, 0, 0, []⟩) = false ∧
    wellFormed (.subscribe 0 ⟨.mailbox 0, 0, 0, none⟩ ⟨65535, 0, 0, 0, 0, [⟨7, 0, 0, 0, 1, 0⟩]⟩) = true := by decide
theorem test_wf_selection : wellFormed (.subscribe 0 ⟨.mailbox 0, 0, 0, none⟩ ⟨1, 0, 0, 0, 0, [⟨256, 0, 0, 0, 1, 0⟩]⟩) = false := by decide
theorem test_wf_bar2 : wellFormed (.bar2Access true 0 3 [1]) = false ∧ wellFormed (.bar2Access true 0 1 [1]) = true := by decide
theorem test_wf_pairs : wellFormed (.calDone [⟨4096, 0, 0⟩] ⟨0, 0, 0, 0, 0⟩) = false ∧ wellFormed (.calDone [⟨4095, 0, 0⟩] ⟨0, 0, 0, 0, 0⟩) = true := by decide
theorem test_wf_item : wellFormed (.mirrorSend 0 (.codecContext 1024 0 0 [])) = false ∧ wellFormed (.mirrorSend 0 (.codecContext 1023 0 0 [])) = true := by decide
theorem test_wf_temps : wellFormed (.thermWarn [1, 2, 3]) = false ∧ wellFormed (.thermWarn [1, 2, 3, 4]) = true := by decide
theorem test_wf_load : wellFormed (.loadWindow 1001 0) = false ∧ wellFormed (.loadWindow 1000 0) = true := by decide

/-! ### the witnesses hold from the state after reset -/

set_option maxRecDepth 100000
set_option Elab.async false

/-- A state and operands for each clause of `Obligations.CommitsAndApplies`, its part on page commit is pending or mismatch. -/
theorem test_pageCommitIsPendingOrMismatch : allOk State.reset witPageCommitIsPendingOrMismatch = true := by decide +kernel

/-- A state and operands for each clause of `Obligations.CommitsAndApplies`, its part on apply writes take effect. -/
theorem test_applyWritesTakeEffect : allOk State.reset witApplyWritesTakeEffect = true := by decide +kernel

/-- A state and operands for each clause of `Obligations.TicksCountAndPulse`, its part on tick advances count. -/
theorem test_tickAdvancesCount : allOk State.reset witTickAdvancesCount = true := by decide +kernel

/-- A state and operands for each clause of `Obligations.ShotsLaunchAndPass`, its part on launch plays or counts dark. -/
theorem test_launchPlaysOrCountsDark : allOk State.reset witLaunchPlaysOrCountsDark = true := by decide +kernel

/-- A state and operands for each clause of `Obligations.ShotsLaunchAndPass`, its part on shots pass to phz. -/
theorem test_shotsPassToPhz : allOk State.reset witShotsPassToPhz = true := by decide +kernel

/-- A state and operands for each clause of `Obligations.TicksCountAndPulse`, its part on overrun is counted. -/
theorem test_overrunIsCounted : allOk State.reset witOverrunIsCounted = true := by decide +kernel

/-- A state and operands for each clause of `Obligations.TicksCountAndPulse`, its part on shared tick pulses. -/
theorem test_sharedTickPulses : allOk State.reset witSharedTickPulses = true := by decide +kernel

/-- A state and operands for each clause of `Obligations.RunEntryFromConfig`. -/
theorem test_runEntryFromConfig : allOk State.reset witRunEntryFromConfig = true := by decide +kernel

/-- A state and operands for each clause of `Obligations.OtherModeEntries`, its part on standby entry. -/
theorem test_standbyEntry : allOk State.reset witStandbyEntry = true := by decide +kernel

/-- A state and operands for each clause of `Obligations.OtherModeEntries`, its part on config entry. -/
theorem test_configEntry : allOk State.reset witConfigEntry = true := by decide +kernel

/-- A state and operands for each clause of `Obligations.OtherModeEntries`, its part on calibrate entry. -/
theorem test_calibrateEntry : allOk State.reset witCalibrateEntry = true := by decide +kernel

/-- A state and operands for each clause of `Obligations.OtherModeEntries`, its part on b50 entry. -/
theorem test_b50Entry : allOk State.reset witB50Entry = true := by decide +kernel

/-- A state and operands for each clause of `Obligations.LanesWaitAndDrain`, its part on lane requests wait. -/
theorem test_laneRequestsWait : allOk State.reset witLaneRequestsWait = true := by decide +kernel

/-- A state and operands for each clause of `Obligations.LanesWaitAndDrain`, its part on drain ends. -/
theorem test_drainEnds : allOk State.reset witDrainEnds = true := by decide +kernel

/-- A state and operands for each clause of `Obligations.ReferenceAndHoldover`, its part on reference is judged. -/
theorem test_referenceIsJudged : allOk State.reset witReferenceIsJudged = true := by decide +kernel

/-- A state and operands for each clause of `Obligations.ReferenceAndHoldover`, its part on holdover and return. -/
theorem test_holdoverAndReturn : allOk State.reset witHoldoverAndReturn = true := by decide +kernel

/-- A state and operands for each clause of `Obligations.EpochCommitsAndAdjusts`, its part on epoch commits or rejects. -/
theorem test_epochCommitsOrRejects : allOk State.reset witEpochCommitsOrRejects = true := by decide +kernel

/-- A state and operands for each clause of `Obligations.EpochCommitsAndAdjusts`, its part on adjustment runs and ends. -/
theorem test_adjustmentRunsAndEnds : allOk State.reset witAdjustmentRunsAndEnds = true := by decide +kernel

/-- A state and operands for each clause of `Obligations.WrapKeepsMappedTime`. -/
theorem test_wrapKeepsMappedTime : allOk State.reset witWrapKeepsMappedTime = true := by decide +kernel

/-- A state and operands for each clause of `Obligations.PpsInAndOut`. -/
theorem test_ppsInAndOut : allOk State.reset witPpsInAndOut = true := by decide +kernel

/-- A state and operands for each clause of `Obligations.EdgesAndStarts`, its part on edges are stamped. -/
theorem test_edgesAreStamped : allOk State.reset witEdgesAreStamped = true := by decide +kernel

/-- A state and operands for each clause of `Obligations.EdgesAndStarts`, its part on nearest start is decided. -/
theorem test_nearestStartIsDecided : allOk State.reset witNearestStartIsDecided = true := by decide +kernel

/-- A state and operands for each clause of `Obligations.ReadsTakeSnapshots`. -/
theorem test_readsTakeSnapshots : allOk State.reset witReadsTakeSnapshots = true := by decide +kernel

/-- A state and operands for each clause of `Obligations.LaunchWindowsEnd`. -/
theorem test_launchWindowsEnd : allOk State.reset witLaunchWindowsEnd = true := by decide +kernel

/-- A state and operands for each clause of `Obligations.GateClosesAndOpens`. -/
theorem test_gateClosesAndOpens : allOk State.reset witGateClosesAndOpens = true := by decide +kernel

/-- A state and operands for each clause of `Obligations.LoopsAndFaults`, its part on loops and pumps. -/
theorem test_loopsAndPumps : allOk State.reset witLoopsAndPumps = true := by decide +kernel

/-- A state and operands for each clause of `Obligations.LoopsAndFaults`, its part on output faults latch and clear. -/
theorem test_outputFaultsLatchAndClear : allOk State.reset witOutputFaultsLatchAndClear = true := by decide +kernel

/-- A state and operands for each clause of `Obligations.FrontEndRangeAndTraces`, its part on range follows peaks. -/
theorem test_rangeFollowsPeaks : allOk State.reset witRangeFollowsPeaks = true := by decide +kernel

/-- A state and operands for each clause of `Obligations.FrontEndRangeAndTraces`, its part on front end status. -/
theorem test_frontEndStatus : allOk State.reset witFrontEndStatus = true := by decide +kernel

/-- A state and operands for each clause of `Obligations.FrontEndRangeAndTraces`, its part on tables and traces. -/
theorem test_tablesAndTraces : allOk State.reset witTablesAndTraces = true := by decide +kernel

/-- A state and operands for each clause of `Obligations.SlowPartsAndCoefficients`. -/
theorem test_slowPartsAndCoefficients : allOk State.reset witSlowPartsAndCoefficients = true := by decide +kernel

/-- A state and operands for each clause of `Obligations.SegmentsCloseAndFree`, its part on segments close. -/
theorem test_segmentsClose : allOk State.reset witSegmentsClose = true := by decide +kernel

/-- A state and operands for each clause of `Obligations.SegmentsCloseAndFree`, its part on segment holds end. -/
theorem test_segmentHoldsEnd : allOk State.reset witSegmentHoldsEnd = true := by decide +kernel

/-- A state and operands for each clause of `Obligations.ZonesAndEventRecords`, its part on zones rearm and throttle. -/
theorem test_zonesRearmAndThrottle : allOk State.reset witZonesRearmAndThrottle = true := by decide +kernel

/-- A state and operands for each clause of `Obligations.ZonesAndEventRecords`, its part on zone table and event records. -/
theorem test_zoneTableAndEventRecords : allOk State.reset witZoneTableAndEventRecords = true := by decide +kernel

/-- A state and operands for each clause of `Obligations.RamanShotsAndPeriods`. -/
theorem test_ramanShotsAndPeriods : allOk State.reset witRamanShotsAndPeriods = true := by decide +kernel

/-- A state and operands for each clause of `Obligations.AuxiliaryRuns`, its part on aux sources and enable. -/
theorem test_auxSourcesAndEnable : allOk State.reset witAuxSourcesAndEnable = true := by decide +kernel

/-- A state and operands for each clause of `Obligations.AuxiliaryRuns`, its part on aux conversions run. -/
theorem test_auxConversionsRun : allOk State.reset witAuxConversionsRun = true := by decide +kernel

/-- A state and operands for each clause of `Obligations.ZoneArithmetic`. -/
theorem test_zoneArithmetic : allOk State.reset witZoneArithmetic = true := by decide +kernel

/-- A state and operands for each clause of `Obligations.ZoneArithmetic`, its part on zone logic shifts and moves. -/
theorem test_zoneLogicShiftsAndMoves : allOk State.reset witZoneLogicShiftsAndMoves = true := by decide +kernel

/-- A state and operands for each clause of `Obligations.ZoneExtremes`. -/
theorem test_zoneExtremes : allOk State.reset witZoneExtremes = true := by decide +kernel

/-- A state and operands for each clause of `Obligations.ZoneAccumulators`. -/
theorem test_zoneAccumulators : allOk State.reset witZoneAccumulators = true := by decide +kernel

/-- A state and operands for each clause of `Obligations.ZonePointersAndPorts`, its part on zone pointers and memory. -/
theorem test_zonePointersAndMemory : allOk State.reset witZonePointersAndMemory = true := by decide +kernel

/-- A state and operands for each clause of `Obligations.ZonePointersAndPorts`, its part on zone ports and specials. -/
theorem test_zonePortsAndSpecials : allOk State.reset witZonePortsAndSpecials = true := by decide +kernel

/-- A state and operands for each clause of `Obligations.ZoneControl`. -/
theorem test_zoneControl : allOk State.reset witZoneControl = true := by decide +kernel

/-- A state and operands for each clause of `Obligations.ZoneCoreCommands`, its part on zone stops and starts. -/
theorem test_zoneStopsAndStarts : allOk State.reset witZoneStopsAndStarts = true := by decide +kernel

/-- A state and operands for each clause of `Obligations.ZoneCoreCommands`, its part on zone events copies and window. -/
theorem test_zoneEventsCopiesAndWindow : allOk State.reset witZoneEventsCopiesAndWindow = true := by decide +kernel

/-- A state and operands for each clause of `Obligations.CompressEnginesCode`. -/
theorem test_compressEnginesCode : allOk State.reset witCompressEnginesCode = true := by decide +kernel

/-- A state and operands for each clause of `Obligations.DecompressJobsRun`. -/
theorem test_decompressJobsRun : allOk State.reset witDecompressJobsRun = true := by decide +kernel

/-- A state and operands for each clause of `Obligations.MemoryTrainsAndFills`. -/
theorem test_memoryTrainsAndFills : allOk State.reset witMemoryTrainsAndFills = true := by decide +kernel

/-- A state and operands for each clause of `Obligations.MemoryServesRequests`. -/
theorem test_memoryServesRequests : allOk State.reset witMemoryServesRequests = true := by decide +kernel

/-- A state and operands for each clause of `Obligations.LeasesAndAdmission`, its part on leases and entries. -/
theorem test_leasesAndEntries : allOk State.reset witLeasesAndEntries = true := by decide +kernel

/-- A state and operands for each clause of `Obligations.LeasesAndAdmission`, its part on admission decides. -/
theorem test_admissionDecides : allOk State.reset witAdmissionDecides = true := by decide +kernel

/-- A state and operands for each clause of `Obligations.PortsSendAndReceive`. -/
theorem test_portsSendAndReceive : allOk State.reset witPortsSendAndReceive = true := by decide +kernel

/-- A state and operands for each clause of `Obligations.LinksAddressesAndPtp`. -/
theorem test_linksAddressesAndPtp : allOk State.reset witLinksAddressesAndPtp = true := by decide +kernel

/-- A state and operands for each clause of `Obligations.ChannelsStartAndStop`. -/
theorem test_channelsStartAndStop : allOk State.reset witChannelsStartAndStop = true := by decide +kernel

/-- A state and operands for each clause of `Obligations.DescriptorsRecordsAndCopies`. -/
theorem test_descriptorsRecordsAndCopies : allOk State.reset witDescriptorsRecordsAndCopies = true := by decide +kernel

/-- A state and operands for each clause of `Obligations.WindowResetsSleepAndLink`. -/
theorem test_windowResetsSleepAndLink : allOk State.reset witWindowResetsSleepAndLink = true := by decide +kernel

/-- A state and operands for each clause of `Obligations.InterruptsAreClaimed`. -/
theorem test_interruptsAreClaimed : allOk State.reset witInterruptsAreClaimed = true := by decide +kernel

/-- A state and operands for each clause of `Obligations.StewardsRun`. -/
theorem test_stewardsRun : allOk State.reset witStewardsRun = true := by decide +kernel

/-- A state and operands for each clause of `Obligations.MailboxesAndFirmware`. -/
theorem test_mailboxesAndFirmware : allOk State.reset witMailboxesAndFirmware = true := by decide +kernel

/-- A state and operands for each clause of `Obligations.MailboxesAndFirmware`, its part on install. -/
theorem test_install : allOk State.reset witInstall = true := by decide +kernel

/-- A state and operands for each clause of `Obligations.CalibrationRuns`, its part on procedures start. -/
theorem test_proceduresStart : allOk State.reset witProceduresStart = true := by decide +kernel

/-- A state and operands for each clause of `Obligations.CalibrationRuns`, its part on procedures end. -/
theorem test_proceduresEnd : allOk State.reset witProceduresEnd = true := by decide +kernel

/-- A state and operands for each clause of `Obligations.CalibrationRuns`, its part on background and user values. -/
theorem test_backgroundAndUserValues : allOk State.reset witBackgroundAndUserValues = true := by decide +kernel

/-- A state and operands for each clause of `Obligations.TwinClaimsAndHealth`, its part on claims complete. -/
theorem test_claimsComplete : allOk State.reset witClaimsComplete = true := by decide +kernel

/-- A state and operands for each clause of `Obligations.TwinClaimsAndHealth`, its part on heartbeats and health. -/
theorem test_heartbeatsAndHealth : allOk State.reset witHeartbeatsAndHealth = true := by decide +kernel

/-- A state and operands for each clause of `Obligations.TakeoverAndHandover`. -/
theorem test_takeoverAndHandover : allOk State.reset witTakeoverAndHandover = true := by decide +kernel

/-- A state and operands for each clause of `Obligations.MirrorAndNightwatch`. -/
theorem test_mirrorAndNightwatch : allOk State.reset witMirrorAndNightwatch = true := by decide +kernel

/-- A state and operands for each clause of `Obligations.B50Runs`, its part on b50 lane runs. -/
theorem test_b50LaneRuns : allOk State.reset witB50LaneRuns = true := by decide +kernel

/-- A state and operands for each clause of `Obligations.B50Runs`, its part on b50 ring runs. -/
theorem test_b50RingRuns : allOk State.reset witB50RingRuns = true := by decide +kernel

/-- A state and operands for each clause of `Obligations.StatusCountersAndPairs`. -/
theorem test_statusCountersAndPairs : allOk State.reset witStatusCountersAndPairs = true := by decide +kernel

/-- A state and operands for each clause of `Obligations.WritesByAddress`. -/
theorem test_writesByAddress : allOk State.reset witWritesByAddress = true := by decide +kernel

/-- A state and operands for each clause of `Obligations.ResetsAndSupplies`, its part on resets and start up. -/
theorem test_resetsAndStartUp : allOk State.reset witResetsAndStartUp = true := by decide +kernel

/-- A state and operands for each clause of `Obligations.ResetsAndSupplies`, its part on supplies and temperature. -/
theorem test_suppliesAndTemperature : allOk State.reset witSuppliesAndTemperature = true := by decide +kernel

/-- A state and operands for each clause of `Obligations.ResetsAndSupplies`, its part on boot. -/
theorem test_boot : allOk State.reset witBoot = true := by decide +kernel

end Sys2Proof.Tests
end

section
/-!
SUPPORT. The epoch as one number of device units: what moving it and the wrap of device time do to it (R60, R62, R63).
-/

namespace Sys2Proof.Machine

open Sys2Proof.Claims

/-- The epoch in force, in device units (R60). -/
def epochUnits (s : State) : Nat := s.tbase.sec.toNat * duPerS + s.tbase.subs

@[simp] theorem raise_tbase (p b : Nat) (s : State) : (s.raise p b).tbase = s.tbase := rfl

@[simp] theorem epochUnits_raise (p b : Nat) (s : State) : epochUnits (s.raise p b) = epochUnits s := rfl

@[simp] theorem epochUnits_setTime (t : Time) (s : State) : epochUnits { s with time := t } = epochUnits s := rfl

@[simp] theorem raised_setTime (p b : Nat) (t : Time) (s : State) : Raised { s with time := t } p b ↔ Raised s p b := Iff.rfl

/-- Raising bit `b` of a page's interrupt status makes it read 1. -/
theorem raised_raise (p b : Nat) (s : State) (h : b < 32) : Raised (s.raise p b) p b := by
  have hbit : ((s.st (irqStatus p) ||| 2 ^ b) % 2 ^ 32).testBit b = true := by
    rw [Nat.testBit_mod_two_pow, Nat.testBit_or, Nat.testBit_two_pow_self]
    simp [h]
  rw [Raised, st_raise_self]
  exact of_decide_eq_true (Nat.testBit_eq_decide_div_mod_eq ▸ hbit)

/-! ### moving the epoch -/

theorem duPerS_pos : 0 < duPerS := by decide

/-- Seconds of 48 bits and the rest below a second hold the number of device units modulo 2⁴⁸ seconds. -/
theorem epochUnits_epochMove (d : Int) (s : State) :
    (epochUnits (epochMove d s) : Int) = (epochUnits s + d) % ((2 ^ 48 * duPerS : Nat) : Int) := by
  have hsplit : ∀ n : Int, (((BitVec.ofInt 48 (n / duPerS)).toNat * duPerS + (n % duPerS).toNat : Nat) : Int) =
      n % ((2 ^ 48 * duPerS : Nat) : Int) := by
    intro n
    rw [BitVec.toNat_ofInt]
    simp only [duPerS]
    omega
  exact hsplit _

theorem epochUnits_epochMove_nat (d : Nat) (s : State) :
    epochUnits (epochMove d s) = (epochUnits s + d) % (2 ^ 48 * duPerS) :=
  Int.ofNat_inj.mp (epochUnits_epochMove d s)

/-- A moved epoch is normalised: its subunits are less than a second. -/
theorem epochMove_subs_lt (d : Int) (s : State) : (epochMove d s).tbase.subs < duPerS := by
  have hpos : (0 : Int) < duPerS := Int.natCast_pos.mpr duPerS_pos
  have hlt : ∀ n : Int, (n % duPerS).toNat < duPerS := fun n =>
    (Int.toNat_lt (Int.emod_nonneg n (Int.ne_of_gt hpos))).mpr (Int.emod_lt_of_pos n hpos)
  exact hlt _

/-- With no adjustment left, no slew is under way and the epoch stands (R62). -/
theorem slewEpoch_of_left_zero (d : Nat) (s : State) (h : s.st Reg.TBASE_ADJ_LEFT = 0) : slewEpoch d s = s := by
  have hleft : s.stS Reg.TBASE_ADJ_LEFT = 0 := by simp [State.stS, h, sx]
  simp only [slewEpoch, hleft, if_true]

/-! ### the wrap of device time -/

/-- What the epoch gains at a wrap, as a count of device units (R63). -/
theorem epochWrapped_eq (s : State) :
    epochWrapped s = (epochMove ((144115188 * duPerS + 9709551616 : Nat) : Int) s).raise 0x012 5 := by
  have hgain : (144115188 * 128000000000 + 9709551616 : Int) = ((144115188 * duPerS + 9709551616 : Nat) : Int) := by
    simp [duPerS]
  rw [epochWrapped, hgain]

/-- At a wrap the epoch gains the 2⁶⁴ device units that device time loses (R63). -/
theorem epochUnits_epochWrapped (s : State) :
    epochUnits (epochWrapped s) = (epochUnits s + (144115188 * duPerS + 9709551616)) % (2 ^ 48 * duPerS) := by
  rw [epochWrapped_eq, epochUnits_raise, epochUnits_epochMove_nat]

theorem epochWrapped_subs_lt (s : State) : (epochWrapped s).tbase.subs < duPerS := epochMove_subs_lt _ s

theorem epochWrapped_raised (s : State) : Raised (epochWrapped s) 0x012 5 := raised_raise _ _ _ (by decide)

/-- EPOCH_WRAP slews the epoch up to the wrap, wraps it, and device time starts again at 0 (R62, R63). -/
theorem exec_epochWrap (s : State) :
    exec .epochWrap s = .next { epochWrapped (slewEpoch (2 ^ 64 - s.time.toNat) s) with time := 0 } := rfl

end Sys2Proof.Machine

open Sys2Proof Sys2Proof.Machine Sys2Proof.Claims

/-- Settles O9: the wrap moves the slewed epoch by the 2⁶⁴ device units that device time loses, modulo the 2⁴⁸ seconds
that the epoch counts. -/
theorem wrapKeepsMappedTime : Obligations.WrapKeepsMappedTime := by
  unfold Obligations.WrapKeepsMappedTime
  intro s w hw
  have hslew : s.st Reg.TBASE_ADJ_LEFT = 0 → w = s := fun h => hw.trans (slewEpoch_of_left_zero _ s h)
  have hrun : exec .epochWrap s = .next { epochWrapped w with time := 0 } := hw ▸ exec_epochWrap s
  have hraised : Raised { epochWrapped w with time := 0 } 0x012 5 := (raised_setTime ..).mpr (epochWrapped_raised w)
  have hepoch : epochUnits { epochWrapped w with time := 0 } % (2 ^ 48 * duPerS) =
      (epochUnits w + (144115188 * duPerS + 9709551616)) % (2 ^ 48 * duPerS) := by
    rw [epochUnits_setTime, epochUnits_epochWrapped, Nat.mod_mod]
  exact ⟨hslew, _, hrun, rfl, hraised, epochWrapped_subs_lt w, hepoch⟩

end

section
/-!
SUPPORT. What the registers, the writes under way and the issue of an instruction do in a zone core (R287, R293, R294).
-/

namespace Sys2Proof.Machine

open Sys2Proof.Claims

/-! ### cores of the state -/

@[simp] theorem core_setCore_self (n : Nat) (c : ZCore) (s : State) : (s.setCore n c).core n = c :=
  Amap.get_put_self n c {} s.zc

@[simp] theorem core_setSt (f : Fld) (v n : Nat) (s : State) : (s.setSt f v).core n = s.core n := rfl

@[simp] theorem coreState_setCore (m n : Nat) (c : ZCore) (s : State) : (s.setCore m c).coreState n = s.coreState n := rfl

theorem coreState_setSt_run (n : Nat) (s : State) : (s.setSt (Reg.ZCn_STATUS_STATE.pg n) 1).coreState n = 1 :=
  st_setSt_self (Reg.ZCn_STATUS_STATE.pg n) 1 s (by simp [Fld.pg, Reg.ZCn_STATUS_STATE, fld])

/-! ### registers and writes under way -/

theorem ZCore.reg_setReg_self (r v : Nat) (c : ZCore) : (c.setReg r v).reg r = v % 2 ^ zWidth r :=
  Amap.get_put_self r _ 0 c.regs

theorem ZCore.reg_setReg_ne (r q v : Nat) (c : ZCore) (h : q ≠ r) : (c.setReg r v).reg q = c.reg q :=
  Amap.get_put_ne r q _ 0 c.regs h

@[simp] theorem ZCore.setReg_regW (r v : Nat) (c : ZCore) : (c.setReg r v).regW = c.regW := rfl

@[simp] theorem ZCore.wr_reg (ld : Bool) (r v q : Nat) (c : ZCore) : (c.wr ld r v).reg q = c.reg q := rfl

@[simp] theorem ZCore.wr_pos (ld : Bool) (r v : Nat) (c : ZCore) : (c.wr ld r v).pos = c.pos := rfl

@[simp] theorem ZCore.wr_regW (ld : Bool) (r v : Nat) (c : ZCore) :
    (c.wr ld r v).regW = c.regW ++ [(c.pos, r, ld, v % 2 ^ 40)] := rfl

/-! ### what decides how the core goes on -/

/-- Where a core stands and whether a step or a halt is asked of it: what its next issue depends on and no register write moves. -/
def ZCore.flow (c : ZCore) : Nat × Bool × Bool := (c.pos, c.stepping, c.haltReq)

theorem ZCore.flow_eq_iff (c d : ZCore) : c.flow = d.flow ↔ c.pos = d.pos ∧ c.stepping = d.stepping ∧ c.haltReq = d.haltReq := by
  simp [ZCore.flow]

@[simp] theorem ZCore.setReg_flow (r v : Nat) (c : ZCore) : (c.setReg r v).flow = c.flow := rfl

@[simp] theorem ZCore.setSr_flow (b : Nat) (v : Bool) (c : ZCore) : (c.setSr b v).flow = c.flow := rfl

@[simp] theorem ZCore.wr_flow (ld : Bool) (r v : Nat) (c : ZCore) : (c.wr ld r v).flow = c.flow := rfl

@[simp] theorem ZCore.setMem_flow (a v : Nat) (c : ZCore) : (c.setMem a v).flow = c.flow := by
  unfold ZCore.setMem
  split <;> rfl

/-- A fold of operations that each leave the flow leaves it. -/
theorem ZCore.foldl_flow {α : Type} (f : ZCore → α → ZCore) (h : ∀ c x, (f c x).flow = c.flow) (l : List α) (c : ZCore) :
    (l.foldl f c).flow = c.flow := by
  induction l generalizing c with
  | nil => rfl
  | cons x xs ih => exact (ih (f c x)).trans (h c x)

@[simp] theorem ZCore.land_flow (k : Nat) (c : ZCore) : (c.land k).flow = c.flow :=
  (ZCore.foldl_flow _ (fun _ _ => ZCore.setReg_flow ..) _ _).trans
    ((ZCore.foldl_flow _ (fun _ _ => ZCore.setMem_flow ..) _ _).trans (ZCore.foldl_flow _ (fun _ _ => ZCore.setReg_flow ..) _ c))

@[simp] theorem ZCore.advancePc_flow (c : ZCore) : c.advancePc.flow = c.flow := by
  unfold ZCore.advancePc
  simp only
  split
  · rfl
  · split
    · rfl
    · split <;> rfl

/-- An instruction finds its core where the issue found it (R293). -/
theorem seen_flow (n : Core) (s : State) : (seen n s).flow = (s.core n).flow :=
  (ZCore.advancePc_flow _).trans (ZCore.land_flow _ _)

/-! ### issue -/

/-- After an issue outside a delay slot, with no step or halt asked for, the core runs on. -/
theorem afterIssue_runs_on (n : Nat) (s : State) (hstep : (s.core n).stepping = false) (hhalt : (s.core n).haltReq = false) :
    afterIssue n false s = s.setCore n (s.core n) := by
  simp [afterIssue, hstep, hhalt]

/-- An instruction that issues without a fault has its effect on the core as it sees it, and the core moves one position on. -/
theorem zcIssue_of_issues (n : Core) (i : Instr) (fault : ZCore → Option (State → State)) (body : ZCore → State → State) (s : State)
    (h : issues n i s) (hfault : fault (s.core n) = none) :
    zcIssue n i fault body s =
      let t := body (seen n s) (s.setSt (Reg.ZCn_STATUS_STATE.pg n) 1)
      afterIssue n false (t.setCore n { t.core n with pos := (t.core n).pos + 1 }) := by
  obtain ⟨hcan, hdecode, hplace, hdelay, -, -⟩ := h
  simp [zcIssue, hcan, hdecode, hplace, hdelay, hfault, seen]

/-- The same for an instruction that touches its core alone and leaves the core's flow. -/
theorem zcOwn_of_issues (n : Core) (i : Instr) (f : ZCore → ZCore) (s : State) (h : issues n i s)
    (hflow : (f (seen n s)).flow = (seen n s).flow) :
    (zcOwn n i f s).core n = { f (seen n s) with pos := (s.core n).pos + 1 } ∧ (zcOwn n i f s).coreState n = 1 := by
  obtain ⟨hpos, hstep, hhalt⟩ := (ZCore.flow_eq_iff _ _).mp (hflow.trans (seen_flow n s))
  have hrun := zcIssue_of_issues n i (fun _ => none) (fun c s => s.setCore n (f c)) s h rfl
  obtain ⟨-, -, -, -, hnostep, hnohalt⟩ := h
  rw [zcOwn, hrun]
  simp only [core_setCore_self]
  rw [afterIssue_runs_on _ _ (by simp [hstep, hnostep]) (by simp [hhalt, hnohalt])]
  simp [hpos, coreState_setSt_run]

/-- What an instruction that touches its core alone gives: its register writes are under way, and every register reads as the
instruction has left it. -/
theorem gives_of_zcOwn (n : Core) (i : Instr) (f : ZCore → ZCore) (l : List (Nat × Bool × Nat)) (s : State)
    (hexec : exec i s = .next (zcOwn n i f s)) (h : issues n i s) (hflow : (f (seen n s)).flow = (seen n s).flow)
    (hregW : (f (seen n s)).regW = (seen n s).regW ++ l.map fun w => ((seen n s).pos, w.1, w.2.1, w.2.2 % 2 ^ 40)) :
    Gives i s fun u => Writes n s u l ∧ ∀ r, (u.core n).reg r = (f (seen n s)).reg r := by
  obtain ⟨hcore, hstate⟩ := zcOwn_of_issues n i f s h hflow
  obtain ⟨hpos, -, -⟩ := (ZCore.flow_eq_iff _ _).mp (seen_flow n s)
  rw [hpos] at hregW
  exact ⟨_, hexec, ⟨by rw [hcore]; exact hregW, by rw [hcore], hstate⟩, fun r => by rw [hcore]; rfl⟩

theorem gives_imp {c : Instr} {s : State} {P Q : State → Prop} (h : Gives c s P) (hPQ : ∀ u, P u → Q u) : Gives c s Q := by
  obtain ⟨u, hexec, hu⟩ := h
  exact ⟨u, hexec, hPQ u hu⟩

/-- An instruction whose whole effect is one register write leaves SR. -/
theorem gives_of_zcOwn_wr (n : Core) (i : Instr) (r : Nat) (val : ZCore → Nat) (s : State)
    (hexec : exec i s = .next (zcOwn n i (fun c => c.wr false r (val c)) s)) (h : issues n i s) :
    Gives i s fun u => Writes n s u [(r, false, val (seen n s))] ∧ SrKept n s u :=
  gives_imp (gives_of_zcOwn n i _ [(r, false, val (seen n s))] s hexec h (ZCore.wr_flow ..) (ZCore.wr_regW ..))
    fun _ ⟨hw, hreg⟩ => ⟨hw, hreg (zX 0)⟩

end Sys2Proof.Machine
end

section
/-!
SUPPORT. MIN and MAX of a zone core, and its searches for an extreme (R292, R300).
-/

namespace Sys2Proof.Machine

open Sys2Proof.Claims

theorem exec_min (n : Core) (d a b : Fin 8) (s : State) : exec (.min n d a b) s = .next (zcOwn n (.min n d a b)
    (fun c => c.wr false (zD d) (ux 40 (min (sx 40 (c.rdE (zD a))) (sx 40 (c.rdE (zD b)))))) s) := rfl

theorem exec_max (n : Core) (d a b : Fin 8) (s : State) : exec (.max n d a b) s = .next (zcOwn n (.max n d a b)
    (fun c => c.wr false (zD d) (ux 40 (max (sx 40 (c.rdE (zD a))) (sx 40 (c.rdE (zD b)))))) s) := rfl

theorem exec_minx (n : Core) (d a b : Fin 8) (s : State) :
    exec (.minx n d a b) s = .next (zcOwn n (.minx n d a b) (ZCore.extreme (fun x y => x < y) true d a b) s) := rfl

theorem exec_maxx (n : Core) (d a b : Fin 8) (s : State) :
    exec (.maxx n d a b) s = .next (zcOwn n (.maxx n d a b) (ZCore.extreme (fun x y => y < x) true d a b) s) := rfl

theorem exec_minxu (n : Core) (d a b : Fin 8) (s : State) :
    exec (.minxu n d a b) s = .next (zcOwn n (.minxu n d a b) (ZCore.extreme (fun x y => x < y) false d a b) s) := rfl

theorem exec_maxxu (n : Core) (d a b : Fin 8) (s : State) :
    exec (.maxxu n d a b) s = .next (zcOwn n (.maxxu n d a b) (ZCore.extreme (fun x y => y < x) false d a b) s) := rfl

/-! ### one step of a search -/

/-- A register's value as a search compares it: signed, or as it stands (R292). -/
def searchRank (signed : Bool) (v : Nat) : Int := if signed then sx 40 v else v

/-- The search takes the value of `a` in place of that of `d`. -/
def ZCore.takes (take : Int → Int → Bool) (signed : Bool) (d a : Fin 8) (c : ZCore) : Bool :=
  take (searchRank signed (c.rdE (zD a))) (searchRank signed (c.rdE (zD d)))

/-- A search that takes its operand writes it, and where it was found, and then counts on. -/
theorem ZCore.extreme_of_takes {take : Int → Int → Bool} {signed : Bool} {d a b : Fin 8} {c : ZCore}
    (h : c.takes take signed d a = true) :
    c.extreme take signed d a b =
      ((c.wr false (zD d) (c.rdE (zD a))).wr false (zD b) (c.reg (zX 4))).setReg (zX 4) (c.reg (zX 4) + 1) :=
  congrArg (ZCore.setReg (zX 4) (c.reg (zX 4) + 1)) (if_pos h)

/-- One that does not only counts on. -/
theorem ZCore.extreme_of_not_takes {take : Int → Int → Bool} {signed : Bool} {d a b : Fin 8} {c : ZCore}
    (h : c.takes take signed d a = false) : c.extreme take signed d a b = c.setReg (zX 4) (c.reg (zX 4) + 1) :=
  congrArg (ZCore.setReg (zX 4) (c.reg (zX 4) + 1)) (if_neg (Bool.eq_false_iff.mp h))

theorem ZCore.extreme_flow (take : Int → Int → Bool) (signed : Bool) (d a b : Fin 8) (c : ZCore) :
    (c.extreme take signed d a b).flow = c.flow := by
  cases h : c.takes take signed d a with
  | true => rw [ZCore.extreme_of_takes h]; rfl
  | false => rw [ZCore.extreme_of_not_takes h]; rfl

theorem ZCore.extreme_regW (take : Int → Int → Bool) (signed : Bool) (d a b : Fin 8) (c : ZCore) :
    (c.extreme take signed d a b).regW = c.regW ++
      (if c.takes take signed d a then [(zD d, false, c.rdE (zD a)), (zD b, false, c.reg (zX 4))] else []).map
        fun w => (c.pos, w.1, w.2.1, w.2.2 % 2 ^ 40) := by
  cases h : c.takes take signed d a with
  | true => simp [ZCore.extreme_of_takes h]
  | false => simp [ZCore.extreme_of_not_takes h]

theorem ZCore.extreme_reg_count (take : Int → Int → Bool) (signed : Bool) (d a b : Fin 8) (c : ZCore) :
    (c.extreme take signed d a b).reg (zX 4) = (c.reg (zX 4) + 1) % 2 ^ 16 := ZCore.reg_setReg_self (zX 4) ..

theorem ZCore.extreme_reg_ne (take : Int → Int → Bool) (signed : Bool) (d a b : Fin 8) (r : Nat) (c : ZCore) (hr : r ≠ zX 4) :
    (c.extreme take signed d a b).reg r = c.reg r := by
  cases h : c.takes take signed d a with
  | true => rw [ZCore.extreme_of_takes h, ZCore.reg_setReg_ne _ _ _ _ hr, ZCore.wr_reg, ZCore.wr_reg]
  | false => rw [ZCore.extreme_of_not_takes h, ZCore.reg_setReg_ne _ _ _ _ hr]

/-- What an instruction that searches gives. -/
theorem gives_of_extreme (n : Core) (i : Instr) (take : Int → Int → Bool) (signed : Bool) (d a b : Fin 8) (s : State)
    (hexec : exec i s = .next (zcOwn n i (ZCore.extreme take signed d a b) s)) (h : issues n i s) :
    Gives i s fun u =>
      Writes n s u (if (seen n s).takes take signed d a then
        [(d.val, false, (seen n s).rdE (zD a)), (b.val, false, (seen n s).reg (zX 4))] else []) ∧ SrKept n s u ∧
      (u.core n).reg (zX 4) = ((seen n s).reg (zX 4) + 1) % 2 ^ 16 :=
  gives_imp (gives_of_zcOwn n i _ _ s hexec h (ZCore.extreme_flow ..) (ZCore.extreme_regW ..)) fun _ ⟨hw, hreg⟩ =>
    ⟨hw, (hreg (zX 0)).trans (ZCore.extreme_reg_ne _ _ _ _ _ _ _ (by decide)), (hreg (zX 4)).trans (ZCore.extreme_reg_count ..)⟩

/-- An unsigned search compares the registers as natural numbers. -/
theorem ZCore.takes_unsigned_lt (d a : Fin 8) (c : ZCore) :
    c.takes (fun x y => x < y) false d a = decide (c.rdE (zD a) < c.rdE (zD d)) := by
  simp [ZCore.takes, searchRank]

theorem ZCore.takes_unsigned_gt (d a : Fin 8) (c : ZCore) :
    c.takes (fun x y => y < x) false d a = decide (c.rdE (zD d) < c.rdE (zD a)) := by
  simp [ZCore.takes, searchRank]

end Sys2Proof.Machine

open Sys2Proof Sys2Proof.Machine Sys2Proof.Claims

/-- Settles O23: MIN and MAX are one register write; the four searches are the same step with four comparisons. -/
theorem zoneExtremes : Obligations.ZoneExtremes := by
  unfold Obligations.ZoneExtremes
  rintro n d a b s _ _ _ _ rfl rfl rfl rfl
  refine ⟨gives_of_zcOwn_wr n _ _ _ s (exec_min n d a b s), gives_of_zcOwn_wr n _ _ _ s (exec_max n d a b s), ?_⟩
  intro i t hmem hissues
  simp only [List.mem_cons, Prod.mk.injEq, List.not_mem_nil, or_false] at hmem
  obtain ⟨rfl, rfl⟩ | ⟨rfl, rfl⟩ | ⟨rfl, rfl⟩ | ⟨rfl, rfl⟩ := hmem
  · exact gives_of_extreme n _ _ _ d a b s (exec_minx n d a b s) hissues
  · exact gives_of_extreme n _ _ _ d a b s (exec_maxx n d a b s) hissues
  · exact ZCore.takes_unsigned_lt d a (seen n s) ▸ gives_of_extreme n _ _ _ d a b s (exec_minxu n d a b s) hissues
  · exact ZCore.takes_unsigned_gt d a (seen n s) ▸ gives_of_extreme n _ _ _ d a b s (exec_maxxu n d a b s) hissues

end

section
/-!
SUPPORT. The CRC-32C of the device (R319): the model's register, moved on a byte at a time, is the register that takes the message's bits one at a time, least significant bit first.
-/
namespace Sys2Proof.Machine

open Sys2Proof.Claims

/-- A register that a byte was added to moves on by one bit as a register to which the byte's lowest bit enters, with the rest of the byte still added. -/
theorem crcBit_xor (c m : BitVec 32) : crcBit (c ^^^ m) false = crcBit c (m.getLsbD 0) ^^^ (m >>> 1) := by
  simp only [crcBit, BitVec.getLsbD_xor, BitVec.ushiftRight_xor_distrib]
  cases c.getLsbD 0 <;> cases m.getLsbD 0 <;> simp [BitVec.xor_assoc, BitVec.xor_comm (m >>> 1)]

/-- The model's step of one bit, on the register's number. -/
theorem crcBits_succ_toNat (k : Nat) (c : BitVec 32) : crcBits (k + 1) c.toNat = crcBits k (crcBit c false).toNat := by
  have hodd : c.getLsbD 0 = decide (c.toNat % 2 = 1) := Nat.testBit_zero _
  simp only [crcBits, crcBit, hodd, BitVec.toNat_xor, BitVec.toNat_ushiftRight, Nat.shiftRight_eq_div_pow, Nat.pow_one]
  by_cases h : c.toNat % 2 = 1 <;> simp [h]

/-- The bits of a byte that was added to the register enter one after the other. -/
theorem crcBits_xor (k : Nat) (c m : BitVec 32) (hm : m.toNat < 2 ^ k) :
    crcBits k (c ^^^ m).toNat = (((List.range k).map m.getLsbD).foldl crcBit c).toNat := by
  induction k generalizing c m with
  | zero =>
    have hzero : m = 0#32 := BitVec.eq_of_toNat_eq (by simpa using hm)
    simp [hzero, crcBits]
  | succ k ih =>
    have hshift : (m >>> 1).toNat < 2 ^ k := by
      rw [BitVec.toNat_ushiftRight, Nat.shiftRight_eq_div_pow]; omega
    have hbits : (List.range k).map (m >>> 1).getLsbD = (List.range k).map (m.getLsbD ∘ Nat.succ) := by
      simp [Function.comp_def, BitVec.getLsbD_ushiftRight, Nat.add_comm]
    rw [crcBits_succ_toNat, crcBit_xor, ih _ _ hshift, hbits, List.range_succ_eq_map, List.map_cons, List.map_map, List.foldl_cons]

/-- A byte on the model's register is its eight bits on the bit register. -/
theorem crcBits_byte (c : BitVec 32) (b : Byte) :
    crcBits 8 (c.toNat ^^^ b.toNat) = (((List.range 8).map b.getLsbD).foldl crcBit c).toNat := by
  have hbyte : (b.setWidth 32).toNat = b.toNat := BitVec.toNat_setWidth_of_le (by decide)
  have hbits : (List.range 8).map (b.setWidth 32).getLsbD = (List.range 8).map b.getLsbD :=
    List.map_congr_left fun k hk => by
      have := List.mem_range.mp hk
      simp [BitVec.getLsbD_setWidth]; omega
  rw [← hbyte, ← BitVec.toNat_xor, crcBits_xor 8 c _ (hbyte ▸ b.isLt), hbits]

/-- The register after a message: the bytes of the model are the bits of the rule. -/
theorem crcBits_message (l : List Byte) (c : BitVec 32) :
    l.foldl (fun c b => crcBits 8 (c ^^^ b.toNat)) c.toNat =
      ((l.flatMap fun b => (List.range 8).map b.getLsbD).foldl crcBit c).toNat := by
  induction l generalizing c with
  | nil => rfl
  | cons b l ih => rw [List.foldl_cons, crcBits_byte, ih, List.flatMap_cons, List.foldl_append]

/-- The check value of R319, that of the string 123456789. -/
theorem crc32c_checkString : crc32c [0x31, 0x32, 0x33, 0x34, 0x35, 0x36, 0x37, 0x38, 0x39] = 0xE3069283 := by
  simp [crc32c, crcBits]

end Sys2Proof.Machine

open Sys2Proof Sys2Proof.Machine Sys2Proof.Claims

/-- Settles O57: the bytes that the model adds to the register enter it bit by bit, and both invert it at the end. -/
theorem crcIsCastagnoli : Obligations.CrcIsCastagnoli := by
  unfold Obligations.CrcIsCastagnoli
  refine ⟨fun l => ?_, crc32c_checkString⟩
  rw [BitVec.toNat_xor, ← crcBits_message l 0xFFFFFFFF#32]
  rfl

end
